-- ==== Sys2Proof/Word.lean ====
section
/-! DEFINITION. The words of the VA-32: bytes, node addresses, zone masks, wire samples, and the index types of its tables.

Bit vectors stand for what the spec lays out as bits. Gains, peaks and times are numbers that never wrap (R2, R133) and are
natural numbers; samples under computation are exact integers (section "Arithmetic" of 00_scope.md). -/

namespace Sys2Proof

/-- One byte of a frame, record or table group (R159). -/
abbrev Byte := BitVec 8

/-- A node address: seven bits, 0 for none, 127 for all nodes (R132, R161). -/
abbrev Node := BitVec 7

/-- A set of zones as its 32-bit mask: bit `z` stands for zone `z` (R159). -/
abbrev ZoneSet := BitVec 32

/-- A sample as the link carries it: 24-bit two's complement (R1, R159). -/
abbrev WireSample := BitVec 24

/-- A zone number 0 to 31 (R25). -/
abbrev ZoneId := Fin 32

/-- An endpoint index 0 to 47 (R33). -/
abbrev EndpointId := Fin 48

/-- A call record index 0 to 15 (R84). -/
abbrev CallId := Fin 16

/-- A call player 0 to 3 (R84). -/
abbrev PlayerId := Fin 4

/-- A gate number 0 or 1 (R103). -/
abbrev GateId := Fin 2

/-- A message id 0 to 63 (R78). -/
abbrev MessageId := Fin 64

/-- The index of a loop or description parameter record, 0 to 7 (R49, R64). -/
abbrev ParamId := Fin 8

end Sys2Proof
end

