-- ==== Sys2Proof/Config.lean ====
section
/-! DEFINITION. What is fixed for the part: capacities the spec names, and the free values, which the spec leaves open.

A free value is an opaque constant: nothing in Lean can evaluate it, so a claim holds whatever it is. -/

namespace Sys2Proof.Config

/-- Samples in one block (R1, section "Terms"). -/
def blockLength : Nat := 48

/-- Places in the message area of a frame (section 8.2). -/
def messagePlaces : Nat := 24

/-- Audio slots of a downstream frame (section 8.2). -/
def slotCount : Nat := 64

/-- Capacity of the command queue (R145). -/
def commandQueueCapacity : Nat := 16

/-- Capacity of the cue queue (R145). -/
def cueQueueCapacity : Nat := 8

/-- Capacity of the reply queue (R141, Table 8-2). -/
def replyQueueCapacity : Nat := 16

/-- Capacity of the event queue (R141, Table 8-2). -/
def eventQueueCapacity : Nat := 32

/-- Words in one page of call memory (R77). -/
def pageWords : Nat := 4096

/-- Words of call memory (R77). -/
def memoryWords : Nat := 4194304

/-- Least time between a POWER directive and its re-issue, in milliseconds (R41). -/
def powerReissueTime : Nat := 100

/-- How long a recovery counts toward escalation, in milliseconds (R121). -/
def escalationTime : Nat := 10000

/-- FREE VALUE (log 20). Table 11-6 gives a LIVE call's status a "number of ids" byte, and no rule states its value. -/
opaque liveIdCount : Byte

/-- FREE VALUE (log 20). Table 11-6 gives a LIVE call's status a "repeat count" byte, and no rule states its value. -/
opaque liveRepeatCount : Byte

/-- FREE VALUE (log 20). The start order that the status of a call shows before its first dispatch: R86 sets no start order. -/
opaque undispatchedStartOrder : BitVec 32

/-- FREE VALUE (log 21). The kind bytes that the zone runtime status shows when no parameter record is bound to the zone: twelve of a
LOOP zone, the first six of a DESC zone. R53 and R74 speak of a bound record only. -/
opaque unboundRuntimeByte : ZoneId → Nat → Byte

end Sys2Proof.Config
end

