-- ==== Sys2Proof/Syntax.lean ====
section
/-! DEFINITION. The commands of the VA-32: one constructor of `Instr` for each row of spec/opcode_table.json, and the wire
data they carry (records and frames).

Three sorts of rows stand side by side. A row of a COMMAND or CUE carries the source node, the request number and the arguments
of its record (Table 11-4, Table 11-7), with every code as the byte the record holds. A row of an event on a pin or on the link
carries what arrives. A row of a timer names the subject whose timer it is. -/

namespace Sys2Proof

/-- A 16-byte message record (Table 11-3). `payload` is bytes 4 to 15. -/
structure Record where
  dest : Byte
  src : Byte
  kind : Byte
  code : Byte
  payload : List Byte
  deriving DecidableEq, Repr

/-- The header of a frame (Table 11-2). `reserved` is bytes 4 to 7. -/
structure Header where
  number : BitVec 16
  timingSource : Byte
  flags : Byte
  reserved : BitVec 32
  deriving DecidableEq, Repr

/-- A downstream frame without its CRC: header, 64 slot blocks of 48 samples, 24 records (Table 11-2). The CRC is a function of the
bytes before it and is added by `Machine.downBytes` (R160). -/
structure DownFrame where
  header : Header
  slots : List (List WireSample)
  records : List Record
  deriving DecidableEq, Repr

/-- A return frame without its CRC: header and 24 records (Table 11-2). -/
structure RetFrame where
  header : Header
  records : List Record
  deriving DecidableEq, Repr

/-- The blocks that take the millisecond event, and the built return frame of R137. R133: the blocks "take the event in no order
among themselves", so a row that begins a downstream frame carries the order they took it in (log 4). -/
inductive MsTask where
  | presence      -- R37
  | idle          -- R40
  | windows       -- R109
  | escalation    -- R121
  | retry         -- R123
  | boundary      -- R90
  | returnFrame   -- R137
  deriving DecidableEq, Repr

/-- The arguments of a TABLE_WRITE beside its table: the group of the code byte, the second-part mark and index of byte 5, and the
ten group bytes 6 to 15 (Table 11-4). -/
structure TableWrite where
  group : BitVec 2
  second : Bool
  index : BitVec 7
  data : List Byte
  deriving DecidableEq, Repr

/-- The source fields of a CALL_START cue: the source code of byte 6, the counts of byte 11 and bytes 12 to 15 (Table 11-7). -/
structure CallSource where
  code : BitVec 2
  idCount : BitVec 3
  repeatCount : BitVec 3
  args : List Byte
  deriving DecidableEq, Repr

/-- The two events at which a pending soft reset takes effect (R157). -/
inductive ResetEvent where
  | frame (f : DownFrame) (order : List MsTask)
  | localTiming
  deriving DecidableEq, Repr

/-- A fault record, named by its subject and kind (R115): kinds 1 to 6 of an endpoint, kinds 7 and 8 held with a loop parameter
record, kinds 9 to 11 of the part. The second index is the kind less the first kind of that sort. -/
inductive FaultRef where
  | endpoint (e : EndpointId) (k : Fin 6)
  | loop (l : ParamId) (k : Fin 2)
  | device (k : Fin 3)
  deriving DecidableEq, Repr

/-- The commands of the block, one constructor for each row of spec/opcode_table.json. `src` is the source node of a COMMAND or CUE
record and `req` its request number. -/
inductive Instr where
  -- resets
  | powerOnReset (straps : BitVec 7)
  | softReset (src : Node) (req : Byte)
  | softResetEffect (at_ : ResetEvent)
  -- the venue link
  | downstreamFrameArrival (f : DownFrame) (order : List MsTask)
  | badFrame (order : List MsTask)
  | portASilence (order : List MsTask)
  | localTimingFrame (order : List MsTask)
  | returnFrameArrival (f : RetFrame)
  | badReturnFrame
  | portBSilence
  -- timers
  | endpointLost (e : EndpointId)
  | idleDeadlineExpiry (z : ZoneId)
  | wakeDeadlineExpiry (c : CallId)
  | tailEnd (c : CallId)
  | pendingExpiry (c : CallId)
  | liveMaximum (c : CallId)
  | windowExpiry (g : GateId)
  | escalationReset (f : FaultRef)
  | retryExpiry (f : FaultRef)
  -- management commands
  | commit (src : Node) (req : Byte)
  | reconfigure (src : Node) (req : Byte)
  | statusRead (src : Node) (req cls index kind part : Byte)
  | clearFaults (src : Node) (req selector index : Byte) (mask : BitVec 16)
  | test (src : Node) (req mode : Byte) (level : BitVec 16) (mask : ZoneSet)
  | suspend (src : Node) (req zone setting : Byte)
  | swap (src : Node) (req zone : Byte)
  | gateForce (src : Node) (req gate action : Byte)
  -- message commands
  | msgOpen (src : Node) (req id : Byte) (startPage : BitVec 16) (length : BitVec 32)
  | msgData (src : Node) (id : BitVec 6) (words : List (BitVec 16))
  | msgClose (src : Node) (req id : Byte)
  | msgDelete (src : Node) (req id : Byte)
  | msgRead (src : Node) (req : Byte) (id : BitVec 6) (offset : BitVec 24)
  -- tables
  | tableRead (src : Node) (req table index group part : Byte)
  | tableWriteFirstPart (src : Node) (req : Byte) (table : BitVec 4) (w : TableWrite)
  | routeWrite (src : Node) (req : Byte) (w : TableWrite)
  | slotmapWrite (src : Node) (req : Byte) (w : TableWrite)
  | zoneWrite (src : Node) (req : Byte) (w : TableWrite)
  | loopWrite (src : Node) (req : Byte) (w : TableWrite)
  | descWrite (src : Node) (req : Byte) (w : TableWrite)
  | endpointWrite (src : Node) (req : Byte) (w : TableWrite)
  | gateWrite (src : Node) (req : Byte) (w : TableWrite)
  | policyWrite (src : Node) (req : Byte) (w : TableWrite)
  | configWrite (src : Node) (req : Byte) (w : TableWrite)
  -- cues
  | callStart (src : Node) (req tag : Byte) (priority : BitVec 3) (retain : Bool) (target : ZoneSet) (source : CallSource)
  | callEnd (src : Node) (req tag : Byte)
  | callCancel (src : Node) (req tag : Byte)
  | marker (src : Node) (code : Byte)
  -- codes that name nothing
  | unknownCommandCode (src : Node) (req code : Byte)
  | unknownCueCode (src : Node) (req code : Byte)
  deriving DecidableEq, Repr

end Sys2Proof
end

