-- ==== Sys2Proof/WellFormed.lean ====
section
/-! DEFINITION. Which terms of `Instr` stand for a command that can reach the part: lists have the lengths the layouts give, sources
can be answered, and each row holds only what its row of the table means. -/

namespace Sys2Proof

/-- A record has 12 payload bytes (Table 11-3). -/
def Record.wf (r : Record) : Bool := r.payload.length == 12

/-- A message area has 24 records (section 8.2). -/
def recordsWf (rs : List Record) : Bool := rs.length == Config.messagePlaces && rs.all Record.wf

/-- A downstream frame has 64 slots of 48 samples and a message area (Table 11-2). -/
def DownFrame.wf (f : DownFrame) : Bool :=
  f.slots.length == Config.slotCount && f.slots.all (fun b => b.length == Config.blockLength) && recordsWf f.records

/-- A return frame has a message area (Table 11-2). -/
def RetFrame.wf (f : RetFrame) : Bool := recordsWf f.records

/-- An order of the millisecond tasks names each of the seven once (log 4). -/
def orderWf (order : List MsTask) : Bool := order.length == 7 && decide order.Nodup

/-- A source that can be answered: not 0 and not 127 (R138). -/
def sourceWf (src : Node) : Bool := src != 0 && src != 127

/-- A TABLE_WRITE carries ten group bytes (Table 11-4). -/
def TableWrite.wf (w : TableWrite) : Bool := w.data.length == 10

/-- A write of a long group that is not its first part carries the second-part mark (R162). -/
def TableWrite.secondWf (w : TableWrite) : Bool := w.wf && (w.group != 0 || w.second)

/-- A first part: the LOOP level or CONFIG timing group without the second-part mark, or a table number that names no table (R162). -/
def firstPartWf (table : BitVec 4) (w : TableWrite) : Bool :=
  w.wf && (decide (9 ≤ table.toNat) || ((table == 3 || table == 8) && w.group == 0 && !w.second))

/-- The codes that name a command (Table 11-4). -/
def commandCodes : List Byte := [0x01, 0x02, 0x03, 0x04, 0x05, 0x06, 0x07, 0x08, 0x09, 0x0A, 0x0C, 0x0D, 0x0F]

/-- The codes that name a cue (Table 11-7). -/
def cueCodes : List Byte := [0x20, 0x21, 0x22, 0x23]

/-- Whether a command term stands for a command that can reach the part. -/
def Instr.wf : Instr → Bool
  | .powerOnReset _ => true
  | .softReset src _ => sourceWf src
  | .softResetEffect (.frame f order) => f.wf && orderWf order
  | .softResetEffect .localTiming => true
  | .downstreamFrameArrival f order => f.wf && orderWf order
  | .badFrame order => orderWf order
  | .portASilence order => orderWf order
  | .localTimingFrame order => orderWf order
  | .returnFrameArrival f => f.wf
  | .badReturnFrame => true
  | .portBSilence => true
  | .endpointLost _ => true
  | .idleDeadlineExpiry _ => true
  | .wakeDeadlineExpiry _ => true
  | .tailEnd _ => true
  | .pendingExpiry _ => true
  | .liveMaximum _ => true
  | .windowExpiry _ => true
  | .escalationReset _ => true
  | .retryExpiry _ => true
  | .commit src _ => sourceWf src
  | .reconfigure src _ => sourceWf src
  | .statusRead src _ _ _ _ _ => sourceWf src
  | .clearFaults src _ _ _ _ => sourceWf src
  | .test src _ _ _ _ => sourceWf src
  | .suspend src _ _ _ => sourceWf src
  | .swap src _ _ => sourceWf src
  | .gateForce src _ _ _ => sourceWf src
  | .msgOpen src _ _ _ _ => sourceWf src
  | .msgData src _ words => sourceWf src && words.length == 6
  | .msgClose src _ _ => sourceWf src
  | .msgDelete src _ _ => sourceWf src
  | .msgRead src _ _ _ => sourceWf src
  | .tableRead src _ _ _ _ _ => sourceWf src
  | .tableWriteFirstPart src _ table w => sourceWf src && firstPartWf table w
  | .routeWrite src _ w => sourceWf src && w.wf
  | .slotmapWrite src _ w => sourceWf src && w.wf
  | .zoneWrite src _ w => sourceWf src && w.wf
  | .loopWrite src _ w => sourceWf src && w.secondWf
  | .descWrite src _ w => sourceWf src && w.wf
  | .endpointWrite src _ w => sourceWf src && w.wf
  | .gateWrite src _ w => sourceWf src && w.wf
  | .policyWrite src _ w => sourceWf src && w.wf
  | .configWrite src _ w => sourceWf src && w.secondWf
  | .callStart src _ _ _ _ _ source => sourceWf src && source.args.length == 4
  | .callEnd src _ _ => sourceWf src
  | .callCancel src _ _ => sourceWf src
  | .marker src _ => sourceWf src
  | .unknownCommandCode src _ code => sourceWf src && decide (code.toNat < 0x40) && !commandCodes.contains code
  | .unknownCueCode src _ code => sourceWf src && !cueCodes.contains code

end Sys2Proof
end

