-- ==== Sys2Proof/Machine/State.lean ====
section
/-! DEFINITION. The state of the VA-32 as plain data, block by block (Figure 1-2), with the value of every item after reset.

A table of a fixed number of like records is a `Vector`. The claiming call of a zone is not stored: R101 makes the call table
its single source, and `Machine.claimant` computes it. -/

namespace Sys2Proof.Machine

/-! ## Reasons to stop -/

/-- Why the part could stop. NO RULE OF THE SPEC STOPS THE PART: a bad frame is discarded, a bad command is answered with a status
code. The type has no constructor, and no command raises a fault. -/
inductive Fault where
  deriving DecidableEq, Repr

/-- Why the model could refuse a command. -/
inductive Refusal where
  /-- A command whose meaning is not written yet. Raised by an arm of `exec` only; every arm has its meaning, so nothing raises it.
  It would be safe: a refused command proves nothing. -/
  | notModelled (mnemonic : String)
  deriving DecidableEq, Repr

/-! ## Enumerations (Table 11-1) -/

/-- Kinds of zone (R26). -/
inductive ZoneKind where | loop | desc | foyer | lounge
  deriving DecidableEq, Repr

/-- Roles of an endpoint (Table 2-3). -/
inductive Role where | loopAmp | foyerAmp | descTx | loungeUnit | usherLight
  deriving DecidableEq, Repr

/-- Power states of an endpoint (section 2.6). -/
inductive Power where | active | standby | suspended | off
  deriving DecidableEq, Repr

/-- Test modes of a zone (R22). -/
inductive TestMode where | none | silence | tone | noise
  deriving DecidableEq, Repr

/-- Idle policies of a zone (Table 2-1). -/
inductive IdlePolicy where | alwaysOn | callsOnly
  deriving DecidableEq, Repr

/-- Presence of an endpoint (R36). -/
inductive Presence where | absent | debouncing | present
  deriving DecidableEq, Repr

/-- Protection of a zone (R125). -/
inductive Protection where | normal | reduced | muted
  deriving DecidableEq, Repr

/-- Sides of a zone (R45). -/
inductive Side where | primary | standby
  deriving DecidableEq, Repr

/-- States of a call record (Figure 5-2). -/
inductive CallState where | free | pending | waking | playing | tail
  deriving DecidableEq, Repr

/-- Outcomes of a call (R100). -/
inductive CallOutcome where
  | delivered | partialDelivery | notDelivered | cancelled | expired | preempted | sourceLost
  deriving DecidableEq, Repr

/-- States of a gate (R107). -/
inductive GateState where | closed | open_ | barred
  deriving DecidableEq, Repr

/-- States of a fault record (Table 7-3). -/
inductive FaultState where | clear | counting | latched | retryWait | reported
  deriving DecidableEq, Repr

/-- Modes of a policy entry (R116). -/
inductive PolicyMode where | latched | retry | report | disabled
  deriving DecidableEq, Repr

/-- Actions of a policy entry (R116). -/
inductive PolicyAction where | mute | reduce | swap
  deriving DecidableEq, Repr

/-- States of a port (R135, R137). -/
inductive PortState where | unlocked | locked | lost
  deriving DecidableEq, Repr

/-- The service state (R153). -/
inductive Service where | configuration | service
  deriving DecidableEq, Repr

/-- The hold state of flow control (R146). -/
inductive HoldState where | running | held
  deriving DecidableEq, Repr

/-- What the hold and resume flag of the link unit may hold beside none (R140). -/
inductive HoldMark where | hold | resume
  deriving DecidableEq, Repr

/-- Codes of a directive (Table 2-6). -/
inductive DirectiveCode where | power | listen | channel | light
  deriving DecidableEq, Repr

/-! ## Link unit -/

/-- A waiting directive (R142): its endpoint index and code, and the node address and payload byte it was issued with. -/
structure Directive where
  endpoint : EndpointId
  code : DirectiveCode
  dest : Node
  value : Byte
  deriving DecidableEq, Repr

/-! ## Command unit -/

/-- The staged first part of a long group (R162). -/
structure Staged where
  src : Node
  table : BitVec 4
  group : BitVec 2
  index : BitVec 7
  data : List Byte
  deriving DecidableEq, Repr

/-- The CONFIG table (Table 9-2) at its values when reset. Times are in the units of the table. -/
structure ConfigTable where
  debounce : Nat := 100
  lost : Nat := 50
  wakeTimeout : Nat := 400
  tailTime : Nat := 500
  liveMax : Nat := 60
  pendingMax : Nat := 30
  eventNode : Node := 0
  managers : Vector Node 4 := Vector.replicate 4 0
  cueSources : Vector Node 4 := Vector.replicate 4 0
  flowEnabled : Bool := true
  holdLevel : Nat := 12
  resumeLevel : Nat := 4
  deriving DecidableEq, Repr

/-! ## Mix engine -/

/-- A route entry (Table 1-6, R8). -/
structure Route where
  inUse : Bool := false
  slot : Fin 64 := 0
  bus : Fin 32 := 0
  gain : Nat := 0
  deriving DecidableEq, Repr

/-- A slot-map entry (R143). -/
inductive SlotEntry where
  | pass
  | silence
  | zone (z : ZoneId)
  deriving DecidableEq, Repr

/-! ## Zone manager -/

/-- A zone record at its values when reset (Table 2-1, Table 1-8, R14, R20). `fresh` says that the runtime gains were set and the
zone has formed no block since, so that its next block takes no slew step (R14). -/
structure Zone where
  enabled : Bool := false
  kind : ZoneKind := .foyer
  bus : Fin 32 := 0
  primary : Option EndpointId := none
  standby : Option EndpointId := none
  idlePolicy : IdlePolicy := .alwaysOn
  idleTime : Nat := 120
  trim : Nat := 16384
  callLevel : Nat := 16384
  callDuck : Nat := 2048
  duckStep : Nat := 1024
  reduceGain : Nat := 4096
  testMode : TestMode := .none
  testLevel : Nat := 8192
  suspended : Bool := false
  side : Side := .primary
  idleDeadline : Option Nat := none
  protection : Protection := .normal
  duckGain : Nat := 16384
  voiceGain : Nat := 16384
  outputGain : Nat := 16384
  fresh : Bool := false
  peak : Nat := 0
  clip : Bool := false
  deriving DecidableEq, Repr

/-! ## Endpoint manager -/

/-- An endpoint record at its values when reset (Table 2-3). `place` is the zone, or for an usher light the gate. -/
structure Endpoint where
  inUse : Bool := false
  node : Node := 0
  role : Role := .foyerAmp
  place : Fin 32 := 0
  presence : Presence := .absent
  reported : Power := .off
  commanded : Power := .off
  debounceStart : Option Nat := none
  lastTelemetry : Option Nat := none
  lastPower : Option Nat := none
  current : Option Nat := none
  thermal : Bool := false
  supplyLow : Bool := false
  deriving DecidableEq, Repr

/-! ## Loop processor -/

/-- A loop parameter record with its runtime state, at the values when reset (Table 3-1, Table 3-2). -/
structure LoopRecord where
  zone : Option ZoneId := none
  target : Nat := 4194304
  window : Nat := 1048576
  attack : Nat := 256
  release : Nat := 16
  agcMin : Nat := 4096
  agcMax : Nat := 32768
  currentLimit : Nat := 6000
  limitStep : Nat := 512
  overcurrent : Nat := 9000
  openCurrent : Nat := 150
  openSignal : Nat := 262144
  openTime : Nat := 500
  agc : Nat := 16384
  limited : Bool := false
  saturated : Bool := false
  candidate : Option Nat := none
  accumulator : Nat := 0
  deriving DecidableEq, Repr

/-! ## Description unit -/

/-- A description parameter record with its VOX state, at the values when reset (Table 4-1, Table 4-2). -/
structure DescRecord where
  zone : Option ZoneId := none
  voiceSlot : Fin 64 := 0
  voiceGain : Nat := 16384
  voxDepth : Nat := 5461
  onThreshold : Nat := 524288
  offThreshold : Nat := 262144
  holdTime : Nat := 800
  channel : Nat := 1
  voxActive : Bool := false
  holdRemaining : Nat := 0
  deriving DecidableEq, Repr

/-! ## Call unit -/

/-- Call memory as (byte address, byte) pairs: word `w` is the bytes `2 w` (most significant) and `2 w + 1` (R77, log 12).
Addresses rise strictly and no listed byte is 0, which is what an unlisted byte reads as. -/
abbrev Memory := List Host.Cell

/-- A message directory entry (R78, Table 5-1). -/
inductive Message where
  | free
  | loading (start length pointer : Nat)
  | valid (start length : Nat)
  deriving DecidableEq, Repr

/-- Who asked for a call (Table 5-2). -/
inductive Origin where
  | external (requester : Node)
  | gate (g : GateId)
  deriving DecidableEq, Repr

/-- What a call's player plays (Table 5-2). -/
inductive Source where
  | stored (ids : List MessageId) (repeats : Nat)
  | live (slot : Fin 64) (pre : Option MessageId)
  deriving DecidableEq, Repr

/-- A call record (Table 5-2). The defaults are what a FREE record holds; R84 gives them no meaning. `liveBegun` says that the live
part of a LIVE call has begun (R95, R96). `startOrder` is none before the first dispatch. -/
structure Call where
  state : CallState := .free
  origin : Origin := .external 0
  tag : Byte := 0
  priority : Nat := 0
  target : ZoneSet := 0
  delivered : ZoneSet := 0
  missed : ZoneSet := 0
  source : Source := .stored [] 1
  retain : Bool := false
  requeue : Nat := 0
  arrival : BitVec 32 := 0
  startOrder : Option (BitVec 32) := none
  player : Option PlayerId := none
  plays : Nat := 0
  position : Nat := 0
  offset : Nat := 0
  pendingSince : Nat := 0
  liveElapsed : Nat := 0
  tailRemaining : Nat := 0
  wake : Vector (Option Nat) 32 := Vector.replicate 32 none
  outcome : Option CallOutcome := none
  liveBegun : Bool := false
  deriving DecidableEq, Repr

/-! ## Admission unit -/

/-- A gate record at its values when reset (Table 6-1). -/
structure Gate where
  open1 : Byte := 0
  open2 : Byte := 0
  close1 : Byte := 0
  close2 : Byte := 0
  bar : Byte := 0
  unbar : Byte := 0
  anyOpens : Bool := false
  windowTime : Nat := 90
  reopenGuard : Nat := 30
  sequence : List MessageId := []
  priority : Nat := 4
  mask : ZoneSet := 0
  state : GateState := .closed
  windowDeadline : Option Nat := none
  lastClose : Option Nat := none
  admissionCall : Option CallId := none
  deriving DecidableEq, Repr

/-! ## Fault supervisor -/

/-- A policy entry (R116). The retry time is in units of 100 ms. -/
structure Policy where
  mode : PolicyMode
  action : PolicyAction
  retryTime : Nat
  deglitch : Nat
  deriving DecidableEq, Repr

/-- The mode, action and retry time copied into a record at its raise (R118). -/
structure InForce where
  mode : PolicyMode
  action : PolicyAction
  retryTime : Nat
  deriving DecidableEq, Repr

/-- A fault record at its values when reset (Table 7-3). -/
structure FaultRecord where
  state : FaultState := .clear
  deglitch : Nat := 0
  lastPresent : Bool := false
  sticky : Bool := false
  inForce : Option InForce := none
  retryRemaining : Option Nat := none
  escalation : Nat := 0
  lastRecovery : Option Nat := none
  deriving DecidableEq, Repr

/-- The 307 fault records: six for each endpoint, two held with each loop parameter record, three of the part (R115). -/
structure FaultTable where
  endpoint : Vector (Vector FaultRecord 6) 48 := Vector.replicate 48 (Vector.replicate 6 {})
  loop : Vector (Vector FaultRecord 2) 8 := Vector.replicate 8 (Vector.replicate 2 {})
  device : Vector FaultRecord 3 := Vector.replicate 3 {}
  deriving DecidableEq, Repr

/-- Table 7-2: the policy table when reset; entry `k` is kind `k + 1`. -/
def resetPolicy : Vector Policy 11 := #v[
  ⟨.retry, .swap, 10, 1⟩,
  ⟨.report, .mute, 10, 1⟩,
  ⟨.retry, .mute, 20, 3⟩,
  ⟨.report, .mute, 10, 1⟩,
  ⟨.retry, .reduce, 50, 1⟩,
  ⟨.report, .mute, 10, 2⟩,
  ⟨.disabled, .mute, 10, 1⟩,
  ⟨.report, .mute, 10, 1⟩,
  ⟨.report, .mute, 10, 1⟩,
  ⟨.report, .mute, 10, 1⟩,
  ⟨.report, .mute, 10, 1⟩]

/-! ## The part -/

/-- The whole state, each field at its value when reset. Fields marked MODEL are the model's own. -/
structure State where
  -- link unit (Chapter 8)
  /-- The part's node address (R132). After power-on it is the strap value; the default is what straps of 0 give (log 1). -/
  node : Node := 126
  /-- The millisecond count (R133). -/
  now : Nat := 0
  frameCounter : BitVec 16 := 0
  portA : PortState := .unlocked
  portB : PortState := .unlocked
  replies : List Record := []
  events : List Record := []
  directives : List Directive := []
  holdFlag : Option HoldMark := none
  /-- MODEL: the latest return frame sent on port A, as the ATX pair showed it (log 36). -/
  txA : Option RetFrame := none
  /-- MODEL: the latest downstream frame sent on port B, as the BTX pair showed it (log 36). -/
  txB : Option DownFrame := none
  -- command unit (Chapter 9)
  cmdQueue : List Instr := []
  cueQueue : List Instr := []
  /-- A record was discarded at a full queue and none has joined since (R145, log 14). -/
  overrun : Bool := false
  service : Service := .configuration
  hold : HoldState := .running
  softResetFlag : Bool := false
  staged : Option Staged := none
  config : ConfigTable := {}
  -- mix engine (Chapter 1)
  routes : Vector Route 128 := Vector.replicate 128 {}
  slotMap : Vector SlotEntry 64 := Vector.replicate 64 .pass
  ingressPeaks : Vector Nat 64 := Vector.replicate 64 0
  busPeaks : Vector Nat 32 := Vector.replicate 32 0
  busClips : Vector Bool 32 := Vector.replicate 32 false
  noise : BitVec 23 := 1
  -- zone and endpoint manager (Chapter 2)
  zones : Vector Zone 32 := Vector.replicate 32 {}
  endpoints : Vector Endpoint 48 := Vector.replicate 48 {}
  -- loop processor and description unit (Chapters 3 and 4)
  loops : Vector LoopRecord 8 := Vector.replicate 8 {}
  descs : Vector DescRecord 8 := Vector.replicate 8 {}
  -- call unit (Chapter 5)
  mem : Memory := []
  messages : Vector Message 64 := Vector.replicate 64 .free
  calls : Vector Call 16 := Vector.replicate 16 {}
  arrivalCounter : BitVec 32 := 0
  startCounter : BitVec 32 := 0
  -- admission unit (Chapter 6)
  gates : Vector Gate 2 := Vector.replicate 2 {}
  -- fault supervisor (Chapter 7)
  policy : Vector Policy 11 := resetPolicy
  faults : FaultTable := {}
  /-- The ALERT pin: true while asserted (R127). -/
  alert : Bool := false
  /-- MODEL: the commands that wait, first in, first out. -/
  pending : List Instr := []
  deriving DecidableEq, Repr

/-- The part right after reset (R157, R158, and each block's "when reset"). -/
def State.reset : State := {}

end Sys2Proof.Machine
end

