-- ==== Sys2Proof/Machine/Flags.lean ====
section
/-! DEFINITION. The arithmetic of the part: samples, gains, peaks and clip flags, ramps, the test signals, the circular order of the
call counters, and the clamping of numeric parameters. -/

namespace Sys2Proof.Machine

/-- The saturation of a sample (R1). -/
def sat (v : Int) : Int :=
  if v < -8388608 then -8388608 else if 8388607 < v then 8388607 else v

/-- Whether `sat` changes a value (R1). -/
def saturates (v : Int) : Bool := sat v != v

/-- The rounding operation `r` (R3): `floor((v + 8192) / 16384)`. -/
def rnd (v : Int) : Int := (v + 8192) / 16384

/-- The composite gain of two gains (R4). -/
def comp (a b : Nat) : Nat := min 65535 ((a * b + 8192) / 16384)

/-- A word of call memory as a sample (R1). -/
def wordSample (w : BitVec 16) : Int := w.toInt * 256

/-- One slew step of a runtime gain from `g0` toward `t` by at most `s` (R12). -/
def slew (g0 t s : Nat) : Nat :=
  if g0 < t then min t (g0 + s) else if t < g0 then max t (g0 - s) else g0

/-- The gain used by sample `n` of a block that moves a gain from `g0` to `g1` (R13). -/
def ramp (g0 g1 n : Nat) : Int :=
  (g0 : Int) + Int.tdiv (((g1 : Int) - g0) * (n + 1)) 48

/-- The largest magnitude of the samples of a block (R7, R11, R20). -/
def blockPeak (block : List Int) : Nat :=
  block.foldl (fun m x => max m x.natAbs) 0

/-- A block of 48 zero samples. -/
def zeroBlock : List Int := List.replicate Config.blockLength 0

/-- The exact samples of a slot block as the link carried it; a sample that is not there is 0. -/
def slotSamples (b : List WireSample) : List Int :=
  (List.range Config.blockLength).map fun n => (b.getD n 0).toInt

/-- A block of samples as the link carries it (R1). -/
def wireBlock (b : List Int) : List WireSample :=
  (List.range Config.blockLength).map fun n => BitVec.ofInt 24 (b.getD n 0)

/-- The amplitude of TONE at a test level (R22). -/
def toneAmplitude (level : Nat) : Int := sat (rnd (4194304 * level))

/-- Sample `n` of TONE (R22). -/
def toneSample (level n : Nat) : Int :=
  if n < 24 then toneAmplitude level else - toneAmplitude level

/-- One step of the noise register (R23). -/
def noiseStep (x : BitVec 23) : BitVec 23 :=
  (x <<< 1) ||| (BitVec.ofBool (x.getLsbD 22 ^^ x.getLsbD 17)).setWidth 23

/-- The register values after each of `n` steps, first step first (R23). -/
def noiseRun : Nat → BitVec 23 → List (BitVec 23)
  | 0, _ => []
  | n + 1, x => noiseStep x :: noiseRun n (noiseStep x)

/-- The NOISE sample of a register value at a test level (R23). -/
def noiseSample (level : Nat) (x : BitVec 23) : Int :=
  sat (rnd (((x.toNat : Int) - 4194304) * level))

/-- A numeric parameter clamped to the nearer limit (R149). -/
def clampTo (lo hi v : Nat) : Nat := max lo (min hi v)

/-- Whether clamping changes a value. -/
def clamps (lo hi v : Nat) : Bool := clampTo lo hi v != v

/-- Of two counter values, `a` is the earlier when `b - a` modulo 2^32 lies within 1 to 2^31 - 1 (R85). -/
def earlier (a b : BitVec 32) : Bool :=
  decide (1 ≤ (b - a).toNat) && decide ((b - a).toNat ≤ 2147483647)

/-- A number as `n` bytes can show it: the largest value where it does not fit (text below Table 11-6). -/
def capBytes (n v : Nat) : Nat := min v (256 ^ n - 1)

end Sys2Proof.Machine
end

