-- ==== Sys2Proof/Machine/Operands.lean ====
section
/-! DEFINITION. The operand forms of commands and records: fields of several bytes, flags, masks, the codes of Table 11-1 in both
directions, table and group numbers, and the field lists of the table groups (sections 11.1, 11.4 and 11.5). -/

namespace Sys2Proof.Machine

/-! ## Fields of bytes (section 11.1) -/

/-- Byte `i` of a payload; a byte that is not there is 0 (R161). -/
def byteAt (l : List Byte) (i : Nat) : Byte := l.getD i 0

/-- Two bytes from `i`, most significant first. -/
def word16 (l : List Byte) (i : Nat) : BitVec 16 := byteAt l i ++ byteAt l (i + 1)

/-- Three bytes from `i`, most significant first. -/
def word24 (l : List Byte) (i : Nat) : BitVec 24 := word16 l i ++ byteAt l (i + 2)

/-- Four bytes from `i`, most significant first. -/
def word32 (l : List Byte) (i : Nat) : BitVec 32 := word16 l i ++ word16 l (i + 2)

/-- The low `n` bytes of a number, most significant first. -/
def bigEndian : Nat → Nat → List Byte
  | 0, _ => []
  | n + 1, v => BitVec.ofNat 8 (v / 256 ^ n) :: bigEndian n v

/-- A list of bytes cut or filled with zeros to length `n`. -/
def padTo (n : Nat) (l : List Byte) : List Byte := (List.range n).map fun i => byteAt l i

/-- A flag byte: 01H yes, 00H no, anything else names nothing (R161). -/
def flagOf (b : Byte) : Option Bool :=
  if b = 1 then some true else if b = 0 then some false else none

/-- A flag as its byte. -/
def flagByte (b : Bool) : Byte := if b then 1 else 0

/-- An index below `n`, or nothing (R149). -/
def indexOf (n v : Nat) : Option (Fin n) := if h : v < n then some ⟨v, h⟩ else none

/-- An endpoint field: FFH is none, a value outside 0 to 47 is an error (R27). -/
def endpointField (b : Byte) : Option (Option EndpointId) :=
  if b = 0xFF then some none else (indexOf 48 b.toNat).map some

/-- A one-byte index field that may be none (section 11.1). -/
def optIndexByte {n : Nat} (o : Option (Fin n)) : Byte :=
  match o with
  | some i => BitVec.ofNat 8 i.val
  | none => 0xFF

/-- A time field of `n` bytes: the largest value where the time does not fit, all ones for none (section 11.1, Table 11-6). -/
def timeBytes (n : Nat) (t : Option Nat) : List Byte :=
  match t with
  | some v => bigEndian n (capBytes n v)
  | none => bigEndian n (256 ^ n - 1)

/-- The zones of a mask in ascending zone number. -/
def zonesOf (m : ZoneSet) : List ZoneId := (List.finRange 32).filter fun z => m.getLsbD z

/-- The mask that holds one zone. -/
def zoneBit (z : ZoneId) : ZoneSet := BitVec.twoPow 32 z.val

/-- The mask of the zones that satisfy a test. -/
def maskOf (p : ZoneId → Bool) : ZoneSet :=
  (List.finRange 32).foldl (fun m z => if p z then m ||| zoneBit z else m) 0

/-! ## Codes (Table 11-1 and the text below it) -/

def kindCode : ZoneKind → Byte
  | .loop => 0 | .desc => 1 | .foyer => 2 | .lounge => 3

def kindOf (b : Byte) : Option ZoneKind :=
  if b = 0 then some .loop else if b = 1 then some .desc
  else if b = 2 then some .foyer else if b = 3 then some .lounge else none

def roleCode : Role → Byte
  | .loopAmp => 0 | .foyerAmp => 1 | .descTx => 2 | .loungeUnit => 3 | .usherLight => 4

def roleOf (b : Byte) : Option Role :=
  if b = 0 then some .loopAmp else if b = 1 then some .foyerAmp else if b = 2 then some .descTx
  else if b = 3 then some .loungeUnit else if b = 4 then some .usherLight else none

def powerCode : Power → Byte
  | .active => 0 | .standby => 1 | .suspended => 2 | .off => 3

def powerOf (b : Byte) : Option Power :=
  if b = 0 then some .active else if b = 1 then some .standby
  else if b = 2 then some .suspended else if b = 3 then some .off else none

def testModeCode : TestMode → Byte
  | .none => 0 | .silence => 1 | .tone => 2 | .noise => 3

def testModeOf (b : Byte) : Option TestMode :=
  if b = 0 then some .none else if b = 1 then some .silence
  else if b = 2 then some .tone else if b = 3 then some .noise else none

def idlePolicyCode : IdlePolicy → Byte
  | .alwaysOn => 0 | .callsOnly => 1

def idlePolicyOf (b : Byte) : Option IdlePolicy :=
  if b = 0 then some .alwaysOn else if b = 1 then some .callsOnly else none

def presenceCode : Presence → Byte
  | .absent => 0 | .debouncing => 1 | .present => 2

def protectionCode : Protection → Byte
  | .normal => 0 | .reduced => 1 | .muted => 2

def sideCode : Side → Byte
  | .primary => 0 | .standby => 1

def callStateCode : CallState → Byte
  | .free => 0 | .pending => 1 | .waking => 2 | .playing => 3 | .tail => 4

def outcomeCode : CallOutcome → Byte
  | .delivered => 0 | .partialDelivery => 1 | .notDelivered => 2 | .cancelled => 3
  | .expired => 4 | .preempted => 5 | .sourceLost => 6

def gateStateCode : GateState → Byte
  | .closed => 0 | .open_ => 1 | .barred => 2

def faultStateCode : FaultState → Byte
  | .clear => 0 | .counting => 1 | .latched => 2 | .retryWait => 3 | .reported => 4

def policyModeCode : PolicyMode → Byte
  | .latched => 0 | .retry => 1 | .report => 2 | .disabled => 3

def policyModeOf (b : Byte) : Option PolicyMode :=
  if b = 0 then some .latched else if b = 1 then some .retry
  else if b = 2 then some .report else if b = 3 then some .disabled else none

def policyActionCode : PolicyAction → Byte
  | .mute => 0 | .reduce => 1 | .swap => 2

def policyActionOf (b : Byte) : Option PolicyAction :=
  if b = 0 then some .mute else if b = 1 then some .reduce else if b = 2 then some .swap else none

def portStateCode : PortState → Byte
  | .unlocked => 0 | .locked => 1 | .lost => 2

def serviceCode : Service → Byte
  | .configuration => 0 | .service => 1

def holdStateCode : HoldState → Byte
  | .running => 0 | .held => 1

def directiveCodeByte : DirectiveCode → Byte
  | .power => 1 | .listen => 2 | .channel => 3 | .light => 4

/-- The actions of GATE_FORCE (Table 11-4). -/
inductive GateAction where | open_ | close | bar | unbar
  deriving DecidableEq, Repr

def gateActionOf (b : Byte) : Option GateAction :=
  if b = 0 then some .open_ else if b = 1 then some .close
  else if b = 2 then some .bar else if b = 3 then some .unbar else none

/-- The status codes of a reply (Table 9-1). -/
inductive Status where
  | ok | clamped | badTable | badIndex | badValue | limit | duplicate | busy | notPermitted | full | unknown | tooLate
  | wrongState | badConfig | badKind
  deriving DecidableEq, Repr

/-- Status codes are 00H to 0EH in the order of Table 9-1. -/
def statusCode : Status → Byte
  | .ok => 0x00 | .clamped => 0x01 | .badTable => 0x02 | .badIndex => 0x03 | .badValue => 0x04 | .limit => 0x05
  | .duplicate => 0x06 | .busy => 0x07 | .notPermitted => 0x08 | .full => 0x09 | .unknown => 0x0A | .tooLate => 0x0B
  | .wrongState => 0x0C | .badConfig => 0x0D | .badKind => 0x0E

/-! ## Tables and groups (section 11.4, Table 11-5) -/

/-- The tables, numbered 00H to 08H. -/
inductive Table where | route | slotmap | zone | loop | desc | endpoint | gate | policy | config
  deriving DecidableEq, Repr

def tableCode : Table → Nat
  | .route => 0 | .slotmap => 1 | .zone => 2 | .loop => 3 | .desc => 4 | .endpoint => 5 | .gate => 6 | .policy => 7 | .config => 8

def tableOf (n : Nat) : Option Table :=
  match n with
  | 0 => some .route | 1 => some .slotmap | 2 => some .zone | 3 => some .loop | 4 => some .desc
  | 5 => some .endpoint | 6 => some .gate | 7 => some .policy | 8 => some .config
  | _ => none

/-- Whether an index lies in a table's range (R9, R143, R27, R50, R65, R33, R104, R117, R150). -/
def tableIndexOk (t : Table) (i : Nat) : Bool :=
  match t with
  | .route => decide (i < 128)
  | .slotmap => decide (i < 64)
  | .zone => decide (i < 32)
  | .loop => decide (i < 32)
  | .desc => decide (i < 32)
  | .endpoint => decide (i < 48)
  | .gate => decide (i < 2)
  | .policy => decide (1 ≤ i ∧ i ≤ 11)
  | .config => decide (i = 0)

/-- How many groups a table has (Table 11-5). -/
def groupCount : Table → Nat
  | .route => 1 | .slotmap => 1 | .zone => 4 | .loop => 4 | .desc => 4 | .endpoint => 1 | .gate => 3 | .policy => 1 | .config => 4

/-- Whether a group is longer than ten bytes and so is written in two parts (R162). -/
def longGroup (t : Table) (g : Nat) : Bool :=
  decide ((t = .loop ∧ g = 0) ∨ (t = .config ∧ g = 0))

/-- The ids of a message sequence: each of the first `n` bytes that names an id. -/
def idsOf (n : Nat) (l : List Byte) : List (Option MessageId) :=
  (List.range n).map fun i => indexOf 64 (byteAt l i).toNat

end Sys2Proof.Machine
end

