-- ==== Sys2Proof/Machine/CallMemory.lean ====
section
/-! DEFINITION. Call memory (R77): sparse bytes in one canonical form, and the reading and writing of its 16-bit words. -/

namespace Sys2Proof.Machine

/-- What a byte of call memory that no entry lists reads as. R77: after power-on reset the content is undefined; the model reads 0
(DESIGN CHOICE, unsafe, log 12). -/
def memDefault : Byte := 0

/-- Read one byte. -/
def memRead : Memory → Nat → Byte
  | [], _ => memDefault
  | (a, b) :: rest, x => if x = a then b else memRead rest x

/-- Put a byte into the list without regard to the default: addresses stay in rising order. -/
def memInsert (x : Nat) (v : Byte) : Memory → Memory
  | [] => [(x, v)]
  | (a, b) :: rest =>
    if x < a then (x, v) :: (a, b) :: rest
    else if x = a then (a, v) :: rest
    else (a, b) :: memInsert x v rest

/-- Take an address out of the list. -/
def memErase (x : Nat) : Memory → Memory
  | [] => []
  | (a, b) :: rest => if x = a then rest else (a, b) :: memErase x rest

/-- Write one byte. Writing what an unlisted byte reads as removes the entry, so that equal contents are equal lists. -/
def memWrite (m : Memory) (x : Nat) (v : Byte) : Memory :=
  if v = memDefault then memErase x m else memInsert x v m

/-- The canonical form: addresses strictly rising, no entry equal to what an unlisted byte reads as. -/
def memWfFrom : Option Nat → Memory → Bool
  | _, [] => true
  | lo, (a, b) :: rest =>
    (match lo with
      | none => true
      | some l => decide (l < a)) && decide (b ≠ memDefault) && memWfFrom (some a) rest

/-- The canonical form of call memory. -/
def Memory.wf (m : Memory) : Bool := memWfFrom none m

/-- Word `w` of call memory (R77). -/
def memWord (m : Memory) (w : Nat) : BitVec 16 := memRead m (2 * w) ++ memRead m (2 * w + 1)

/-- Write word `w` of call memory (R77, R80). -/
def memWriteWord (m : Memory) (w : Nat) (v : BitVec 16) : Memory :=
  memWrite (memWrite m (2 * w) (v.extractLsb' 8 8)) (2 * w + 1) (v.extractLsb' 0 8)

/-- The pages of a message of length `n`: `ceil(n / 4096)` (R77). -/
def pageCount (n : Nat) : Nat := (n + 4095) / Config.pageWords

/-- The start page of an entry, its length and its write pointer; a VALID entry's pointer is its length (R78). -/
def Message.extent : Message → Option (Nat × Nat × Nat)
  | .free => none
  | .loading start length pointer => some (start, length, pointer)
  | .valid start length => some (start, length, length)

/-- Whether two non-FREE entries would occupy a common page (R78). -/
def pagesOverlap (start1 length1 start2 length2 : Nat) : Bool :=
  decide (start1 < start2 + pageCount length2 ∧ start2 < start1 + pageCount length1)

/-- Word `i` of a message that starts at page `start` (R77). -/
def messageWord (m : Memory) (start i : Nat) : BitVec 16 := memWord m (start * Config.pageWords + i)

end Sys2Proof.Machine
end

