-- ==== Sys2Proof/Machine/Ops.lean ====
section
/-! DEFINITION. The named operations over the registers and queues: table access, the outbound queues, directives, claims and the
two zone conditions, commanded power, the release of a claim. Every other file reads and writes the state through these. -/

namespace Sys2Proof.Machine

/-! ## Table access -/

/-- Apply a function to every entry of a table. -/
def vmap {α β : Type} {n : Nat} (f : α → β) (v : Vector α n) : Vector β n := ⟨(v.toList.map f).toArray, by simp⟩

def State.zone (s : State) (z : ZoneId) : Zone := s.zones[z]

def modZone (z : ZoneId) (f : Zone → Zone) (s : State) : State := { s with zones := s.zones.set z (f s.zones[z]) }

def State.endpoint (s : State) (e : EndpointId) : Endpoint := s.endpoints[e]

def modEndpoint (e : EndpointId) (f : Endpoint → Endpoint) (s : State) : State :=
  { s with endpoints := s.endpoints.set e (f s.endpoints[e]) }

def State.call (s : State) (c : CallId) : Call := s.calls[c]

def modCall (c : CallId) (f : Call → Call) (s : State) : State := { s with calls := s.calls.set c (f s.calls[c]) }

def State.gate (s : State) (g : GateId) : Gate := s.gates[g]

def modGate (g : GateId) (f : Gate → Gate) (s : State) : State := { s with gates := s.gates.set g (f s.gates[g]) }

def modLoop (l : ParamId) (f : LoopRecord → LoopRecord) (s : State) : State := { s with loops := s.loops.set l (f s.loops[l]) }

def modDesc (d : ParamId) (f : DescRecord → DescRecord) (s : State) : State := { s with descs := s.descs.set d (f s.descs[d]) }

/-- Run a state change over a list of subjects, first subject first. -/
def forEach {α : Type} (l : List α) (f : α → State → State) (s : State) : State := l.foldl (fun s a => f a s) s

/-- All zones, ascending. -/
def allZones : List ZoneId := List.finRange 32

/-- All endpoint indexes, ascending. -/
def allEndpoints : List EndpointId := List.finRange 48

/-- All call records, ascending. -/
def allCalls : List CallId := List.finRange 16

/-- The loop parameter record bound to a zone (R49). -/
def State.loopOf (s : State) (z : ZoneId) : Option ParamId := (List.finRange 8).find? fun l => s.loops[l].zone == some z

/-- The description parameter record bound to a zone (R64). -/
def State.descOf (s : State) (z : ZoneId) : Option ParamId := (List.finRange 8).find? fun d => s.descs[d].zone == some z

/-! ## Outbound queues (section 8.6) -/

/-- A record the part builds: its own address is the source, unassigned bytes are 0 (R132, R161). -/
def ownRecord (s : State) (dest : Node) (kind : Byte) (code : Byte) (payload : List Byte) : Record :=
  { dest := dest.setWidth 8, src := s.node.setWidth 8, kind := kind, code := code, payload := padTo 12 payload }

/-- Queue an event for a node. An event to node 0 is not made, and one made at a full queue is lost (R141). -/
def pushEvent (dest : Node) (code : Byte) (payload : List Byte) (s : State) : State :=
  if dest = 0 then s
  else if s.events.length < Config.eventQueueCapacity then
    { s with events := s.events ++ [ownRecord s dest 0x04 code payload] }
  else s

/-- Put a waiting directive's newer value in its place in the queue, or join the tail (R142). -/
def joinDirective (d : Directive) : List Directive → List Directive
  | [] => [d]
  | x :: rest => if x.endpoint = d.endpoint ∧ x.code = d.code then d :: rest else x :: joinDirective d rest

/-- Queue a directive to an endpoint, whatever its presence (R42, R142). -/
def queueDirective (e : EndpointId) (code : DirectiveCode) (value : Byte) (s : State) : State :=
  { s with directives := joinDirective { endpoint := e, code := code, dest := (s.endpoint e).node, value := value } s.directives }

/-- Issue a directive: in SERVICE, to a PRESENT endpoint (R42). -/
def issue (e : EndpointId) (code : DirectiveCode) (value : Byte) (s : State) : State :=
  if s.service = .service ∧ (s.endpoint e).presence = .present then queueDirective e code value s else s

/-- Remove every waiting directive of an endpoint index (R142). -/
def dropDirectives (e : EndpointId) (s : State) : State :=
  { s with directives := s.directives.filter fun d => d.endpoint != e }

/-! ## Zones: active side, claims, deliverable and awake -/

/-- The endpoint named by a zone's active side (R29). -/
def Zone.active (z : Zone) : Option EndpointId :=
  match z.side with
  | .primary => z.primary
  | .standby => z.standby

/-- The endpoint of a zone's other side (R46). -/
def Zone.other (z : Zone) : Option EndpointId :=
  match z.side with
  | .primary => z.standby
  | .standby => z.primary

/-- A call that holds a player and claims its delivered set (R84, R101). -/
def Call.running (c : Call) : Bool :=
  match c.state with
  | .waking => true | .playing => true | .tail => true
  | .free => false | .pending => false

/-- Whether a call claims a zone (R101). -/
def Call.claims (c : Call) (z : ZoneId) : Bool := c.running && c.delivered.getLsbD z

/-- The claiming call of a zone (R101: the call table is its single source). -/
def State.claimant (s : State) (z : ZoneId) : Option CallId := allCalls.find? fun c => (s.call c).claims z

/-- Whether an endpoint is PRESENT and reports ACTIVE or STANDBY (R29). -/
def Endpoint.ready (e : Endpoint) : Bool := e.presence == .present && (e.reported == .active || e.reported == .standby)

/-- Whether an endpoint is PRESENT and reports ACTIVE (R30). -/
def Endpoint.awake (e : Endpoint) : Bool := e.presence == .present && e.reported == .active

/-- Whether a zone is deliverable (R29). -/
def State.deliverable (s : State) (z : ZoneId) : Bool :=
  (s.zone z).enabled && s.service == .service && (s.zone z).testMode == .none && !(s.zone z).suspended &&
  (s.zone z).protection != .muted &&
  match (s.zone z).active with
  | some e => (s.endpoint e).ready
  | none => false

/-- Whether a zone is awake (R30). -/
def State.awake (s : State) (z : ZoneId) : Bool :=
  match (s.zone z).active with
  | some e => (s.endpoint e).awake
  | none => false

/-- The zone an endpoint belongs to: its zone field, where it is in use and no usher light (R34). -/
def State.zoneOfEndpoint (s : State) (e : EndpointId) : Option ZoneId :=
  if (s.endpoint e).inUse ∧ (s.endpoint e).role ≠ .usherLight then some (s.endpoint e).place else none

/-! ## Commanded power (section 2.6) -/

/-- Table 2-5: the commanded power state of an in-use endpoint; OFF in CONFIGURATION (R39). -/
def State.commandedPower (s : State) (e : EndpointId) : Power :=
  if s.service = .configuration then .off
  else if (s.endpoint e).role = .usherLight then .active
  else
    let z := s.zone (s.endpoint e).place
    if !z.enabled then .off
    else if z.active ≠ some e then .standby
    else if z.suspended then .suspended
    else if z.testMode ≠ .none then .active
    else if z.idlePolicy = .alwaysOn then .active
    else if (s.claimant (s.endpoint e).place).isSome then .active
    else match z.idleDeadline with
      | some d => if s.now < d then .active else .standby
      | none => .standby

/-- Issue POWER with the commanded state and note the time (R41). -/
def issuePower (e : EndpointId) (s : State) : State :=
  if s.service = .service ∧ (s.endpoint e).presence = .present then
    modEndpoint e (fun r => { r with lastPower := some s.now })
      (queueDirective e .power (powerCode (s.endpoint e).commanded) s)
  else s

/-- Work an endpoint's commanded state out anew; a change issues POWER where the endpoint is PRESENT (R39, R41). -/
def recommand (e : EndpointId) (s : State) : State :=
  if (s.endpoint e).inUse ∧ s.commandedPower e ≠ (s.endpoint e).commanded then
    issuePower e (modEndpoint e (fun r => { r with commanded := s.commandedPower e }) s)
  else s

/-- A state change for an endpoint that may be none. -/
def whenSome {α : Type} (o : Option α) (f : α → State → State) (s : State) : State :=
  match o with
  | some a => f a s
  | none => s

/-- Work the commanded states of a zone's endpoints out anew, primary first (R39; the order is the model's, log 9). -/
def recommandZone (z : ZoneId) (s : State) : State :=
  whenSome (s.zone z).standby recommand (whenSome (s.zone z).primary recommand s)

/-- What the release of a zone's claim does: a CALLS_ONLY zone's idle deadline is set (R40), and the commanded states follow. -/
def afterRelease (z : ZoneId) (s : State) : State :=
  recommandZone z (modZone z (fun r =>
    match r.idlePolicy with
    | .callsOnly => { r with idleDeadline := some (s.now + r.idleTime * 1000) }
    | .alwaysOn => r) s)

/-- End a zone's open-loop candidate and clear its peak accumulator (R61). -/
def endCandidate (z : ZoneId) (s : State) : State :=
  whenSome (s.loopOf z) (fun l => modLoop l fun r => { r with candidate := none, accumulator := 0 }) s

/-! ## LISTEN, CHANNEL and LIGHT values -/

/-- The LISTEN value of an endpoint of a zone: the lowest slot whose entry is ZONE z, while the zone is enabled (R43). -/
def State.listenSlot (s : State) (z : ZoneId) : Option (Fin 64) :=
  if (s.zone z).enabled then (List.finRange 64).find? fun i => s.slotMap[i] == .zone z else none

/-- Issue LISTEN to the endpoints whose value differs from what it was in the state `before` (R43). -/
def relisten (before : State) (s : State) : State :=
  forEach allEndpoints (fun e s =>
    match s.zoneOfEndpoint e with
    | some z => if before.listenSlot z ≠ s.listenSlot z then issue e .listen (optIndexByte (s.listenSlot z)) s else s
    | none => s) s

/-- The channel value of a zone's transmitters (R76). -/
def State.channelOf (s : State) (z : ZoneId) : Option Nat := (s.descOf z).map fun d => s.descs[d].channel

/-- Issue CHANNEL to every DESC_TX endpoint of a zone (R76). -/
def issueChannels (z : ZoneId) (s : State) : State :=
  match s.channelOf z with
  | some ch => forEach allEndpoints (fun e s =>
      if (s.endpoint e).inUse ∧ (s.endpoint e).role = .descTx ∧ (s.endpoint e).place = z
      then issue e .channel (BitVec.ofNat 8 ch) s else s) s
  | none => s

/-- Whether an endpoint is an usher light of a gate (R103). -/
def Endpoint.ushers (e : Endpoint) (g : GateId) : Bool := e.inUse && e.role == .usherLight && e.place.val == g.val

/-- Issue LIGHT to the PRESENT usher lights of a gate (R44). -/
def issueLights (g : GateId) (on : Bool) (s : State) : State :=
  forEach allEndpoints (fun e s => if (s.endpoint e).ushers g then issue e .light (flagByte on) s else s) s

/-- Queue LIGHT off to every usher light of a gate, as RECONFIGURE does (R42's exception, log 28). -/
def queueLightsOff (g : GateId) (s : State) : State :=
  forEach allEndpoints (fun e s => if (s.endpoint e).ushers g then queueDirective e .light 0 s else s) s

end Sys2Proof.Machine
end

