-- ==== Sys2Proof/Machine/CallOps.lean ====
section
/-! DEFINITION. The life of a call record, short of dispatch and playing: release, completion, drops, tail, cancel and preemption
(R88, R92, R97, R98, R100), and the report of a GATE call to its gate (R112). -/

namespace Sys2Proof.Machine

/-- What makes a call complete, where that decides its outcome (Table 5-5). -/
inductive Ending where
  | computed      -- end of tail, last zone dropped, preemption in TAIL
  | cancelled     -- cancel of a PENDING call
  | expired       -- pending maximum
  | preempted     -- preemption without requeue
  | notDelivered  -- empty deliverable set, or every zone missed its wake deadline
  | reconfigured  -- RECONFIGURE
  deriving DecidableEq, Repr

/-- The delivered set a call reports; a call that completes from PENDING reports an empty one (R100). -/
def Call.reportDelivered (c : Call) : ZoneSet := if c.state = .pending then 0 else c.delivered

/-- The missed set a call reports; a call that completes from PENDING reports its target set (R100). -/
def Call.reportMissed (c : Call) : ZoneSet := if c.state = .pending then c.target else c.missed

/-- The outcome computed from the sets (R100). -/
def setsOutcome (delivered missed : ZoneSet) : CallOutcome :=
  if delivered = 0 then .notDelivered else if missed = 0 then .delivered else .partialDelivery

/-- The outcome of a completion (R100). RECONFIGURE completes every call CANCELLED (R84, R156, log 22); otherwise an outcome fixed on
the record comes first. -/
def Call.finalOutcome (c : Call) (why : Ending) : CallOutcome :=
  match why with
  | .reconfigured => .cancelled
  | .cancelled => c.outcome.getD .cancelled
  | .expired => c.outcome.getD .expired
  | .preempted => c.outcome.getD .preempted
  | .notDelivered => c.outcome.getD .notDelivered
  | .computed => c.outcome.getD (setsOutcome c.reportDelivered c.reportMissed)

/-- The completion of a GATE call at its gate: an ADMISSION_CALL event, and the gate's admission call becomes none where it names the
record (R112). -/
def reportAdmission (g : GateId) (c : CallId) (out : CallOutcome) (delivered missed : ZoneSet) (s : State) : State :=
  modGate g (fun r => if r.admissionCall = some c then { r with admissionCall := none } else r)
    (pushEvent s.config.eventNode 0x03
      ([BitVec.ofNat 8 g.val, outcomeCode out] ++ bigEndian 4 delivered.toNat ++ bigEndian 4 missed.toNat) s)

/-- The report of a completion to whoever asked for the call (R100, steps 2 and 3; Table 11-9). -/
def reportCompletion (r : Call) (c : CallId) (out : CallOutcome) (delivered missed : ZoneSet) (s : State) : State :=
  match r.origin with
  | .external n =>
    pushEvent n 0x01 ([r.tag, outcomeCode out] ++ bigEndian 4 delivered.toNat ++ bigEndian 4 missed.toNat) s
  | .gate g => reportAdmission g c out delivered missed s

/-- The completion of a call: its record becomes FREE, its zones are released, its outcome is reported (R100). The record gives up
its claims before the releases are told, so that the commanded states follow from the claims that are left. -/
def completeCall (c : CallId) (why : Ending) (s : State) : State :=
  let r := s.call c
  reportCompletion r c (r.finalOutcome why) r.reportDelivered r.reportMissed
    (forEach (zonesOf r.reportDelivered) afterRelease (modCall c (fun _ => {}) s))

/-- A record with a zone moved from its delivered set to its missed set (R98). -/
def Call.loseZone (z : ZoneId) (r : Call) : Call :=
  { r with delivered := r.delivered &&& ~~~ zoneBit z, missed := r.missed ||| zoneBit z, wake := r.wake.set z none }

/-- The drop of a claimed zone from its call; the call completes when no zone is left (R98). -/
def dropZone (z : ZoneId) (s : State) : State :=
  match s.claimant z with
  | none => s
  | some c =>
    let s := afterRelease z (modCall c (Call.loseZone z) s)
    if (s.call c).delivered = 0 then completeCall c .computed s else s

/-- Drop a claimed zone that is not deliverable, or not awake while its call is PLAYING (R98). -/
def checkDrop (z : ZoneId) (s : State) : State :=
  match s.claimant z with
  | none => s
  | some c =>
    if !s.deliverable z || ((s.call c).state == .playing && !s.awake z) then dropZone z s else s

/-- A call enters TAIL, with an outcome fixed where one is given; with a tail time of 0 it completes at once (R97). -/
def enterTail (c : CallId) (fixed : Option CallOutcome) (s : State) : State :=
  let s := modCall c (fun r =>
    { r with state := .tail, tailRemaining := s.config.tailTime, wake := Vector.replicate 32 none,
             outcome := fixed.or r.outcome }) s
  if s.config.tailTime = 0 then completeCall c .computed s else s

/-- The cancel of a call by its state (Table 5-4). In TAIL nothing changes; a FREE record names no call. -/
def cancelCall (c : CallId) (s : State) : State :=
  match (s.call c).state with
  | .pending => completeCall c .cancelled s
  | .waking => enterTail c (some .cancelled) s
  | .playing => enterTail c (some .cancelled) s
  | .tail => s
  | .free => s

/-- Whether a source is STORED. -/
def Source.isStored : Source → Bool
  | .stored _ _ => true
  | .live _ _ => false

/-- Whether a preempted call returns to the queue (R92). -/
def Call.requeues (r : Call) : Bool :=
  (r.state == .waking || r.state == .playing) && r.source.isStored && r.retain && decide (r.requeue < 2)

/-- The record of a call that returns to PENDING (R92). -/
def Call.requeued (now : Nat) (r : Call) : Call :=
  { r with state := .pending, requeue := r.requeue + 1, delivered := 0, missed := 0, wake := Vector.replicate 32 none,
           plays := 0, position := 0, offset := 0, pendingSince := now, player := none }

/-- Preemption: out of all zones and the player at once (R92). -/
def preempt (c : CallId) (s : State) : State :=
  let r := s.call c
  if r.requeues then
    forEach (zonesOf r.delivered) afterRelease (modCall c (Call.requeued s.now) s)
  else if r.state = .tail then completeCall c .computed s
  else completeCall c .preempted s

end Sys2Proof.Machine
end

