-- ==== Sys2Proof/Machine/FaultOps.lean ====
section
/-! DEFINITION. The fault supervisor and what hangs on it: fault records and the ALERT pin, zone protection (R125), the swap of a
zone (R46, R47), observations, raises and escalation (R119 to R122), recovery (R123), and FAULT events (R128).

The layers do not call back: an observation may raise a record, a raise may swap a zone and derive its protection, and either may
drop a zone from its call, but neither a swap nor a drop makes an observation. -/

namespace Sys2Proof.Machine

/-! ## Fault records -/

/-- The kind of a record, 1 to 11 (R115). -/
def faultKind : FaultRef → Nat
  | .endpoint _ k => k.val + 1
  | .loop _ k => k.val + 7
  | .device k => k.val + 9

/-- The policy index of a record's kind. -/
def policyIndex : FaultRef → Fin 11
  | .endpoint _ k => ⟨k.val, by omega⟩
  | .loop _ k => ⟨k.val + 6, by omega⟩
  | .device k => ⟨k.val + 8, by omega⟩

/-- The record of an endpoint for kind 1 to 6. -/
def endpointLostRef (e : EndpointId) : FaultRef := .endpoint e 0
def wakeFailedRef (e : EndpointId) : FaultRef := .endpoint e 1
def overcurrentRef (e : EndpointId) : FaultRef := .endpoint e 2
def openLoopRef (e : EndpointId) : FaultRef := .endpoint e 3
def ampThermalRef (e : EndpointId) : FaultRef := .endpoint e 4
def supplyLowRef (e : EndpointId) : FaultRef := .endpoint e 5
def agcSaturatedRef (l : ParamId) : FaultRef := .loop l 0
def currentLimitedRef (l : ParamId) : FaultRef := .loop l 1
def consoleLinkLostRef : FaultRef := .device 0
def houseLinkLostRef : FaultRef := .device 1
def commandOverrunRef : FaultRef := .device 2

def FaultTable.get (t : FaultTable) : FaultRef → FaultRecord
  | .endpoint e k => t.endpoint[e][k]
  | .loop l k => t.loop[l][k]
  | .device k => t.device[k]

def FaultTable.set (t : FaultTable) (f : FaultRef) (r : FaultRecord) : FaultTable :=
  match f with
  | .endpoint e k => { t with endpoint := t.endpoint.set e (t.endpoint[e].set k r) }
  | .loop l k => { t with loop := t.loop.set l (t.loop[l].set k r) }
  | .device k => { t with device := t.device.set k r }

/-- All 307 records: endpoints by index, then loop records, then the part; each by kind (R115). -/
def allFaults : List FaultRef :=
  ((List.finRange 48).flatMap fun e => (List.finRange 6).map fun k => FaultRef.endpoint e k) ++
  ((List.finRange 8).flatMap fun l => (List.finRange 2).map fun k => FaultRef.loop l k) ++
  (List.finRange 3).map FaultRef.device

/-- Apply a function to every record. -/
def FaultTable.mapAll (h : FaultRef → FaultRecord → FaultRecord) (t : FaultTable) : FaultTable :=
  { endpoint := ⟨((List.finRange 48).map fun e =>
      (⟨((List.finRange 6).map fun k => h (.endpoint e k) t.endpoint[e][k]).toArray, by simp⟩ : Vector FaultRecord 6)).toArray,
      by simp⟩
    loop := ⟨((List.finRange 8).map fun l =>
      (⟨((List.finRange 2).map fun k => h (.loop l k) t.loop[l][k]).toArray, by simp⟩ : Vector FaultRecord 2)).toArray, by simp⟩
    device := ⟨((List.finRange 3).map fun k => h (.device k) t.device[k]).toArray, by simp⟩ }

/-- LATCHED and RETRY_WAIT are the actionable states (Table 7-3). -/
def FaultState.actionable : FaultState → Bool
  | .latched => true | .retryWait => true
  | .clear => false | .counting => false | .reported => false

/-- LATCHED, RETRY_WAIT and REPORTED are the raised states (Table 7-3). -/
def FaultState.raised : FaultState → Bool
  | .latched => true | .retryWait => true | .reported => true
  | .clear => false | .counting => false

/-- Whether some record is actionable (R127). -/
def FaultTable.anyActionable (t : FaultTable) : Bool := allFaults.any fun f => (t.get f).state.actionable

/-- Put a fault table in force: the ALERT pin follows at once (R127). EVERY change of a fault record goes through here. -/
def withFaults (t : FaultTable) (s : State) : State := { s with faults := t, alert := t.anyActionable }

def State.fault (s : State) (f : FaultRef) : FaultRecord := s.faults.get f

def setFault (f : FaultRef) (r : FaultRecord) (s : State) : State := withFaults (s.faults.set f r) s

/-- The endpoint of a record whose subject is an endpoint. -/
def faultEndpoint : FaultRef → Option EndpointId
  | .endpoint e _ => some e
  | .loop _ _ => none
  | .device _ => none

/-- The zone a record acts on: that of its endpoint (section 7.4). Records of kinds 7 to 11 act on no zone. A disabled zone may list, as
its active endpoint, an endpoint whose zone field names another zone, or an usher light. R125 derives each zone's protection from its active
endpoint, R34 has an endpoint belong to one zone: a raise, a recovery and a DISABLED policy write concern the zone of the zone field alone,
the model's choice (DESIGN CHOICE, unsafe; log 53). -/
def State.zoneConcerned (s : State) (f : FaultRef) : Option ZoneId := (faultEndpoint f).bind s.zoneOfEndpoint

/-! ## Zone protection (R125) -/

/-- Whether an endpoint has an actionable record of kinds 1 to 6 whose action in force is one of those given. -/
def State.actionableWith (s : State) (e : EndpointId) (p : PolicyAction → Bool) : Bool :=
  (List.finRange 6).any fun k =>
    let r := s.fault (.endpoint e k)
    r.state.actionable && match r.inForce with
      | some i => p i.action
      | none => false

/-- Whether an endpoint has an actionable record (R46). -/
def State.hasActionable (s : State) (e : EndpointId) : Bool :=
  (List.finRange 6).any fun k => (s.fault (.endpoint e k)).state.actionable

/-- The protection that the records of a zone's active endpoint give (R125). -/
def State.protectionOf (s : State) (z : ZoneId) : Protection :=
  match (s.zone z).active with
  | none => .normal
  | some e =>
    if s.actionableWith e (fun a => a == .mute || a == .swap) then .muted
    else if s.actionableWith e (fun a => a == .reduce) then .reduced
    else .normal

/-- Derive a zone's protection anew. A change to MUTED drops the zone from its call (R98) and ends its open-loop candidate (R61). -/
def deriveProtection (z : ZoneId) (s : State) : State :=
  let p := s.protectionOf z
  if p = (s.zone z).protection then s
  else
    let s := modZone z (fun r => { r with protection := p }) s
    if p = .muted then dropZone z (endCandidate z s) else s

/-! ## Swap (R46, R47) -/

/-- The swap condition: a standby endpoint exists, and the other side is PRESENT and free of actionable records (R46). -/
def State.swapCondition (s : State) (z : ZoneId) : Bool :=
  (s.zone z).standby.isSome &&
  match (s.zone z).other with
  | some e => (s.endpoint e).presence == .present && !s.hasActionable e
  | none => false

/-- The other side of a zone. -/
def Side.flip : Side → Side
  | .primary => .standby
  | .standby => .primary

/-- A WAKING call whose swapped zone is not awake waits for it anew (R47, R93). -/
def rewake (z : ZoneId) (s : State) : State :=
  match s.claimant z with
  | none => s
  | some c =>
    if (s.call c).state = .waking ∧ s.awake z = false then
      modCall c (fun r => { r with wake := r.wake.set z (some (s.now + s.config.wakeTimeout)) }) s
    else s

/-- The swap of a zone: active side, commanded states, open-loop candidate, its claiming call, its protection (R47, R61, R125). That a zone
which is not deliverable on its new side is dropped from a call in TAIL too is the model's choice (DEDUCED from R97 and R98 against R47,
unsafe; log 27). -/
def swapZone (z : ZoneId) (s : State) : State :=
  deriveProtection z (rewake z (checkDrop z (recommandZone z (endCandidate z
    (modZone z (fun r => { r with side := r.side.flip }) s)))))

/-! ## Observations, raises and recovery -/

/-- The subject form, subject index and node address of a FAULT event (Table 11-9). The subject index of the device, for which the table
has no value, is 0: the model's choice (DESIGN CHOICE, unsafe; log 51). -/
def faultSubject (f : FaultRef) (s : State) : List Byte :=
  match f with
  | .endpoint e _ => [1, BitVec.ofNat 8 e.val, (s.endpoint e).node.setWidth 8]
  | .loop l _ => [2, optIndexByte (s.loops[l].zone), 0]
  | .device _ => [0, 0, 0]

/-- Queue a FAULT event to the event node (R128, Table 11-9). -/
def faultEvent (f : FaultRef) (flags : Byte) (state : FaultState) (action : PolicyAction) (count : Nat) (s : State) : State :=
  pushEvent s.config.eventNode 0x02
    ([BitVec.ofNat 8 (faultKind f)] ++ faultSubject f s ++ [flags, faultStateCode state, policyActionCode action, BitVec.ofNat 8 count]) s

/-- Whether a record's last recovery counts toward escalation (R121). -/
def FaultRecord.recentRecovery (r : FaultRecord) (now : Nat) : Bool :=
  match r.lastRecovery with
  | some t => decide (now - t < Config.escalationTime)
  | none => false

/-- Whether a raise of the record is escalated (R121). -/
def FaultRecord.escalates (r : FaultRecord) (now : Nat) : Bool := r.recentRecovery now && decide (4 ≤ r.escalation + 1)

/-- The state a raise takes (R120, step 3). -/
def raisedState (p : Policy) (escalated : Bool) : FaultState :=
  if escalated then .latched
  else match p.mode with
    | .latched => .latched
    | .retry => .retryWait
    | .report => .reported
    | .disabled => .reported

/-- The record after its raise (R120, steps 1 to 4; R121). -/
def FaultRecord.raisedBy (r : FaultRecord) (p : Policy) (now : Nat) : FaultRecord :=
  let st := raisedState p (r.escalates now)
  { state := st
    deglitch := 0
    lastPresent := true
    sticky := true
    inForce := some ⟨p.mode, p.action, p.retryTime⟩
    retryRemaining := if st = .retryWait then some (p.retryTime * 100) else none
    escalation := if r.recentRecovery now then (if r.escalates now then 0 else r.escalation + 1) else 0
    lastRecovery := if r.recentRecovery now then r.lastRecovery else none }

/-- The zone that a raise swaps, if any: the record is actionable with action SWAP, its endpoint is the active endpoint of an enabled
zone in SERVICE, and the zone meets the swap condition (R126). -/
def State.swapTarget (s : State) (f : FaultRef) (p : Policy) (st : FaultState) : Option ZoneId :=
  match s.zoneConcerned f with
  | some z =>
    if st.actionable ∧ p.action = .swap ∧ s.service = .service ∧ (s.zone z).enabled ∧
        (s.zone z).active = (faultEndpoint f) ∧ s.swapCondition z
    then some z else none
  | none => none

/-- The bits of a raise's event: raise, escalated, swap made (Table 11-9). -/
def raiseFlags (escalated swapMade : Bool) : Byte :=
  1 ||| (if escalated then 2 else 0) ||| (if swapMade then 4 else 0)

/-- The raise of a record (R120): the record, the event, the swap, the protection of the zone concerned. -/
def raise (f : FaultRef) (s : State) : State :=
  let p := s.policy[policyIndex f]
  let old := s.fault f
  let new := old.raisedBy p s.now
  let s := setFault f new s
  let target := s.swapTarget f p new.state
  let s := faultEvent f (raiseFlags (old.escalates s.now) target.isSome) new.state p.action new.escalation s
  let s := whenSome target swapZone s
  if new.state.actionable then whenSome (s.zoneConcerned f) deriveProtection s else s

/-- One observation of a fault condition (R119, R122). -/
def observe (f : FaultRef) (isPresent : Bool) (s : State) : State :=
  let p := s.policy[policyIndex f]
  let r := s.fault f
  if p.mode = .disabled then s
  else if r.state.raised then setFault f { r with lastPresent := isPresent } s
  else if isPresent then
    if p.deglitch ≤ r.deglitch + 1 then raise f s
    else setFault f { r with state := .counting, deglitch := r.deglitch + 1, lastPresent := true } s
  else setFault f { r with state := .clear, deglitch := 0, lastPresent := false } s

/-- The expiry of a retry timer: recovery where the last observation is absent, else the timer restarts (R123). -/
def expireRetry (f : FaultRef) (s : State) : State :=
  let r := s.fault f
  if r.lastPresent then
    setFault f { r with retryRemaining := some ((match r.inForce with
      | some i => i.retryTime
      | none => 0) * 100) } s
  else
    let s := setFault f { r with state := .clear, deglitch := 0, inForce := none, retryRemaining := none,
                                 lastRecovery := some s.now } s
    let s := faultEvent f 0 .clear (match r.inForce with
      | some i => i.action
      | none => .mute) r.escalation s
    whenSome (s.zoneConcerned f) deriveProtection s

/-- A record whose escalation run has ended (R121): CLEAR or COUNTING with a last recovery at least 10,000 ms old. -/
def FaultRecord.escalationOver (r : FaultRecord) (now : Nat) : Bool :=
  (r.state == .clear || r.state == .counting) &&
  match r.lastRecovery with
  | some t => decide (Config.escalationTime ≤ now - t)
  | none => false

/-- The escalation count and last recovery reset (R121). -/
def FaultRecord.endRun (r : FaultRecord) : FaultRecord := { r with escalation := 0, lastRecovery := none }

/-- A record at its reset values, save its sticky flag (R118, at RECONFIGURE). -/
def FaultRecord.keepSticky (r : FaultRecord) : FaultRecord := { sticky := r.sticky }

end Sys2Proof.Machine
end

