-- ==== Sys2Proof/Machine/Boundary.lean ====
section
/-! DEFINITION. The call unit's examination at the frame boundary (R90): tail, end of audio, waking, expiry, the dispatch walk with its
preemptions, and the hand-off in which the players form their blocks (R91 to R97, R99). -/

namespace Sys2Proof.Machine

/-! ## Steps 1, 2 and 4: tail, end of audio, expiry -/

/-- Step 1 for one call: a call in TAIL whose tail remaining is 0 completes (R90, R97). -/
def tailTest (c : CallId) (s : State) : State :=
  if (s.call c).state = .tail ∧ (s.call c).tailRemaining = 0 then completeCall c .computed s else s

/-- Whether a call's source ended in the previous block: a STORED source with every repetition done (R94), or a LIVE source that found
port A LOST where its live part would begin (R96). -/
def Call.sourceEnded (r : Call) : Bool :=
  match r.source with
  | .stored _ n => decide (n ≤ r.plays)
  | .live _ _ => r.outcome == some .sourceLost

/-- Whether a call is LIVE with its live elapsed time at the live maximum (R90, R95). -/
def Call.liveOver (liveMax : Nat) (r : Call) : Bool :=
  match r.source with
  | .stored _ _ => false
  | .live _ _ => decide (liveMax * 1000 ≤ r.liveElapsed)

/-- The live maximum for one call: a LIVE call in PLAYING that has reached it enters TAIL (R90, step 2; R95). -/
def liveMaximumTest (c : CallId) (s : State) : State :=
  if (s.call c).state = .playing ∧ (s.call c).liveOver s.config.liveMax then enterTail c none s else s

/-- Step 2 for one call: a call in PLAYING whose source ended enters TAIL, and so does a LIVE call at its maximum (R90). -/
def endOfAudioTest (c : CallId) (s : State) : State :=
  if (s.call c).state = .playing ∧ (s.call c).sourceEnded then enterTail c none s else liveMaximumTest c s

/-- Step 4 for one call: a PENDING call that has waited the pending maximum completes EXPIRED (R99). -/
def pendingTest (c : CallId) (s : State) : State :=
  if (s.call c).state = .pending ∧ s.config.pendingMax * 1000 ≤ s.now - (s.call c).pendingSince
  then completeCall c .expired s else s

/-! ## Step 3: waking -/

/-- A WAKE_FAILED observation whose subject is a zone's active endpoint (R93). -/
def observeWake (z : ZoneId) (isPresent : Bool) (s : State) : State :=
  whenSome (s.zone z).active (fun e => observe (wakeFailedRef e) isPresent) s

/-- A WAKING or just claimed call enters PLAYING, and WAKE_FAILED is observed absent for its zones (R91, R93). -/
def enterPlaying (c : CallId) (s : State) : State :=
  forEach (zonesOf (s.call c).delivered) (fun z => observeWake z false) (modCall c (fun r => { r with state := .playing }) s)

/-- The examination of one zone of a WAKING call (R93). -/
def examineWakeZone (c : CallId) (z : ZoneId) (s : State) : State :=
  if (s.call c).state = .waking ∧ (s.call c).delivered.getLsbD z ∧ s.awake z = false then
    match (s.call c).wake[z] with
    | some d =>
      if d ≤ s.now then observeWake z true (afterRelease z (modCall c (Call.loseZone z) s)) else s
    | none => modCall c (fun r => { r with wake := r.wake.set z (some (s.now + s.config.wakeTimeout)) }) s
  else s

/-- Whether every zone of a call's delivered set is awake. -/
def State.allAwake (s : State) (c : CallId) : Bool := (zonesOf (s.call c).delivered).all s.awake

/-- Step 3 for one call (R93). -/
def wakingTest (c : CallId) (s : State) : State :=
  if (s.call c).state = .waking then
    let s := forEach (zonesOf (s.call c).delivered) (examineWakeZone c) s
    if (s.call c).state = .waking then
      if (s.call c).delivered = 0 then completeCall c .notDelivered s
      else if s.allAwake c then enterPlaying c s
      else s
    else s
  else s

/-! ## Step 5: the dispatch walk -/

/-- Whether call `a` stands before call `b` in the pending order: priority, then arrival (R85). -/
def Call.before (a b : Call) : Bool := decide (b.priority < a.priority) || (a.priority == b.priority && earlier a.arrival b.arrival)

/-- The first PENDING call in pending order among those the walk has not taken yet (R91). -/
def State.nextPending (s : State) (taken : List CallId) : Option CallId :=
  allCalls.foldl (fun best c =>
    if (s.call c).state == .pending && !taken.contains c then
      match best with
      | none => some c
      | some b => if (s.call c).before (s.call b) then some c else some b
    else best) none

/-- The deliverable set of a call (R91, step 1). -/
def State.deliverableSet (s : State) (c : CallId) : ZoneSet :=
  maskOf fun z => (s.call c).target.getLsbD z && s.deliverable z

/-- Whether a zone is blocked for a call of a priority (R91, step 2). -/
def State.blocked (s : State) (priority : Nat) (waiting : ZoneSet) (z : ZoneId) : Bool :=
  waiting.getLsbD z ||
  match s.claimant z with
  | some c => decide (priority ≤ (s.call c).priority)
  | none => false

/-- The lowest-numbered free player (R91, step 3). -/
def State.freePlayer (s : State) : Option PlayerId :=
  (List.finRange 4).find? fun p => allCalls.all fun c => !((s.call c).running && (s.call c).player == some p)

/-- Whether `a` is preempted for its player rather than `b`: lower priority, then higher start order (R91, step 3). -/
def Call.yieldsBefore (a b : Call) : Bool :=
  decide (a.priority < b.priority) ||
  (a.priority == b.priority && earlier (b.startOrder.getD 0) (a.startOrder.getD 0))

/-- The running call below a priority that gives up its player (R91, step 3). -/
def State.playerVictim (s : State) (priority : Nat) : Option CallId :=
  allCalls.foldl (fun best c =>
    if (s.call c).running && decide ((s.call c).priority < priority) then
      match best with
      | none => some c
      | some b => if (s.call c).yieldsBefore (s.call b) then some c else some b
    else best) none

/-- Step 4 of the walk: preempt every lower call that claims a zone of `d` (R91). -/
def preemptByZone (priority : Nat) (d : ZoneSet) (s : State) : State :=
  forEach allCalls (fun c s =>
    if (s.call c).running && decide ((s.call c).priority < priority) && (s.call c).delivered &&& d != 0 then preempt c s else s) s

/-- The record of a call that claims `d` (R91, step 5). -/
def State.claimRecord (s : State) (d : ZoneSet) (p : PlayerId) (r : Call) : Call :=
  { r with
    state := .waking, delivered := d, missed := r.target &&& ~~~ d, startOrder := some s.startCounter, player := some p
    wake := Vector.ofFn fun z => if d.getLsbD z && !s.awake z then some (s.now + s.config.wakeTimeout) else none
    plays := 0, position := 0, offset := 0, liveElapsed := 0, liveBegun := false }

/-- The start counter advances at each dispatch (R85). -/
def countStart (s : State) : State := { s with startCounter := s.startCounter + 1 }

/-- Steps 4 to 6 of the walk for a call that starts on a player (R91). -/
def startCall (c : CallId) (d : ZoneSet) (p : PlayerId) (s : State) : State :=
  let s := preemptByZone (s.call c).priority d s
  let s := countStart (modCall c (s.claimRecord d p) s)
  let s := forEach (zonesOf d) recommandZone s
  if s.allAwake c then enterPlaying c s else s

/-- The walk for one call: the new state, and the zones wanted by the calls that stayed PENDING so far (R91). -/
def dispatchCall (c : CallId) (waiting : ZoneSet) (s : State) : State × ZoneSet :=
  let r := s.call c
  let d := s.deliverableSet c
  if d = 0 then (completeCall c .notDelivered s, waiting)
  else if (zonesOf d).any (s.blocked r.priority waiting) then (s, waiting ||| r.target)
  else
    match s.freePlayer with
    | some p => (startCall c d p s, waiting)
    | none =>
      match s.playerVictim r.priority with
      | none => (s, waiting ||| r.target)
      | some v =>
        match (s.call v).player with
        | some p => (startCall c d p (preempt v s), waiting)
        | none => (s, waiting ||| r.target)

/-- The dispatch walk (R91). Each round takes a call not taken before, so 16 rounds reach them all. -/
def walk : Nat → List CallId → ZoneSet → State → State
  | 0, _, _, s => s
  | n + 1, taken, waiting, s =>
    match s.nextPending taken with
    | none => s
    | some c =>
      let r := dispatchCall c waiting s
      walk n (c :: taken) r.2 r.1

/-! ## Step 6: the hand-off -/

/-- What the call unit hands the mix engine for one frame: the state and player of each zone's claiming call, and each player's block
(R6, R90). -/
structure HandOff where
  claims : List (Option (CallState × PlayerId))
  blocks : List (List Int)
  deriving DecidableEq, Repr

/-- The hand-off of a part that plays nothing (R90, in CONFIGURATION). -/
def HandOff.silent : HandOff := { claims := List.replicate 32 none, blocks := List.replicate 4 zeroBlock }

/-- The claiming call of a zone as handed over. -/
def HandOff.claim (h : HandOff) (z : ZoneId) : Option (CallState × PlayerId) := h.claims.getD z.val none

/-- A player's block as handed over. -/
def HandOff.block (h : HandOff) (p : PlayerId) : List Int := h.blocks.getD p.val zeroBlock

/-- Where a player stands in its source: whole sequences done, place in the sequence, word offset (Table 5-2). -/
structure Cursor where
  plays : Nat
  position : Nat
  offset : Nat
  deriving DecidableEq, Repr

/-- The cursor after one word of a message of a given length (R94). After the last word of the last message the plays done increase and
the place goes back to the first word of the first message. Once every repetition is done, so that the source has ended, the record
therefore shows a sequence position and a word offset of 0, which R94 leaves open: the model's choice (DESIGN CHOICE, unsafe; log 44). -/
def Cursor.advance (cur : Cursor) (length idCount : Nat) : Cursor :=
  if cur.offset + 1 < length then { cur with offset := cur.offset + 1 }
  else if cur.position + 1 < idCount then { cur with position := cur.position + 1, offset := 0 }
  else { plays := cur.plays + 1, position := 0, offset := 0 }

/-- Up to `n` samples of a stored sequence from a cursor, fewer where the source ends (R94). -/
def playRun (m : Memory) (dir : Vector Message 64) (ids : List MessageId) (repeats : Nat) : Nat → Cursor → List Int × Cursor
  | 0, cur => ([], cur)
  | n + 1, cur =>
    if repeats ≤ cur.plays then ([], cur)
    else
      let id := ids.getD cur.position 0
      let ext := (dir[id].extent).getD (0, 0, 0)
      let rest := playRun m dir ids repeats n (cur.advance ext.2.1 ids.length)
      (wordSample (messageWord m ext.1 cur.offset) :: rest.1, rest.2)

/-- A block filled with zeros to its length. -/
def fillBlock (l : List Int) : List Int := l ++ List.replicate (Config.blockLength - l.length) 0

/-- The block of a PLAYING call and its record after it (R94, R95, R96). `ing` is the block of each ingress slot of the frame. -/
def playBlock (s : State) (ing : List (List Int)) (r : Call) : List Int × Call :=
  let cur : Cursor := ⟨r.plays, r.position, r.offset⟩
  match r.source with
  | .stored ids n =>
    let run := playRun s.mem s.messages ids n Config.blockLength cur
    (fillBlock run.1, { r with plays := run.2.plays, position := run.2.position, offset := run.2.offset })
  | .live slot pre =>
    let run := match pre with
      | some id => playRun s.mem s.messages [id] 1 Config.blockLength cur
      | none => ([], cur)
    let r := { r with plays := run.2.plays, position := run.2.position, offset := run.2.offset }
    if run.1.length = Config.blockLength then (run.1, r)
    else if r.liveBegun = false ∧ s.portA = .lost then (fillBlock run.1, { r with outcome := some .sourceLost })
    else (run.1 ++ (ing.getD slot.val zeroBlock).drop run.1.length, { r with liveBegun := true })

/-- A LIVE call without a pre-message that would begin its live part while port A is LOST enters TAIL (R96). -/
def liveStartTest (c : CallId) (s : State) : State :=
  match (s.call c).source with
  | .live _ none =>
    if (s.call c).state = .playing ∧ (s.call c).liveBegun = false ∧ s.portA = .lost then enterTail c (some .sourceLost) s else s
  | .live _ (some _) => s
  | .stored _ _ => s

/-- The block of the call that holds a player: zeros unless it is PLAYING (R90, step 6). -/
def State.playerBlock (s : State) (ing : List (List Int)) (p : PlayerId) : List Int :=
  match allCalls.find? fun c => (s.call c).state == .playing && (s.call c).player == some p with
  | some c => (playBlock s ing (s.call c)).1
  | none => zeroBlock

/-- The claim of a zone as the mix engine receives it. -/
def State.handedClaim (s : State) (z : ZoneId) : Option (CallState × PlayerId) :=
  match s.claimant z with
  | some c => (s.call c).player.map fun p => ((s.call c).state, p)
  | none => none

/-- A call record after the hand-off: the player's place moves on, the tail runs down, the live time runs up (R90, step 6). -/
def State.afterHandOff (s : State) (ing : List (List Int)) (r : Call) : Call :=
  match r.state with
  | .playing =>
    let r := (playBlock s ing r).2
    match r.source with
    | .live _ _ => { r with liveElapsed := r.liveElapsed + 1 }
    | .stored _ _ => r
  | .tail => { r with tailRemaining := r.tailRemaining - 1 }
  | .free => r
  | .pending => r
  | .waking => r

/-- Apply a function to every call record. -/
def mapCalls (f : Call → Call) (s : State) : State := { s with calls := vmap f s.calls }

/-- Step 6 (R90). -/
def handOff (ing : List (List Int)) (s : State) : State × HandOff :=
  let s := forEach allCalls liveStartTest s
  (mapCalls (s.afterHandOff ing) s,
   { claims := allZones.map s.handedClaim, blocks := (List.finRange 4).map (s.playerBlock ing) })

/-- Steps 1 to 5 of the examination (R90). -/
def examine (s : State) : State :=
  walk 16 [] 0
    (forEach allCalls pendingTest (forEach allCalls wakingTest (forEach allCalls endOfAudioTest (forEach allCalls tailTest s))))

/-- The frame boundary of the call unit: the whole examination in SERVICE, nothing in CONFIGURATION (R90). -/
def frameBoundary (ing : List (List Int)) (s : State) : State × HandOff :=
  if s.service = .service then handOff ing (examine s) else (s, HandOff.silent)

/-- Port A becoming LOST: each LIVE call in PLAYING whose live part has begun enters TAIL, SOURCE_LOST (R96). -/
def sourceLoss (s : State) : State :=
  forEach allCalls (fun c s =>
    if (s.call c).state = .playing ∧ (s.call c).liveBegun ∧ (s.call c).source.isStored = false
    then enterTail c (some .sourceLost) s else s) s

end Sys2Proof.Machine
end

