-- ==== Sys2Proof/Machine/Mix.lean ====
section
/-! DEFINITION. The mix event (Chapter 1): ingress peaks, bus sums, gain targets, slews, the zone chain and the test signals; the AGC
step of the loop processor (R54 to R56, R59) and the VOX step of the description unit (R72); the slot map (R143). -/

namespace Sys2Proof.Machine

/-! ## Ingress and buses (R5, R7, R10, R11) -/

/-- The ingress blocks of a frame: the slots that arrived, or zeros in a frame the part generates (R5). -/
def ingressOf (arrived : Option (List (List WireSample))) : List (List Int) :=
  match arrived with
  | some slots => (List.range Config.slotCount).map fun i => slotSamples (slots.getD i [])
  | none => List.replicate Config.slotCount zeroBlock

/-- The block of one ingress slot. -/
def slotOf (ing : List (List Int)) (i : Fin 64) : List Int := ing.getD i.val zeroBlock

/-- The exact sums of one bus over the in-use routes that name it (R10). -/
def busSum (routes : Vector Route 128) (ing : List (List Int)) (b : Fin 32) : List Int :=
  routes.toList.foldl (fun acc r =>
    if r.inUse ∧ r.bus = b then List.zipWith (fun a x => a + x * r.gain) acc (slotOf ing r.slot) else acc) zeroBlock

/-- The block of a bus (R10). -/
def busBlock (routes : Vector Route 128) (ing : List (List Int)) (b : Fin 32) : List Int :=
  (busSum routes ing b).map fun v => sat (rnd v)

/-- The clip flag of a bus (R11). -/
def busClip (routes : Vector Route 128) (ing : List (List Int)) (b : Fin 32) : Bool :=
  (busSum routes ing b).any fun v => saturates (rnd v)

/-! ## Gain targets (R15 to R17) -/

/-- The description record that serves a zone: the one bound to it, while its kind is DESC (R64). -/
def State.servingDesc (s : State) (z : ZoneId) : Option DescRecord :=
  if (s.zone z).kind = .desc then (s.descOf z).map fun d => s.descs[d] else none

/-- The loop record that serves a zone: the one bound to it, while its kind is LOOP (R49). -/
def State.servingLoop (s : State) (z : ZoneId) : Option LoopRecord :=
  if (s.zone z).kind = .loop then (s.loopOf z).map fun l => s.loops[l] else none

/-- The duck target of a zone (R15). -/
def State.duckTarget (s : State) (z : ZoneId) (claim : Option (CallState × PlayerId)) : Nat :=
  let call := match claim with
    | some (.waking, _) => (s.zone z).callDuck
    | some (.playing, _) => (s.zone z).callDuck
    | some (.tail, _) => 16384
    | some (.pending, _) => 16384
    | some (.free, _) => 16384
    | none => 16384
  let vox := match s.servingDesc z with
    | some d => if d.voxActive then d.voxDepth else 16384
    | none => 16384
  min 16384 (min call vox)

/-- The voice target of a DESC zone (R16). -/
def State.voiceTarget (s : State) (z : ZoneId) (claim : Option (CallState × PlayerId)) : Nat :=
  if claim.isSome then 0
  else match s.servingDesc z with
    | some d => d.voiceGain
    | none => 0

/-- The base value of the output target (R17). -/
def State.outputBase (s : State) (z : ZoneId) : Nat :=
  match s.servingLoop z with
  | some l => comp (s.zone z).trim l.agc
  | none => (s.zone z).trim

/-- The output target of a zone (R17). -/
def State.outputTarget (s : State) (z : ZoneId) : Nat :=
  match (s.zone z).protection with
  | .normal => s.outputBase z
  | .reduced => comp (s.outputBase z) (s.zone z).reduceGain
  | .muted => 0

/-- Set a zone's runtime gains to their targets as COMMIT and an enable do; the voice gain is set for a DESC zone only, and the first
block takes no slew step (R14). No call claims the zone at these moments. -/
def setGains (z : ZoneId) (s : State) : State :=
  modZone z (fun r => { r with
    duckGain := 16384
    outputGain := s.outputTarget z
    voiceGain := if r.kind = .desc then s.voiceTarget z none else r.voiceGain
    fresh := true }) s

/-! ## The zone chain (R12, R13, R18, R19, R20) -/

/-- A runtime gain after the mix event: held in the first block after it was set (R14), else one slew step (R12). -/
def nextGain (fresh : Bool) (g0 target step : Nat) : Nat := if fresh then g0 else slew g0 target step

/-- Sample `n` of the test signal of a mode (R22, R23). -/
def testSample (mode : TestMode) (level : Nat) (noise : List (BitVec 23)) (n : Nat) : Int :=
  match mode with
  | .none => 0
  | .silence => 0
  | .tone => toneSample level n
  | .noise => noiseSample level (noise.getD n 0)

/-- What one mix event makes of a zone. -/
structure ZoneMix where
  duck : Nat
  voice : Nat
  output : Nat
  sent : List Int
  clip : Bool
  deriving DecidableEq, Repr

/-- The inputs of the chain at sample `n`: bus, voice and call samples with their gains give the mixed sample `m` (R18). -/
def mixedSample (bus gd voice gv call level : Int) : Int :=
  sat (sat (rnd (bus * gd)) + sat (rnd (voice * gv)) + sat (rnd (call * level)))

/-- The chain of one zone over one block (R18, R19, R20). -/
def State.zoneChain (s : State) (ing : List (List Int)) (bus : List Int) (h : HandOff) (noise : List (BitVec 23)) (z : ZoneId) :
    ZoneMix :=
  let r := s.zone z
  let claim := h.claim z
  let isDesc := r.kind == .desc
  let duck := nextGain r.fresh r.duckGain (s.duckTarget z claim) r.duckStep
  let voice := if isDesc then nextGain r.fresh r.voiceGain (s.voiceTarget z claim) r.duckStep else r.voiceGain
  let output := nextGain r.fresh r.outputGain (s.outputTarget z) r.duckStep
  let voiceBlock := match s.servingDesc z with
    | some d => slotOf ing d.voiceSlot
    | none => zeroBlock
  let callBlock := match claim with
    | some (_, p) => h.block p
    | none => zeroBlock
  let mixed := (List.range Config.blockLength).map fun n =>
    mixedSample (bus.getD n 0) (ramp r.duckGain duck n)
      (if isDesc then voiceBlock.getD n 0 else 0) (ramp r.voiceGain voice n) (callBlock.getD n 0) r.callLevel
  let scaled := (List.range Config.blockLength).map fun n => rnd (mixed.getD n 0 * ramp r.outputGain output n)
  { duck := duck
    voice := voice
    output := output
    clip := scaled.any saturates
    sent := (List.range Config.blockLength).map fun n =>
      if r.protection = .muted then 0
      else if r.testMode ≠ .none then testSample r.testMode r.testLevel noise n
      else sat (scaled.getD n 0) }

/-- A zone record after a mix event that formed its block (R12, R14, R20). -/
def Zone.afterMix (r : Zone) (m : ZoneMix) : Zone :=
  { r with duckGain := m.duck, voiceGain := m.voice, outputGain := m.output, fresh := false, peak := blockPeak m.sent, clip := m.clip }

/-- The zone blocks of a mix event, none for a zone that forms no block (R5, R19). -/
def State.zoneMixes (s : State) (ing : List (List Int)) (h : HandOff) : List (Option ZoneMix) :=
  let noise := noiseRun Config.blockLength s.noise
  allZones.map fun z =>
    if s.service = .service ∧ (s.zone z).enabled then
      some (s.zoneChain ing (busBlock s.routes ing (s.zone z).bus) h noise z)
    else none

/-- A zone's block among those of a mix event. -/
def mixOf (mixes : List (Option ZoneMix)) (z : ZoneId) : Option ZoneMix := mixes.getD z.val none

/-- The mix event: peaks, buses, noise register, and in SERVICE the zone blocks (R5). -/
def mixEvent (ing : List (List Int)) (mixes : List (Option ZoneMix)) (s : State) : State :=
  { s with
    ingressPeaks := ⟨((List.finRange 64).map fun i => blockPeak (slotOf ing i)).toArray, by simp⟩
    busPeaks := ⟨((List.finRange 32).map fun b => blockPeak (busBlock s.routes ing b)).toArray, by simp⟩
    busClips := ⟨((List.finRange 32).map fun b => busClip s.routes ing b).toArray, by simp⟩
    noise := (noiseRun Config.blockLength s.noise).getLastD s.noise
    zones := ⟨(allZones.map fun z => match mixOf mixes z with
      | some m => (s.zone z).afterMix m
      | none => s.zone z).toArray, by simp [allZones]⟩ }

/-! ## The AGC step (R54 to R56, R59) -/

/-- The cases of Table 3-3. -/
inductive AgcCase where | hold | limit | callHold | attack | release | window
  deriving DecidableEq, Repr

/-- Whether the current limit applies: the active endpoint is PRESENT and its measured current exceeds Ilim (R55, case 2). -/
def State.overLimit (s : State) (z : ZoneId) (l : LoopRecord) : Bool :=
  match (s.zone z).active with
  | some e =>
    (s.endpoint e).presence == .present &&
    match (s.endpoint e).current with
    | some i => decide (l.currentLimit < i)
    | none => false
  | none => false

/-- The first case of Table 3-3 that holds, for a block of peak `p` (R55). -/
def State.agcCase (s : State) (z : ZoneId) (l : LoopRecord) (claimed : Bool) (p : Nat) : AgcCase :=
  if (s.zone z).protection = .muted ∨ (s.zone z).testMode ≠ .none then .hold
  else if s.overLimit z l then .limit
  else if claimed then .callHold
  else if l.target < p then .attack
  else if p < l.target - l.window then .release
  else .window

/-- The AGC gain after a step (Table 3-3). -/
def LoopRecord.agcAfter (l : LoopRecord) : AgcCase → Nat
  | .hold => l.agc
  | .limit => max l.agcMin (l.agc - l.limitStep)
  | .callHold => l.agc
  | .attack => max l.agcMin (l.agc - l.attack)
  | .release => min l.agcMax (l.agc + l.release)
  | .window => l.agc

/-- The loop record after a step: gain, the two flags, the peak accumulator (R55, R56, R59). -/
def LoopRecord.afterStep (l : LoopRecord) (k : AgcCase) (p : Nat) : LoopRecord :=
  { l with
    agc := l.agcAfter k
    limited := k == .limit
    saturated := k == .attack && l.agcAfter k == l.agcMin
    accumulator := if k = .hold then l.accumulator else max l.accumulator p }

/-- The AGC step of one zone after its block (R54), with its two observations, CURRENT_LIMITED first (R56; the order is log 34). -/
def agcStep (h : HandOff) (z : ZoneId) (s : State) : State :=
  if (s.zone z).kind = .loop then
    match s.loopOf z with
    | some l =>
      let new := s.loops[l].afterStep (s.agcCase z s.loops[l] (h.claim z).isSome (s.zone z).peak) (s.zone z).peak
      observe (agcSaturatedRef l) new.saturated (observe (currentLimitedRef l) new.limited (modLoop l (fun _ => new) s))
    | none => s
  else s

/-! ## The VOX step (R72) -/

/-- The VOX state after a step on a voice peak (Table 4-3). -/
def DescRecord.voxStep (d : DescRecord) (v : Nat) : DescRecord :=
  if d.onThreshold ≤ v then { d with voxActive := true, holdRemaining := d.holdTime }
  else if d.voxActive ∧ v < d.offThreshold then
    if 1 < d.holdRemaining then { d with holdRemaining := d.holdRemaining - 1 }
    else { d with voxActive := false, holdRemaining := 0 }
  else d

/-- The VOX step of one zone after its block (R72). -/
def voxTest (z : ZoneId) (s : State) : State :=
  if (s.zone z).kind = .desc then
    whenSome (s.descOf z) (fun d => modDesc d fun r => r.voxStep s.ingressPeaks[r.voiceSlot]) s
  else s

/-- The steps that follow the mix event, for each zone that formed a block, ascending (R54, R72). -/
def afterMixSteps (h : HandOff) (mixes : List (Option ZoneMix)) (s : State) : State :=
  forEach allZones (fun z s => if (mixOf mixes z).isSome then voxTest z (agcStep h z s) else s) s

/-! ## The slot map (R143) -/

/-- 48 zero samples as the link carries them. -/
def silentSlot : List WireSample := List.replicate Config.blockLength 0

/-- The egress slot that passes: the arrived slot of the same number, silent in a frame the part generates (R143). -/
def passSlot (arrived : Option (List (List WireSample))) (i : Fin 64) : List WireSample :=
  match arrived with
  | some slots => slots.getD i.val []
  | none => silentSlot

/-- One egress slot (R143). -/
def State.egressSlot (s : State) (arrived : Option (List (List WireSample))) (mixes : List (Option ZoneMix)) (i : Fin 64) :
    List WireSample :=
  if s.service = .configuration then passSlot arrived i
  else match s.slotMap[i] with
    | .pass => passSlot arrived i
    | .silence => silentSlot
    | .zone z =>
      match mixOf mixes z with
      | some m => wireBlock m.sent
      | none => silentSlot

/-- The 64 egress slots of a frame (R143). -/
def State.egress (s : State) (arrived : Option (List (List WireSample))) (mixes : List (Option ZoneMix)) : List (List WireSample) :=
  (List.finRange 64).map (s.egressSlot arrived mixes)

end Sys2Proof.Machine
end

