-- ==== Sys2Proof/Machine/Wire.lean ====
section
/-! DEFINITION. The wire formats of Chapter 11: the bytes and CRC of frames and records, and what COMMAND and CUE records spell. -/

namespace Sys2Proof.Machine

/-! ## Records (Table 11-3) -/

/-- An EMPTY record as the part sends it: 16 zero bytes (R161). -/
def emptyRecord : Record := { dest := 0, src := 0, kind := 0, code := 0, payload := List.replicate 12 0 }

/-- The kind of a record, bits 3 to 0 of byte 2 (R161). -/
def recordKind (r : Record) : BitVec 4 := r.kind.extractLsb' 0 4

/-- A record's destination node, bits 6 to 0 of byte 0 (R161). -/
def recordDest (r : Record) : Node := r.dest.extractLsb' 0 7

/-- A record's source node, bits 6 to 0 of byte 1 (R161). -/
def recordSource (r : Record) : Node := r.src.extractLsb' 0 7

/-- A record whose kind is EMPTY is a free place (R138). -/
def recordEmpty (r : Record) : Bool := recordKind r == 0

/-- A record addressed to a node (R138, R139). -/
def recordFor (n : Node) (r : Record) : Bool := !recordEmpty r && recordDest r == n

/-- The 16 bytes of a record. -/
def recordBytes (r : Record) : List Byte := [r.dest, r.src, r.kind, r.code] ++ padTo 12 r.payload

/-- The record of 16 bytes. -/
def recordOfBytes (l : List Byte) : Record :=
  { dest := byteAt l 0, src := byteAt l 1, kind := byteAt l 2, code := byteAt l 3, payload := padTo 12 (l.drop 4) }

/-! ## The CRC (R160) -/

/-- One bit into the remainder register: generator polynomial 04C11DB7H, most significant bit first. -/
def crcBit (reg : BitVec 32) (b : Bool) : BitVec 32 :=
  if reg.getLsbD 31 ^^ b then (reg <<< 1) ^^^ 0x04C11DB7 else reg <<< 1

/-- One byte into the remainder register, most significant bit first. -/
def crcByte (reg : BitVec 32) (b : Byte) : BitVec 32 :=
  (List.range 8).foldl (fun r i => crcBit r (b.getLsbD (7 - i))) reg

/-- The CRC of a frame's bytes: register preset to all ones, final remainder complemented (R160). -/
def crc32 (l : List Byte) : BitVec 32 := ~~~ (l.foldl crcByte 0xFFFFFFFF)

/-! ## Frames (Table 11-2) -/

/-- Header bytes 0 to 7. -/
def headerBytes (h : Header) : List Byte :=
  bigEndian 2 h.number.toNat ++ [h.timingSource, h.flags] ++ bigEndian 4 h.reserved.toNat

/-- The header of bytes 0 to 7. -/
def headerOf (l : List Byte) : Header :=
  { number := word16 l 0, timingSource := byteAt l 2, flags := byteAt l 3, reserved := word32 l 4 }

/-- The 144 bytes of a slot block: three bytes a sample (Table 11-2). -/
def slotBytes (b : List WireSample) : List Byte :=
  (List.range Config.blockLength).flatMap fun n => bigEndian 3 (b.getD n 0).toNat

/-- The slot block of 144 bytes. -/
def slotOfBytes (l : List Byte) : List WireSample := (List.range Config.blockLength).map fun n => word24 l (3 * n)

/-- The bytes of the message area. -/
def messageBytes (rs : List Record) : List Byte :=
  (List.range Config.messagePlaces).flatMap fun p => recordBytes (rs.getD p emptyRecord)

/-- The records of a message area. -/
def messageOf (l : List Byte) : List Record := (List.range Config.messagePlaces).map fun p => recordOfBytes (l.drop (16 * p))

/-- A frame's bytes with the CRC over them in the last four, most significant byte first (R160). -/
def withCrc (l : List Byte) : List Byte := l ++ bigEndian 4 (crc32 l).toNat

/-- A downstream frame as the link carries it: 9612 bytes (Table 11-2, R160). -/
def downBytes (f : DownFrame) : List Byte :=
  withCrc (headerBytes f.header ++ ((List.range Config.slotCount).flatMap fun i => slotBytes (f.slots.getD i [])) ++
    messageBytes f.records)

/-- A return frame as the link carries it: 396 bytes (Table 11-2, R160). -/
def returnBytes (f : RetFrame) : List Byte := withCrc (headerBytes f.header ++ messageBytes f.records)

/-- Whether received bytes have a length and end in the CRC of the bytes before (R134, R160). -/
def wellFormedBytes (n : Nat) (l : List Byte) : Bool :=
  l.length == n && l.drop (n - 4) == bigEndian 4 (crc32 (l.take (n - 4))).toNat

/-- The downstream frame of received bytes, none for a bad frame (R134, R160). -/
def parseDown (l : List Byte) : Option DownFrame :=
  if wellFormedBytes 9612 l then
    some { header := headerOf l
           slots := (List.range Config.slotCount).map fun i => slotOfBytes (l.drop (8 + 144 * i))
           records := messageOf (l.drop 9224) }
  else none

/-- The return frame of received bytes, none for a bad frame (R134, R160). -/
def parseReturn (l : List Byte) : Option RetFrame :=
  if wellFormedBytes 396 l then some { header := headerOf l, records := messageOf (l.drop 8) } else none

/-- The row that bytes arriving on port A spell: a well-formed frame or a bad frame (R134). -/
def portARow (l : List Byte) (order : List MsTask) : Instr :=
  match parseDown l with
  | some f => .downstreamFrameArrival f order
  | none => .badFrame order

/-- The row that bytes arriving on port B spell (R134). -/
def portBRow (l : List Byte) : Instr :=
  match parseReturn l with
  | some f => .returnFrameArrival f
  | none => .badReturnFrame

/-! ## COMMAND and CUE records (Table 11-4, Table 11-7) -/

/-- The TABLE_WRITE arguments of a code and payload (Table 11-4): group in bits 1 to 0 of the code, the index in byte 5 with the
second-part mark in bit 7, group bytes from byte 6. -/
def tableWriteOf (code : Byte) (p : List Byte) : TableWrite :=
  { group := code.extractLsb' 0 2
    second := (byteAt p 1).getLsbD 7
    index := (byteAt p 1).extractLsb' 0 7
    data := padTo 10 (p.drop 2) }

/-- The row of a TABLE_WRITE to a table number: the write of a long group without the second-part mark is a first part (R162), and so
stands for it the write to a table number that names no table, which fails the first part's own table check. -/
def tableRow (src : Node) (req : Byte) (table : BitVec 4) (w : TableWrite) : Instr :=
  match tableOf table.toNat with
  | none => .tableWriteFirstPart src req table w
  | some .route => .routeWrite src req w
  | some .slotmap => .slotmapWrite src req w
  | some .zone => .zoneWrite src req w
  | some .loop => if w.group = 0 ∧ w.second = false then .tableWriteFirstPart src req table w else .loopWrite src req w
  | some .desc => .descWrite src req w
  | some .endpoint => .endpointWrite src req w
  | some .gate => .gateWrite src req w
  | some .policy => .policyWrite src req w
  | some .config => if w.group = 0 ∧ w.second = false then .tableWriteFirstPart src req table w else .configWrite src req w

/-- What a COMMAND record spells (Table 11-4). Every code spells a row: a code that names no command spells `unknownCommandCode`. -/
def commandOf (r : Record) : Instr :=
  let src := recordSource r
  let p := r.payload
  let req := byteAt p 0
  let b := fun i => byteAt p i
  if r.code = 0x01 then .commit src req
  else if r.code = 0x02 then .reconfigure src req
  else if r.code = 0x03 then .softReset src req
  else if r.code = 0x04 then .statusRead src req (b 1) (b 2) (b 3) (b 4)
  else if r.code = 0x05 then .clearFaults src req (b 1) (b 2) (word16 p 3)
  else if r.code = 0x06 then .test src req (b 1) (word16 p 2) (word32 p 4)
  else if r.code = 0x07 then .suspend src req (b 1) (b 2)
  else if r.code = 0x08 then .swap src req (b 1)
  else if r.code = 0x09 then .gateForce src req (b 1) (b 2)
  else if r.code = 0x0A then .msgOpen src req (b 1) (word16 p 2) (word32 p 4)
  else if r.code = 0x0C then .msgClose src req (b 1)
  else if r.code = 0x0D then .msgDelete src req (b 1)
  else if r.code = 0x0F then .tableRead src req (b 1) (b 2) (b 3) (b 4)
  else if r.code.extractLsb' 6 2 = 1 then
    .msgData src (r.code.extractLsb' 0 6) ((List.range 6).map fun i => word16 p (2 * i))
  else if r.code.extractLsb' 6 2 = 2 then tableRow src req (r.code.extractLsb' 2 4) (tableWriteOf r.code p)
  else if r.code.extractLsb' 6 2 = 3 then .msgRead src req (r.code.extractLsb' 0 6) (word24 p 1)
  else .unknownCommandCode src req r.code

/-- The source fields of a CALL_START payload (Table 11-7): source in bits 5 to 4 of byte 6, number of ids in bits 2 to 0 and repeat
count in bits 6 to 4 of byte 11, bytes 12 to 15. -/
def callSourceOf (p : List Byte) : CallSource :=
  { code := (byteAt p 2).extractLsb' 4 2
    idCount := (byteAt p 7).extractLsb' 0 3
    repeatCount := (byteAt p 7).extractLsb' 4 3
    args := padTo 4 (p.drop 8) }

/-- What a CUE record spells (Table 11-7). The request number of a cue whose code names none is read from byte 4, where Table 11-7 has it for
the three cues that are answered: the model's choice (DESIGN CHOICE, unsafe; log 52). -/
def cueOf (r : Record) : Instr :=
  let src := recordSource r
  let p := r.payload
  if r.code = 0x20 then
    .callStart src (byteAt p 0) (byteAt p 1) ((byteAt p 2).extractLsb' 0 3) ((byteAt p 2).getLsbD 3) (word32 p 3) (callSourceOf p)
  else if r.code = 0x21 then .callEnd src (byteAt p 0) (byteAt p 1)
  else if r.code = 0x22 then .callCancel src (byteAt p 0) (byteAt p 1)
  else if r.code = 0x23 then .marker src (byteAt p 0)
  else .unknownCueCode src (byteAt p 0) r.code

/-! ## The other direction: the records that spell a command or cue -/

/-- The code byte of a TABLE_WRITE (Table 11-4). -/
def tableWriteCode (table : Nat) (w : TableWrite) : Byte := BitVec.ofNat 8 (0x80 + table * 4 + w.group.toNat)

/-- The command or cue code of a row, which its reply repeats (Table 11-4, Table 11-7). Rows that are no record have none. -/
def codeOf : Instr → Byte
  | .commit _ _ => 0x01
  | .reconfigure _ _ => 0x02
  | .softReset _ _ => 0x03
  | .statusRead _ _ _ _ _ _ => 0x04
  | .clearFaults _ _ _ _ _ => 0x05
  | .test _ _ _ _ _ => 0x06
  | .suspend _ _ _ _ => 0x07
  | .swap _ _ _ => 0x08
  | .gateForce _ _ _ _ => 0x09
  | .msgOpen _ _ _ _ _ => 0x0A
  | .msgClose _ _ _ => 0x0C
  | .msgDelete _ _ _ => 0x0D
  | .tableRead _ _ _ _ _ _ => 0x0F
  | .msgData _ id _ => BitVec.ofNat 8 (0x40 + id.toNat)
  | .msgRead _ _ id _ => BitVec.ofNat 8 (0xC0 + id.toNat)
  | .tableWriteFirstPart _ _ table w => tableWriteCode table.toNat w
  | .routeWrite _ _ w => tableWriteCode 0 w
  | .slotmapWrite _ _ w => tableWriteCode 1 w
  | .zoneWrite _ _ w => tableWriteCode 2 w
  | .loopWrite _ _ w => tableWriteCode 3 w
  | .descWrite _ _ w => tableWriteCode 4 w
  | .endpointWrite _ _ w => tableWriteCode 5 w
  | .gateWrite _ _ w => tableWriteCode 6 w
  | .policyWrite _ _ w => tableWriteCode 7 w
  | .configWrite _ _ w => tableWriteCode 8 w
  | .callStart _ _ _ _ _ _ _ => 0x20
  | .callEnd _ _ _ => 0x21
  | .callCancel _ _ _ => 0x22
  | .marker _ _ => 0x23
  | .unknownCommandCode _ _ code => code
  | .unknownCueCode _ _ code => code
  | .powerOnReset _ => 0
  | .softResetEffect _ => 0
  | .downstreamFrameArrival _ _ => 0
  | .badFrame _ => 0
  | .portASilence _ => 0
  | .localTimingFrame _ => 0
  | .returnFrameArrival _ => 0
  | .badReturnFrame => 0
  | .portBSilence => 0
  | .endpointLost _ => 0
  | .idleDeadlineExpiry _ => 0
  | .wakeDeadlineExpiry _ => 0
  | .tailEnd _ => 0
  | .pendingExpiry _ => 0
  | .liveMaximum _ => 0
  | .windowExpiry _ => 0
  | .escalationReset _ => 0
  | .retryExpiry _ => 0

/-- The payload of a TABLE_WRITE (Table 11-4). -/
def tableWritePayload (req : Byte) (w : TableWrite) : List Byte :=
  [req, BitVec.ofBool w.second ++ w.index] ++ padTo 10 w.data

/-- A COMMAND record to a part at `node`. -/
def commandRecord (node src : Node) (code : Byte) (payload : List Byte) : Record :=
  { dest := node.setWidth 8, src := src.setWidth 8, kind := 0x01, code := code, payload := padTo 12 payload }

/-- A CUE record to a part at `node`. -/
def cueRecord (node src : Node) (code : Byte) (payload : List Byte) : Record :=
  { dest := node.setWidth 8, src := src.setWidth 8, kind := 0x03, code := code, payload := padTo 12 payload }

/-- The record to a part at `node` that spells a row of a COMMAND or CUE; no record for the other rows. -/
def recordOf (node : Node) (c : Instr) : Option Record :=
  let cmd := fun (src : Node) (p : List Byte) => some (commandRecord node src (codeOf c) p)
  let cue := fun (src : Node) (p : List Byte) => some (cueRecord node src (codeOf c) p)
  match c with
  | .commit src req => cmd src [req]
  | .reconfigure src req => cmd src [req]
  | .softReset src req => cmd src [req]
  | .statusRead src req cls index kind part => cmd src [req, cls, index, kind, part]
  | .clearFaults src req selector index mask => cmd src ([req, selector, index] ++ bigEndian 2 mask.toNat)
  | .test src req mode level mask => cmd src ([req, mode] ++ bigEndian 2 level.toNat ++ bigEndian 4 mask.toNat)
  | .suspend src req zone setting => cmd src [req, zone, setting]
  | .swap src req zone => cmd src [req, zone]
  | .gateForce src req gate action => cmd src [req, gate, action]
  | .msgOpen src req id startPage length => cmd src ([req, id] ++ bigEndian 2 startPage.toNat ++ bigEndian 4 length.toNat)
  | .msgData src _ words => cmd src (words.flatMap fun w => bigEndian 2 w.toNat)
  | .msgClose src req id => cmd src [req, id]
  | .msgDelete src req id => cmd src [req, id]
  | .msgRead src req _ offset => cmd src ([req] ++ bigEndian 3 offset.toNat)
  | .tableRead src req table index group part => cmd src [req, table, index, group, part]
  | .tableWriteFirstPart src req _ w => cmd src (tableWritePayload req w)
  | .routeWrite src req w => cmd src (tableWritePayload req w)
  | .slotmapWrite src req w => cmd src (tableWritePayload req w)
  | .zoneWrite src req w => cmd src (tableWritePayload req w)
  | .loopWrite src req w => cmd src (tableWritePayload req w)
  | .descWrite src req w => cmd src (tableWritePayload req w)
  | .endpointWrite src req w => cmd src (tableWritePayload req w)
  | .gateWrite src req w => cmd src (tableWritePayload req w)
  | .policyWrite src req w => cmd src (tableWritePayload req w)
  | .configWrite src req w => cmd src (tableWritePayload req w)
  | .unknownCommandCode src req _ => cmd src [req]
  | .callStart src req tag priority retain target source =>
    cue src ([req, tag, (0 : BitVec 2) ++ source.code ++ BitVec.ofBool retain ++ priority] ++ bigEndian 4 target.toNat ++
      [(0 : BitVec 1) ++ source.repeatCount ++ (0 : BitVec 1) ++ source.idCount] ++ padTo 4 source.args)
  | .callEnd src req tag => cue src [req, tag]
  | .callCancel src req tag => cue src [req, tag]
  | .marker src code => cue src [code]
  | .unknownCueCode src req _ => cue src [req]
  | .powerOnReset _ => none
  | .softResetEffect _ => none
  | .downstreamFrameArrival _ _ => none
  | .badFrame _ => none
  | .portASilence _ => none
  | .localTimingFrame _ => none
  | .returnFrameArrival _ => none
  | .badReturnFrame => none
  | .portBSilence => none
  | .endpointLost _ => none
  | .idleDeadlineExpiry _ => none
  | .wakeDeadlineExpiry _ => none
  | .tailEnd _ => none
  | .pendingExpiry _ => none
  | .liveMaximum _ => none
  | .windowExpiry _ => none
  | .escalationReset _ => none
  | .retryExpiry _ => none

end Sys2Proof.Machine
end

