-- ==== Sys2Proof/Machine/CommandUnit.lean ====
section
/-! DEFINITION. The command unit: intake into the queues and flow control (R145, R146), trust (R144), the taking of a command or cue
(R147, R148) and the reply (Table 11-8, R163). -/

namespace Sys2Proof.Machine

/-! ## Queues and flow control -/

/-- Flow control when a record joins the command queue (R146). -/
def flowOnJoin (s : State) : State :=
  if s.config.flowEnabled ∧ s.hold = .running ∧ s.config.holdLevel ≤ s.cmdQueue.length
  then { s with hold := .held, holdFlag := some .hold } else s

/-- Flow control when a record leaves the command queue (R146). -/
def flowOnLeave (s : State) : State :=
  if s.config.flowEnabled ∧ s.hold = .held ∧ (s.cmdQueue.length < s.config.resumeLevel ∨ s.cmdQueue.length = 0)
  then { s with hold := .running, holdFlag := some .resume } else s

/-- A record has joined a queue: after a discard, COMMAND_OVERRUN is observed absent (R145). -/
def overrunOver (s : State) : State :=
  if s.overrun then observe commandOverrunRef false { s with overrun := false } else s

/-- A record was discarded at a full queue: COMMAND_OVERRUN is observed present (R145). -/
def overrunNow (s : State) : State := observe commandOverrunRef true { s with overrun := true }

/-- A COMMAND record arrives at the command queue (R145, R146). -/
def joinCommand (c : Instr) (s : State) : State :=
  if s.cmdQueue.length < Config.commandQueueCapacity then
    overrunOver (flowOnJoin { s with cmdQueue := s.cmdQueue ++ [c] })
  else overrunNow s

/-- A CUE record arrives at the cue queue (R145). -/
def joinCue (c : Instr) (s : State) : State :=
  if s.cueQueue.length < Config.cueQueueCapacity then overrunOver { s with cueQueue := s.cueQueue ++ [c] } else overrunNow s

/-- The head of the command queue leaves it (R146, R147). -/
def leaveCommand (s : State) : State := flowOnLeave { s with cmdQueue := s.cmdQueue.tail }

/-- The head of the cue queue leaves it (R147). -/
def leaveCue (s : State) : State := { s with cueQueue := s.cueQueue.tail }

/-- Whether a list of trusted nodes trusts a node: a list of four unused places trusts every node (R144). -/
def trusts (list : Vector Node 4) (n : Node) : Bool := list.toList.all (· == 0) || (n != 0 && list.toList.contains n)

/-- Whether the command unit may take a record that needs a reply (R147, R157). -/
def State.mayTake (s : State) : Bool := !s.softResetFlag && decide (s.replies.length < Config.replyQueueCapacity)

/-! ## Replies -/

/-- What the owning rule answers: a status with its result bytes, or the data form of MSG_READ (R163). -/
inductive Answer where
  | normal (status : Status) (result : List Byte)
  | data (count : Nat) (bytes : List Byte)
  deriving DecidableEq, Repr

/-- A refusal: status alone (R149). -/
def refuse (st : Status) (s : State) : State × Answer := (s, .normal st [])

/-- The reply record of an answer (Table 11-8, R163): kind REPLY, and for the data form the word count in bits 7 to 4 of byte 2. -/
def replyRecord (s : State) (src : Node) (code req : Byte) : Answer → Record
  | .normal st result => ownRecord s src 0x02 code ([req, statusCode st] ++ result)
  | .data count bytes => ownRecord s src (BitVec.ofNat 8 (count * 16 + 2)) code bytes

/-- Place a reply at the tail of the reply queue (R147). -/
def placeReply (src : Node) (code req : Byte) (a : State × Answer) : State :=
  { a.1 with replies := a.1.replies ++ [replyRecord a.1 src code req a.2] }

/-! ## Taking (R147, R148) -/

/-- Execute a taken COMMAND: trust, then the rule that owns it, then the reply (R147). -/
def answerCommand (src : Node) (code req : Byte) (body : State → State × Answer) (s : State) : State :=
  placeReply src code req (if trusts s.config.managers src then body s else refuse .notPermitted s)

/-- Execute a taken cue that is answered: trust, then the rule that owns it, then the reply (R144, R147). -/
def answerCue (src : Node) (code req : Byte) (body : State → State × Answer) (s : State) : State :=
  placeReply src code req (if trusts s.config.cueSources src then body s else refuse .notPermitted s)

/-- A row of a COMMAND (log 2). Where the command stands at the head of the command queue, the row is its taking. Where it does not,
the row is its coming to the command unit: it joins the queue, and it is taken at once where the queue was empty. A command that
may not be taken yet waits. -/
def takeCommand (c : Instr) (src : Node) (req : Byte) (body : State → State × Answer) (s : State) : State :=
  let s := if s.cmdQueue.head? = some c then s else joinCommand c s
  if s.cmdQueue.head? = some c ∧ s.mayTake then answerCommand src (codeOf c) req body (leaveCommand s) else s

/-- A row of a CUE that is answered, by the same reading (log 2). -/
def takeCue (c : Instr) (src : Node) (req : Byte) (body : State → State × Answer) (s : State) : State :=
  let s := if s.cueQueue.head? = some c then s else joinCue c s
  if s.cueQueue.head? = some c ∧ s.mayTake then answerCue src (codeOf c) req body (leaveCue s) else s

/-- A MARKER row: it needs no room in the reply queue, it is not answered, and from a source that is not trusted it is dropped
(R144, R147). -/
def takeMarker (c : Instr) (src : Node) (body : State → State) (s : State) : State :=
  let s := if s.cueQueue.head? = some c then s else joinCue c s
  if s.cueQueue.head? = some c ∧ s.softResetFlag = false then
    if trusts s.config.cueSources src then body (leaveCue s) else leaveCue s
  else s

/-- Whether a row is a MARKER, which needs no reply. -/
def isMarker : Instr → Bool
  | .marker _ _ => true
  | _ => false

/-- What the command unit takes by itself: the head of the command queue, else the head of the cue queue, where it may be taken
(R147, log 3). -/
def State.nextTaken (s : State) : Option Instr :=
  match s.cmdQueue.head? with
  | some c => if s.mayTake then some c else s.cueQueue.head?.filter fun c => isMarker c && !s.softResetFlag
  | none => s.cueQueue.head?.filter fun c => if isMarker c then !s.softResetFlag else s.mayTake

end Sys2Proof.Machine
end

