-- ==== Sys2Proof/Machine/Admission.lean ====
section
/-! DEFINITION. The acceptance of calls (R84 to R87) and the admission gates: marker classes, opening, closing, the window and its
guard (R106 to R111). -/

namespace Sys2Proof.Machine

/-! ## Accepting a call -/

/-- The FREE record with the lowest index (R84); none when 16 calls are non-FREE. -/
def State.freeCall (s : State) : Option CallId := allCalls.find? fun c => (s.call c).state == .free

/-- Whether an id names a VALID entry (R86). -/
def State.validMessage (s : State) (id : MessageId) : Bool :=
  match s.messages[id] with
  | .valid _ _ => true
  | .loading _ _ _ => false
  | .free => false

/-- Take a record for an accepted call (R84, R85, R86). R86 and Table 5-2 set no tail remaining before TAIL and no live elapsed of a STORED
call; both are 0 here: the model's choice (DESIGN CHOICE, unsafe; log 50). -/
def acceptCall (c : CallId) (origin : Origin) (tag : Byte) (priority : Nat) (target : ZoneSet) (source : Source) (retain : Bool)
    (s : State) : State :=
  { modCall c (fun _ =>
      { state := .pending, origin := origin, tag := tag, priority := priority, target := target, source := source,
        retain := retain, arrival := s.arrivalCounter, pendingSince := s.now }) s with
    arrivalCounter := s.arrivalCounter + 1 }

/-- Place an ADMISSION_FAILED event: the gate, the reason, and the id that is not VALID or FFH (R108, Table 11-9). -/
def admissionFailed (g : GateId) (reason : Status) (id : Byte) (s : State) : State :=
  pushEvent s.config.eventNode 0x04 [BitVec.ofNat 8 g.val, statusCode reason, id] s

/-- A gate requests its admission call: accepted into a FREE record that the gate then names, or reported as failed (R87, R108). -/
def requestAdmission (g : GateId) (s : State) : State :=
  let r := s.gate g
  match s.freeCall with
  | none => admissionFailed g .full 0xFF s
  | some c =>
    match r.sequence.find? fun id => !s.validMessage id with
    | some id => admissionFailed g .badValue (BitVec.ofNat 8 id.val) s
    | none =>
      modGate g (fun r => { r with admissionCall := some c })
        (acceptCall c (.gate g) (BitVec.ofNat 8 g.val) r.priority r.mask (.stored r.sequence 1) false s)

/-! ## Gates -/

/-- The classes of a marker code for a gate (Table 6-2). -/
inductive MarkerClass where | open_ | close | bar | unbar | any | other
  deriving DecidableEq, Repr

/-- The class of a marker code: the first line of Table 6-2 that applies; a code of 0 matches no field (R106). -/
def Gate.classify (r : Gate) (code : Byte) : MarkerClass :=
  if code = 0 then .other
  else if code = r.open1 ∨ code = r.open2 then .open_
  else if code = r.close1 ∨ code = r.close2 then .close
  else if code = r.bar then .bar
  else if code = r.unbar then .unbar
  else if r.anyOpens then .any
  else .other

/-- Whether the reopen guard of a gate has passed (R111). -/
def Gate.guardPassed (r : Gate) (now : Nat) : Bool :=
  match r.lastClose with
  | none => true
  | some t => decide (r.reopenGuard * 1000 ≤ now - t)

/-- The opening of a gate (R108). -/
def openGate (g : GateId) (s : State) : State :=
  let s := modGate g (fun r => { r with state := .open_, windowDeadline := some (s.now + r.windowTime * 1000) }) s
  let s := issueLights g true s
  if (s.gate g).sequence = [] ∨ (s.gate g).mask = 0 then s else requestAdmission g s

/-- The restart of an OPEN gate's window (R109). -/
def restartWindow (g : GateId) (s : State) : State :=
  modGate g (fun r => { r with windowDeadline := some (s.now + r.windowTime * 1000) }) s

/-- Cancel the admission call of a closing gate where it is PENDING, WAKING or PLAYING (R110, step 3). -/
def cancelAdmission (g : GateId) (s : State) : State := whenSome (s.gate g).admissionCall cancelCall s

/-- The record of a gate that takes the closing path (R110, step 1). -/
def Gate.shut (r : Gate) (dest : GateState) (now : Nat) : Gate :=
  { r with state := dest, windowDeadline := none, lastClose := some now }

/-- The closing path (R110). -/
def closeGate (g : GateId) (dest : GateState) (s : State) : State :=
  cancelAdmission g (issueLights g false (modGate g (fun r => r.shut dest s.now) s))

/-- The effect of a class on a gate; `force` opens without the guard test (Table 6-3, R113). -/
def gateEffect (g : GateId) (k : MarkerClass) (force : Bool) (s : State) : State :=
  match (s.gate g).state, k with
  | .closed, .open_ => if force || (s.gate g).guardPassed s.now then openGate g s else s
  | .closed, .any => if (s.gate g).guardPassed s.now then openGate g s else s
  | .closed, .bar => modGate g (fun r => { r with state := .barred }) s
  | .closed, .close => s
  | .closed, .unbar => s
  | .closed, .other => s
  | .open_, .open_ => restartWindow g s
  | .open_, .any => restartWindow g s
  | .open_, .close => closeGate g .closed s
  | .open_, .bar => closeGate g .barred s
  | .open_, .unbar => s
  | .open_, .other => s
  | .barred, .unbar => modGate g (fun r => { r with state := .closed }) s
  | .barred, .open_ => s
  | .barred, .close => s
  | .barred, .bar => s
  | .barred, .any => s
  | .barred, .other => s

/-- A marker offered to one gate (R106, R107). -/
def offerMarker (g : GateId) (code : Byte) (s : State) : State := gateEffect g ((s.gate g).classify code) false s

/-- The window test of one gate (R109). -/
def windowTest (g : GateId) (s : State) : State :=
  if (s.gate g).state = .open_ then
    match (s.gate g).windowDeadline with
    | some d => if d ≤ s.now then closeGate g .closed s else s
    | none => s
  else s

end Sys2Proof.Machine
end

