-- ==== Sys2Proof/Machine/Cues.lean ====
section
/-! DEFINITION. The call cues CALL_START, CALL_END and CALL_CANCEL (R86, R88, R89) and cue codes that name nothing (R148). -/

namespace Sys2Proof.Machine

/-- The non-FREE EXTERNAL call that holds a tag (R84, R86). -/
def State.tagHolder (s : State) (tag : Byte) : Option CallId :=
  allCalls.find? fun c => (s.call c).state != .free && (s.call c).tag == tag && match (s.call c).origin with
    | .external _ => true
    | .gate _ => false

/-- The VALID message of an id byte (R86, step 4). -/
def State.validId (s : State) (b : Byte) : Option MessageId := (indexOf 64 b.toNat).filter s.validMessage

/-- The VALID messages of a list of id bytes, none where one of them names none. -/
def State.validIds (s : State) : List Byte → Option (List MessageId)
  | [] => some []
  | b :: rest =>
    match s.validId b, s.validIds rest with
    | some i, some l => some (i :: l)
    | some _, none => none
    | none, _ => none

/-- The source of a CALL_START and whether its repeat count was clamped, or none where R86's step 4 refuses it. -/
def State.callSource (s : State) (f : CallSource) : Option (Source × Bool) :=
  if f.code = 0 then
    if f.idCount.toNat < 1 ∨ 4 < f.idCount.toNat then none
    else (s.validIds (padTo f.idCount.toNat f.args)).map fun ids =>
      (.stored ids (clampTo 1 4 f.repeatCount.toNat), clamps 1 4 f.repeatCount.toNat)
  else if f.code = 1 then
    match indexOf 64 (byteAt f.args 0).toNat with
    | none => none
    | some slot =>
      if byteAt f.args 1 = 0xFF then some (.live slot none, false)
      else (s.validId (byteAt f.args 1)).map fun i => (.live slot (some i), false)
  else none

/-- The body of CALL_START (R86). -/
def callStartBody (src : Node) (tag : Byte) (priority : BitVec 3) (retain : Bool) (target : ZoneSet) (source : CallSource)
    (s : State) : State × Answer :=
  if s.service = .configuration then refuse .wrongState s
  else if (s.tagHolder tag).isSome then refuse .duplicate s
  else match s.freeCall with
    | none => refuse .full s
    | some c =>
      if target = 0 then refuse .badValue s
      else match s.callSource source with
        | none => refuse .badValue s
        | some p =>
          (acceptCall c (.external src) tag priority.toNat target p.1 retain s,
           .normal (if p.2 then .clamped else .ok) [BitVec.ofNat 8 c.val])

/-- CALL_START. -/
def execCallStart (src : Node) (req tag : Byte) (priority : BitVec 3) (retain : Bool) (target : ZoneSet) (source : CallSource)
    (s : State) : Host.Outcome State Fault Refusal :=
  .next (takeCue (.callStart src req tag priority retain target source) src req
    (callStartBody src tag priority retain target source) s)

/-- The cancel of an EXTERNAL call and its reply (Table 5-4). -/
def cancelAnswer (c : CallId) (s : State) : State × Answer :=
  if (s.call c).state = .tail then refuse .tooLate s else (cancelCall c s, .normal .ok [])

/-- The body of CALL_CANCEL (R88). -/
def callCancelBody (tag : Byte) (s : State) : State × Answer :=
  if s.service = .configuration then refuse .wrongState s
  else match s.tagHolder tag with
    | none => refuse .unknown s
    | some c => cancelAnswer c s

/-- CALL_CANCEL. -/
def execCallCancel (src : Node) (req tag : Byte) (s : State) : Host.Outcome State Fault Refusal :=
  .next (takeCue (.callCancel src req tag) src req (callCancelBody tag) s)

/-- The body of CALL_END (R89). -/
def callEndBody (tag : Byte) (s : State) : State × Answer :=
  if s.service = .configuration then refuse .wrongState s
  else match s.tagHolder tag with
    | none => refuse .unknown s
    | some c =>
      if (s.call c).source.isStored then refuse .badValue s
      else if (s.call c).state = .playing then (enterTail c none s, .normal .ok [])
      else cancelAnswer c s

/-- CALL_END. -/
def execCallEnd (src : Node) (req tag : Byte) (s : State) : Host.Outcome State Fault Refusal :=
  .next (takeCue (.callEnd src req tag) src req (callEndBody tag) s)

/-- UNKNOWN_CUE_CODE: BAD_KIND in either service state (R148; an untrusted source is log 18). -/
def execUnknownCueCode (src : Node) (req code : Byte) (s : State) : Host.Outcome State Fault Refusal :=
  .next (takeCue (.unknownCueCode src req code) src req (refuse .badKind) s)

end Sys2Proof.Machine
end

