-- ==== Sys2Proof/Machine/GateCommands.lean ====
section
/-! DEFINITION. GATE_FORCE (R113) and MARKER (R106, R107, R148). -/

namespace Sys2Proof.Machine

/-- The class a forced action stands for (R113). -/
def GateAction.markerClass : GateAction → MarkerClass
  | .open_ => .open_
  | .close => .close
  | .bar => .bar
  | .unbar => .unbar

/-- The body of GATE_FORCE (R113). The gate is checked before the action code: R113 orders neither, and the order is the model's choice
(DESIGN CHOICE, unsafe; log 54). -/
def gateForceBody (gate action : Byte) (s : State) : State × Answer :=
  if s.service = .configuration then refuse .wrongState s
  else match indexOf 2 gate.toNat with
    | none => refuse .badIndex s
    | some g =>
      match gateActionOf action with
      | none => refuse .badValue s
      | some a =>
        let t := gateEffect g a.markerClass true s
        (t, .normal .ok [gateStateCode (t.gate g).state])

/-- GATE_FORCE. -/
def execGateForce (src : Node) (req gate action : Byte) (s : State) : Host.Outcome State Fault Refusal :=
  .next (takeCommand (.gateForce src req gate action) src req (gateForceBody gate action) s)

/-- The body of MARKER: dropped in CONFIGURATION, else offered to gate 0 and then to gate 1 (R106, R148). -/
def markerBody (code : Byte) (s : State) : State :=
  if s.service = .service then offerMarker 1 code (offerMarker 0 code s) else s

/-- MARKER. -/
def execMarker (src : Node) (code : Byte) (s : State) : Host.Outcome State Fault Refusal :=
  .next (takeMarker (.marker src code) src (markerBody code) s)

end Sys2Proof.Machine
end

