-- ==== Sys2Proof/Machine/FrameOps.lean ====
section
/-! DEFINITION. What one frame does: the millisecond event and its timers (R133, R37, R40, R109, R121, R123), the intake of records
from port B (R139), telemetry (R35, R36, R38, R57 to R62), the filling of message areas (R140), and the sending of frames on both ports. -/

namespace Sys2Proof.Machine

/-! ## Timers at the millisecond -/

/-- Whether the lost time of an endpoint has passed (R37). -/
def State.endpointSilent (s : State) (e : EndpointId) : Bool :=
  (s.endpoint e).inUse && (s.endpoint e).presence != .absent &&
  match (s.endpoint e).lastTelemetry with
  | some t => decide (s.config.lost < s.now - t)
  | none => false

/-- An endpoint record that leaves for ABSENT (R37). -/
def Endpoint.leave (r : Endpoint) : Endpoint :=
  { r with presence := .absent, reported := .off, current := none, thermal := false, supplyLow := false, debounceStart := none }

/-- What an endpoint's leaving PRESENT causes: its zone's open-loop candidate ends (R61), ENDPOINT_LOST is observed present, and the
zone is dropped where it has stopped being deliverable or awake (R37, R98). The observation comes first, so that a swap it makes can
keep the zone (R126, log 25). -/
def loseEndpoint (e : EndpointId) (s : State) : State :=
  match s.zoneOfEndpoint e with
  | some z =>
    if (s.zone z).active = some e then checkDrop z (observe (endpointLostRef e) true (endCandidate z s))
    else observe (endpointLostRef e) true s
  | none => observe (endpointLostRef e) true s

/-- The presence test of one endpoint, in SERVICE (R37). -/
def presenceTest (e : EndpointId) (s : State) : State :=
  if s.service = .service ∧ s.endpointSilent e then
    let was := (s.endpoint e).presence
    let s := modEndpoint e Endpoint.leave s
    if was = .present then loseEndpoint e s else s
  else s

/-- The idle deadline test of one zone, in SERVICE (R40). -/
def idleTest (z : ZoneId) (s : State) : State :=
  if s.service = .service then
    match (s.zone z).idleDeadline with
    | some d => if d ≤ s.now then recommandZone z (modZone z (fun r => { r with idleDeadline := none }) s) else s
    | none => s
  else s

/-- The escalation test of every record (R121). -/
def escalationTests (s : State) : State :=
  withFaults (s.faults.mapAll fun _ r => if r.escalationOver s.now then r.endRun else r) s

/-- A retry timer one millisecond on (R123). -/
def FaultRecord.tickRetry (r : FaultRecord) : FaultRecord :=
  if r.state = .retryWait then { r with retryRemaining := r.retryRemaining.map (· - 1) } else r

/-- Whether a retry timer has reached 0. -/
def FaultRecord.retryDone (r : FaultRecord) : Bool := r.state == .retryWait && r.retryRemaining == some 0

/-- The retry timers of every RETRY_WAIT record decrease by one with the millisecond count, before any block takes the event. A record
that is raised at the same event therefore keeps its whole retry time (R123: no recovery before `t + R`). -/
def tickRetries (s : State) : State := withFaults (s.faults.mapAll fun _ r => r.tickRetry) s

/-- The retry timers that have reached 0 expire (R123). -/
def retryTests (s : State) : State := forEach (allFaults.filter fun f => (s.fault f).retryDone) expireRetry s

/-! ## Filling the message area (R140) -/

/-- Put waiting records into the free places, ascending; a free place that no record fills is EMPTY. Also the records left over. -/
def fillPlaces : List Record → List Record → List Record × List Record
  | [], q => ([], q)
  | r :: rs, q =>
    if recordEmpty r then
      match q with
      | d :: q' => (d :: (fillPlaces rs q').1, (fillPlaces rs q').2)
      | [] => (emptyRecord :: (fillPlaces rs []).1, (fillPlaces rs []).2)
    else (r :: (fillPlaces rs q).1, (fillPlaces rs q).2)

/-- The free places of a message area. -/
def freePlaces (rs : List Record) : Nat := (rs.filter recordEmpty).length

/-- The record of a waiting directive (Table 11-9). -/
def directiveRecord (s : State) (d : Directive) : Record := ownRecord s d.dest 0x06 (directiveCodeByte d.code) [d.value]

/-- A HOLD or RESUME record: to all nodes, code 0, zero payload (R140, R161). -/
def holdRecord (s : State) (m : HoldMark) : Record :=
  ownRecord s 127 (match m with
    | .hold => 0x07
    | .resume => 0x08) 0 []

/-- The claimants of a return frame in their order: hold and resume flag, replies, events (R140). -/
def State.returnClaimants (s : State) : List Record := (s.holdFlag.map (holdRecord s)).toList ++ s.replies ++ s.events

/-- Send a return frame on port A: the claimants fill its free places and leave their queues (R140). -/
def sendReturn (header : Header) (area : List Record) (s : State) : State :=
  let flagged := s.holdFlag.toList.length
  let free := freePlaces area
  { s with
    txA := some { header := header, records := (fillPlaces area s.returnClaimants).1 }
    holdFlag := if free = 0 then s.holdFlag else none
    replies := s.replies.drop (free - flagged)
    events := s.events.drop (free - flagged - s.replies.length) }

/-- A message area with all its places free. -/
def emptyArea : List Record := List.replicate Config.messagePlaces emptyRecord

/-- The header of a frame the part builds: its address as timing source, LOCAL set, the rest 0 (R136, R137, R160). -/
def builtHeader (s : State) (number : BitVec 16) : Header :=
  { number := number, timingSource := s.node.setWidth 8, flags := 1, reserved := 0 }

/-- Send a built return frame (R137). -/
def sendBuiltReturn (s : State) : State := sendReturn (builtHeader s s.frameCounter) emptyArea s

/-! ## Downstream frames on port B -/

/-- One of the blocks takes the millisecond event; the frame boundary also gives the hand-off (R133, log 4). -/
def runTask (ing : List (List Int)) (t : MsTask) (s : State × HandOff) : State × HandOff :=
  match t with
  | .presence => (forEach allEndpoints presenceTest s.1, s.2)
  | .idle => (forEach allZones idleTest s.1, s.2)
  | .windows => (forEach [0, 1] windowTest s.1, s.2)
  | .escalation => (escalationTests s.1, s.2)
  | .retry => (retryTests s.1, s.2)
  | .boundary => frameBoundary ing s.1
  | .returnFrame => (if s.1.portB = .locked then s.1 else sendBuiltReturn s.1, s.2)

/-- Every block takes the event. -/
def allTasks : List MsTask := [.presence, .idle, .windows, .escalation, .retry, .boundary, .returnFrame]

/-- The order in which the blocks take the event: the order given, each block once, with any it leaves out at the end (log 4). -/
def schedule (order : List MsTask) : List MsTask := order.eraseDups ++ allTasks.filter fun t => !order.contains t

/-- A downstream frame begins: the millisecond count increases and the frame counter takes the frame's number (R133, R134). -/
def beginFrame (number : BitVec 16) (s : State) : State := { s with now := s.now + 1, frameCounter := number }

/-- The millisecond event: the count increases, the frame counter takes the frame's number, the retry timers decrease, and every block
takes the event (R123, R133, R134). -/
def millisecond (number : BitVec 16) (ing : List (List Int)) (order : List MsTask) (s : State) : State × HandOff :=
  (schedule order).foldl (fun p t => runTask ing t p)
    (tickRetries (beginFrame number s), HandOff.silent)

/-- Place the waiting directives in a downstream frame and send it on port B (R140). -/
def sendDown (header : Header) (slots : List (List WireSample)) (area : List Record) (s : State) : State :=
  { s with
    txB := some { header := header, slots := slots, records := (fillPlaces area (s.directives.map (directiveRecord s))).1 }
    directives := s.directives.drop (freePlaces area) }

/-- A downstream frame on port B, from its beginning to its sending: millisecond event, mix event, AGC and VOX steps, slot map, message
area (R5, R90, R133, R140, R143). `arrived` is none for a frame the part generates. -/
def downstream (header : Header) (arrived : Option (List (List WireSample))) (area : List Record) (order : List MsTask) (s : State) :
    State :=
  let ing := ingressOf arrived
  let p := millisecond header.number ing order s
  let mixes := p.1.zoneMixes ing p.2
  let s := afterMixSteps p.2 mixes (mixEvent ing mixes p.1)
  sendDown header (s.egress arrived mixes) area s

/-- A substitute or locally timed frame (R136). -/
def generatedFrame (order : List MsTask) (s : State) : State :=
  downstream (builtHeader s (s.frameCounter + 1)) none emptyArea order s

/-! ## Records taken in (R138, R139) -/

/-- A frame's records with the places of those taken in made free. -/
def freed (n : Node) (rs : List Record) : List Record := rs.map fun r => if recordFor n r then emptyRecord else r

/-! ## Telemetry (R35 to R38, R57 to R62) -/

/-- The in-use endpoint that holds a node address (R35). -/
def State.endpointAt (s : State) (n : Node) : Option EndpointId :=
  allEndpoints.find? fun e => (s.endpoint e).inUse && (s.endpoint e).node == n

/-- The drive current of a telemetry payload: FFFFH is not measured, above 20000 is taken as 20000 (R35, Table 11-9). -/
def telemetryCurrent (p : List Byte) : Option Nat :=
  if word16 p 1 = 0xFFFF then none else some (min 20000 (word16 p 1).toNat)

/-- Presence after a telemetry arrival (Table 2-4). -/
def Endpoint.presenceAfter (r : Endpoint) (debounce now : Nat) : Presence :=
  match r.presence with
  | .absent => .debouncing
  | .debouncing =>
    match r.debounceStart with
    | some t => if debounce ≤ now - t then .present else .debouncing
    | none => .debouncing
  | .present => .present

/-- An endpoint record after steps 1 and 2 of a telemetry record (R35, R36). -/
def Endpoint.afterTelemetry (r : Endpoint) (debounce now : Nat) (reported : Power) (p : List Byte) : Endpoint :=
  { r with
    presence := r.presenceAfter debounce now
    debounceStart := if r.presence = .absent then some now else r.debounceStart
    lastTelemetry := some now
    reported := reported
    current := telemetryCurrent p
    thermal := (byteAt p 3).getLsbD 0
    supplyLow := (byteAt p 3).getLsbD 1 }

/-- Issue the current directives of an endpoint that became PRESENT, in R38's order. -/
def welcome (e : EndpointId) (s : State) : State :=
  if (s.endpoint e).role = .usherLight then
    let s := issuePower e s
    match indexOf 2 (s.endpoint e).place.val with
    | some g => issue e .light (flagByte ((s.gate g).state == .open_)) s
    | none => s
  else
    let s := issuePower e (issue e .listen (optIndexByte (s.listenSlot (s.endpoint e).place)) s)
    if (s.endpoint e).role = .descTx then
      whenSome (s.channelOf (s.endpoint e).place) (fun ch => issue e .channel (BitVec.ofNat 8 ch)) s
    else s

/-- An endpoint became PRESENT: ENDPOINT_LOST is observed absent, and its directives are issued (R38). -/
def becomePresent (e : EndpointId) (s : State) : State := welcome e (observe (endpointLostRef e) false s)

/-- The open-loop evaluation of Table 3-5: the candidate after a report, and what it observes, if anything (R60). -/
def LoopRecord.openLoop (l : LoopRecord) (current now : Nat) : Option Nat × Option Bool :=
  if l.openCurrent ≤ current then (none, some false)
  else if l.accumulator < l.openSignal then (l.candidate, none)
  else match l.candidate with
    | none => (some now, none)
    | some t => if l.openTime ≤ now - t then (some t, some true) else (some t, none)

/-- The loop processor's part of a report of a LOOP_AMP: the candidate and accumulator, and the OVERCURRENT and OPEN_LOOP observations
(Table 3-4, R58 to R61). -/
def loopReport (e : EndpointId) (z : ZoneId) (s : State) : State × Option Bool × Option Bool :=
  let r := s.zone z
  if r.enabled = false ∨ r.active ≠ some e then (s, some false, some false)
  else if r.kind ≠ .loop then (s, none, none)
  else match s.loopOf z with
    | none => (s, none, none)
    | some l =>
      let rec_ := s.loops[l]
      let suspended := r.protection = .muted ∨ r.testMode ≠ .none
      let exceeds := (s.endpoint e).current.map fun i => decide (rec_.overcurrent < i)
      if suspended then
        (modLoop l (fun x => { x with candidate := none, accumulator := 0 }) s, exceeds, some false)
      else match (s.endpoint e).current with
        | none => (modLoop l (fun x => { x with accumulator := 0 }) s, none, none)
        | some i =>
          let ev := rec_.openLoop i s.now
          (modLoop l (fun x => { x with candidate := ev.1, accumulator := 0 }) s, exceeds, ev.2)

/-- Hand over an observation where one was made. -/
def observeIf (f : FaultRef) (o : Option Bool) (s : State) : State := whenSome o (observe f) s

/-- Step 4 of a telemetry record: the observations of a PRESENT endpoint, evaluated first and then handed over in the order of their
kinds (R57 to R63, log 26). -/
def reportObservations (e : EndpointId) (s : State) : State :=
  let r := s.endpoint e
  let q := match r.role, s.zoneOfEndpoint e with
    | .loopAmp, some z => loopReport e z s
    | .loopAmp, none => (s, none, none)
    | .foyerAmp, _ => (s, none, none)
    | .descTx, _ => (s, none, none)
    | .loungeUnit, _ => (s, none, none)
    | .usherLight, _ => (s, none, none)
  observe (supplyLowRef e) r.supplyLow (observe (ampThermalRef e) r.thermal
    (observeIf (openLoopRef e) q.2.2 (observeIf (overcurrentRef e) q.2.1 q.1)))

/-- Step 5 of a telemetry record: the POWER re-issue test (R41). -/
def reissueTest (e : EndpointId) (s : State) : State :=
  let r := s.endpoint e
  if r.presence = .present ∧ r.reported ≠ r.commanded ∧
      (match r.lastPower with
        | none => true
        | some t => decide (Config.powerReissueTime ≤ s.now - t)) = true
  then issuePower e s else s

/-- A telemetry record taken for an endpoint (R35): presence and values, the drop of its zone where the report ends deliverability or
awakeness (R98), then steps 3 to 5. -/
def telemetryFor (e : EndpointId) (reported : Power) (p : List Byte) (s : State) : State :=
  let was := (s.endpoint e).presence
  let s := modEndpoint e (fun r => r.afterTelemetry s.config.debounce s.now reported p) s
  let s := match s.zoneOfEndpoint e with
    | some z => if (s.zone z).active = some e then checkDrop z s else s
    | none => s
  if (s.endpoint e).presence = .present then
    let s := if was = .present then s else becomePresent e s
    reissueTest e (reportObservations e s)
  else s

/-- A TELEMETRY record taken in from port B (R35): discarded in CONFIGURATION, from a node no endpoint holds, or with a power state that
names none. -/
def telemetry (r : Record) (s : State) : State :=
  if s.service = .service then
    match s.endpointAt (recordSource r), powerOf (byteAt r.payload 0) with
    | some e, some p => telemetryFor e p r.payload s
    | some _, none => s
    | none, _ => s
  else s

/-- Take in the records of a return frame from port B that are addressed to the part, in place order (R139). -/
def intakeB (rs : List Record) (s : State) : State :=
  forEach rs (fun r s => if recordFor s.node r ∧ recordKind r = 5 then telemetry r s else s) s

end Sys2Proof.Machine
end

