-- ==== Sys2Proof/Machine/Messages.lean ====
section
/-! DEFINITION. The message commands MSG_OPEN, MSG_DATA, MSG_CLOSE, MSG_DELETE and MSG_READ (R79 to R83, R163). -/

namespace Sys2Proof.Machine

/-- Put a directory entry (R78). -/
def setMessage (id : MessageId) (m : Message) (s : State) : State := { s with messages := s.messages.set id m }

/-- The id of a message number of six bits (R80, R83). -/
def idOf (id : BitVec 6) : MessageId := ⟨id.toNat, id.isLt⟩

/-- Whether a message of a length in words at a start page fits call memory (R79, step 3). -/
def messageFits (start length : Nat) : Bool :=
  decide (1 ≤ length ∧ length ≤ Config.memoryWords ∧ start ≤ 1023 ∧ start + pageCount length ≤ 1024)

/-- Whether some entry other than `id` occupies a page of the given extent (R79, step 4). -/
def State.pagesTaken (s : State) (id : MessageId) (start length : Nat) : Bool :=
  (List.finRange 64).any fun j => j != id && match s.messages[j].extent with
    | some x => pagesOverlap start length x.1 x.2.1
    | none => false

/-- The body of MSG_OPEN (R79). -/
def msgOpenBody (id : Byte) (startPage : BitVec 16) (length : BitVec 32) (s : State) : State × Answer :=
  match indexOf 64 id.toNat with
  | none => refuse .badIndex s
  | some i =>
    if s.messages[i] ≠ .free then refuse .busy s
    else if messageFits startPage.toNat length.toNat = false then refuse .badValue s
    else if s.pagesTaken i startPage.toNat length.toNat then refuse .duplicate s
    else (setMessage i (.loading startPage.toNat length.toNat 0) s, .normal .ok [])

/-- MSG_OPEN. -/
def execMsgOpen (src : Node) (req id : Byte) (startPage : BitVec 16) (length : BitVec 32) (s : State) :
    Host.Outcome State Fault Refusal :=
  .next (takeCommand (.msgOpen src req id startPage length) src req (msgOpenBody id startPage length) s)

/-- Write words in order from a write pointer; those beyond the length are discarded (R80). -/
def loadWords (start length : Nat) : List (BitVec 16) → Nat → Memory → Memory × Nat
  | [], p, m => (m, p)
  | w :: ws, p, m =>
    if p < length then loadWords start length ws (p + 1) (memWriteWord m (start * Config.pageWords + p) w)
    else loadWords start length ws p m

/-- The body of MSG_DATA (R80). -/
def msgDataBody (id : BitVec 6) (words : List (BitVec 16)) (s : State) : State × Answer :=
  match s.messages[idOf id] with
  | .loading start length pointer =>
    let r := loadWords start length words pointer s.mem
    (setMessage (idOf id) (.loading start length r.2) { s with mem := r.1 },
     .normal (if length < pointer + words.length then .clamped else .ok) (bigEndian 3 r.2))
  | .free => refuse .wrongState s
  | .valid _ _ => refuse .wrongState s

/-- MSG_DATA carries no request number; its reply carries 00H in its place (R163). -/
def execMsgData (src : Node) (id : BitVec 6) (words : List (BitVec 16)) (s : State) : Host.Outcome State Fault Refusal :=
  .next (takeCommand (.msgData src id words) src 0 (msgDataBody id words) s)

/-- The body of MSG_CLOSE (R81). -/
def msgCloseBody (id : Byte) (s : State) : State × Answer :=
  match indexOf 64 id.toNat with
  | none => refuse .badIndex s
  | some i =>
    match s.messages[i] with
    | .loading start length pointer =>
      if pointer = length then (setMessage i (.valid start length) s, .normal .ok (bigEndian 3 pointer))
      else (setMessage i .free s, .normal .badValue (bigEndian 3 pointer))
    | .free => refuse .wrongState s
    | .valid _ _ => refuse .wrongState s

/-- MSG_CLOSE. -/
def execMsgClose (src : Node) (req id : Byte) (s : State) : Host.Outcome State Fault Refusal :=
  .next (takeCommand (.msgClose src req id) src req (msgCloseBody id) s)

/-- Whether a source references a message (R82). -/
def Source.references (id : MessageId) : Source → Bool
  | .stored ids _ => ids.contains id
  | .live _ pre => pre == some id

/-- Whether a non-FREE call references a message (R82). -/
def State.referenced (s : State) (id : MessageId) : Bool :=
  allCalls.any fun c => (s.call c).state != .free && (s.call c).source.references id

/-- The body of MSG_DELETE (R82). -/
def msgDeleteBody (id : Byte) (s : State) : State × Answer :=
  match indexOf 64 id.toNat with
  | none => refuse .badIndex s
  | some i =>
    if s.messages[i] = .free then (s, .normal .ok [])
    else if s.referenced i then refuse .busy s
    else (setMessage i .free s, .normal .ok [])

/-- MSG_DELETE. -/
def execMsgDelete (src : Node) (req id : Byte) (s : State) : Host.Outcome State Fault Refusal :=
  .next (takeCommand (.msgDelete src req id) src req (msgDeleteBody id) s)

/-- The six words of a message from an offset; a word at or beyond the write pointer reads as 0 (R83). -/
def readWords (m : Memory) (start pointer offset : Nat) : List Byte :=
  (List.range 6).flatMap fun i =>
    bigEndian 2 (if offset + i < pointer then (messageWord m start (offset + i)).toNat else 0)

/-- The body of MSG_READ (R83, R163). -/
def msgReadBody (id : BitVec 6) (offset : BitVec 24) (s : State) : State × Answer :=
  match s.messages[idOf id].extent with
  | none => refuse .wrongState s
  | some x =>
    if x.2.2 ≤ offset.toNat then refuse .badValue s
    else (s, .data (min 6 (x.2.2 - offset.toNat)) (readWords s.mem x.1 x.2.2 offset.toNat))

/-- MSG_READ. -/
def execMsgRead (src : Node) (req : Byte) (id : BitVec 6) (offset : BitVec 24) (s : State) : Host.Outcome State Fault Refusal :=
  .next (takeCommand (.msgRead src req id offset) src req (msgReadBody id offset) s)

end Sys2Proof.Machine
end

