-- ==== Sys2Proof/Machine/Management.lean ====
section
/-! DEFINITION. COMMIT with its checks (R34, R154, R155), RECONFIGURE (R156) and CLEAR_FAULTS (R129, R130). -/

namespace Sys2Proof.Machine

/-! ## The checks of COMMIT and of an enable in SERVICE (R34, R52, R68, R105, R154) -/

/-- Whether the role of an endpoint agrees with the kind of a zone (R34). -/
def roleAgrees : ZoneKind → Role → Bool
  | .loop, r => r == .loopAmp
  | .desc, r => r == .descTx
  | .foyer, r => r == .foyerAmp
  | .lounge, r => r == .loungeUnit

/-- Whether an endpoint named by a zone is in use, names this zone, and has a role that agrees with the zone's kind (R34, check 1). -/
def State.endpointSuits (s : State) (z : ZoneId) (e : EndpointId) : Bool :=
  (s.endpoint e).inUse && (s.endpoint e).place == z && roleAgrees (s.zone z).kind (s.endpoint e).role

/-- The checks of one enabled zone: its endpoints (R34, check 1), its loop record (R52), its description record (R68). -/
def State.zoneReady (s : State) (z : ZoneId) : Bool :=
  (match (s.zone z).primary with
    | some e => s.endpointSuits z e
    | none => false) &&
  (match (s.zone z).standby with
    | some e => s.endpointSuits z e
    | none => true) &&
  ((s.zone z).kind != .loop || (s.loopOf z).isSome) && ((s.zone z).kind != .desc || (s.descOf z).isSome)

/-- R34, check 2, for an in-use endpoint that is no usher light. -/
def State.endpointListed (s : State) (e : EndpointId) : Bool :=
  ((s.zone (s.endpoint e).place).primary == some e || (s.zone (s.endpoint e).place).standby == some e) &&
  roleAgrees (s.zone (s.endpoint e).place).kind (s.endpoint e).role

/-- Whether an admission zone mask names LOUNGE and FOYER zones only (R105). -/
def State.admissionMaskOk (s : State) (m : ZoneSet) : Bool :=
  (zonesOf m).all fun z => (s.zone z).kind == .lounge || (s.zone z).kind == .foyer

/-- The first failure of the COMMIT checks: the table and the index it names (R154). -/
def State.commitFailure (s : State) : Option (Table × Nat) :=
  match allZones.find? fun z => (s.zone z).enabled && !s.zoneReady z with
  | some z => some (.zone, z.val)
  | none =>
    match allEndpoints.find? fun e =>
        (s.endpoint e).inUse && (s.endpoint e).role != .usherLight && !s.endpointListed e with
    | some e => some (.endpoint, e.val)
    | none => ([0, 1].find? fun g : GateId => !s.admissionMaskOk (s.gate g).mask).map fun g => (.gate, g.val)

/-- The answer BAD_CONFIG with its table and index (Table 11-8). -/
def refuseBadConfig (t : Table) (index : Nat) (s : State) : State × Answer :=
  (s, .normal .badConfig [BitVec.ofNat 8 (tableCode t), BitVec.ofNat 8 index])

/-! ## COMMIT (R155) -/

/-- The idle deadline of a zone at COMMIT and at its enable (R25, R28). -/
def Zone.startDeadline (r : Zone) (now : Nat) : Option Nat :=
  match r.idlePolicy with
  | .callsOnly => some (now + r.idleTime * 1000)
  | .alwaysOn => none

/-- A zone record at COMMIT, before its gains are set (R25). -/
def Zone.atCommit (now : Nat) (r : Zone) : Zone :=
  { r with testMode := .none, testLevel := 8192, suspended := false, side := .primary, idleDeadline := r.startDeadline now,
           protection := .normal }

/-- A loop record at COMMIT and at the enable of its zone: the last column of Table 3-2 (R53). -/
def LoopRecord.start (l : LoopRecord) : LoopRecord :=
  { l with agc := clampTo l.agcMin l.agcMax 16384, limited := false, saturated := false, candidate := none, accumulator := 0 }

/-- A description record's VOX state at COMMIT, RECONFIGURE and enable: the last column of Table 4-2 (R71). -/
def DescRecord.start (d : DescRecord) : DescRecord := { d with voxActive := false, holdRemaining := 0 }

/-- An endpoint record at COMMIT, before its commanded state is worked out (Table 2-3). -/
def Endpoint.atCommit (r : Endpoint) : Endpoint :=
  { r with presence := .absent, reported := .off, commanded := .off, debounceStart := none, lastTelemetry := none, lastPower := none,
           current := none, thermal := false, supplyLow := false }

/-- A gate record with its runtime fields at rest (R103). -/
def Gate.atRest (r : Gate) : Gate :=
  { r with state := .closed, windowDeadline := none, lastClose := none, admissionCall := none }

/-- Set every in-use endpoint's commanded state by Table 2-5, issuing nothing (R33). -/
def setCommanded (s : State) : State :=
  { s with endpoints := vmap (fun e => if (s.endpoint e).inUse then { s.endpoint e with commanded := s.commandedPower e }
                                       else s.endpoint e) (Vector.ofFn fun e : Fin 48 => e) }

/-- What COMMIT does to every block once its checks have passed (R155). No directive is issued and no event is queued. -/
def startService (s : State) : State :=
  let s := withFaults {} s
  let s := { s with
    zones := vmap (Zone.atCommit s.now) s.zones
    loops := vmap (fun l => if l.zone.isSome then l.start else l) s.loops
    descs := vmap (fun d => if d.zone.isSome then d.start else d) s.descs
    endpoints := vmap Endpoint.atCommit s.endpoints
    gates := vmap Gate.atRest s.gates
    calls := Vector.replicate 16 {}
    arrivalCounter := 0
    startCounter := 0
    service := .service }
  setCommanded (forEach (allZones.filter fun z => (s.zone z).enabled) setGains s)

/-- The body of COMMIT (R153, R154, R155). -/
def commitBody (s : State) : State × Answer :=
  if s.service = .service then refuse .wrongState s
  else match s.commitFailure with
    | some f => refuseBadConfig f.1 f.2 s
    | none => (startService s, .normal .ok [])

/-- COMMIT. -/
def execCommit (src : Node) (req : Byte) (s : State) : Host.Outcome State Fault Refusal :=
  .next (takeCommand (.commit src req) src req commitBody s)

/-! ## RECONFIGURE (R156) -/

/-- Step 1: a non-FREE call completes CANCELLED (R84). Its releases set the idle deadline of each released CALLS_ONLY zone to now plus
the idle time (R40), although R25 says that RECONFIGURE keeps the deadline: the model lets R40 act at these releases too (DESIGN
CHOICE, unsafe; log 45). -/
def cancelForReconfigure (c : CallId) (s : State) : State :=
  if (s.call c).state = .free then s else completeCall c .reconfigured s

/-- Step 2: an OPEN gate takes the closing path with its LIGHT off queued, a BARRED gate becomes CLOSED, and the gate comes to rest
(R103, R110). -/
def reconfigureGate (g : GateId) (s : State) : State :=
  modGate g Gate.atRest (if (s.gate g).state = .open_ then
    cancelAdmission g (queueLightsOff g (modGate g (fun r => r.shut .closed s.now) s)) else s)

/-- Step 4: an endpoint record at RECONFIGURE (R33). -/
def Endpoint.atReconfigure (r : Endpoint) : Endpoint :=
  { r with presence := .absent, commanded := .off, debounceStart := none, lastTelemetry := none, lastPower := none }

/-- Steps 3 to 5 (R156). -/
def stopService (s : State) : State :=
  { withFaults (s.faults.mapAll fun _ r => r.keepSticky) s with
    zones := vmap (fun r => { r with protection := .normal }) s.zones
    endpoints := vmap Endpoint.atReconfigure s.endpoints
    loops := vmap (fun l => { l with candidate := none, accumulator := 0 }) s.loops
    descs := vmap DescRecord.start s.descs
    service := .configuration }

/-- The body of RECONFIGURE (R153, R156). -/
def reconfigureBody (s : State) : State × Answer :=
  if s.service = .configuration then refuse .wrongState s
  else (stopService (forEach [0, 1] reconfigureGate (forEach allCalls cancelForReconfigure s)), .normal .ok [])

/-- RECONFIGURE. -/
def execReconfigure (src : Node) (req : Byte) (s : State) : Host.Outcome State Fault Refusal :=
  .next (takeCommand (.reconfigure src req) src req reconfigureBody s)

/-! ## CLEAR_FAULTS (R129, R130) -/

/-- The subjects a selector names (R129). -/
inductive Selector where
  | device
  | endpoint (e : EndpointId)
  | zone (z : ZoneId)
  | allEndpoints
  | allZones
  | all
  deriving DecidableEq, Repr

/-- The selector of a code and an index, or the status it is refused with (R129). -/
def selectorOf (code index : Byte) : Except Status Selector :=
  if code = 0 then .ok .device
  else if code = 1 then
    match indexOf 48 index.toNat with
    | some e => .ok (.endpoint e)
    | none => .error .badIndex
  else if code = 2 then
    match indexOf 32 index.toNat with
    | some z => .ok (.zone z)
    | none => .error .badIndex
  else if code = 3 then .ok .allEndpoints
  else if code = 4 then .ok .allZones
  else if code = 5 then .ok .all
  else .error .badValue

/-- Whether a selector names the subject of a record (R129). -/
def State.selects (s : State) (sel : Selector) (f : FaultRef) : Bool :=
  match sel, f with
  | .all, _ => true
  | .device, .device _ => true
  | .device, .endpoint _ _ => false
  | .device, .loop _ _ => false
  | .endpoint e, .endpoint e' _ => e == e'
  | .endpoint _, .loop _ _ => false
  | .endpoint _, .device _ => false
  | .zone z, .loop l _ => s.loops[l].zone == some z
  | .zone _, .endpoint _ _ => false
  | .zone _, .device _ => false
  | .allEndpoints, .endpoint _ _ => true
  | .allEndpoints, .loop _ _ => false
  | .allEndpoints, .device _ => false
  | .allZones, .loop _ _ => true
  | .allZones, .endpoint _ _ => false
  | .allZones, .device _ => false

/-- Whether a CLEAR_FAULTS selects a record: its subject is named and its kind is in the mask (R129). -/
def State.chosen (s : State) (sel : Selector) (mask : BitVec 16) (f : FaultRef) : Bool :=
  s.selects sel f && mask.getLsbD (faultKind f - 1)

/-- A selected record after the exchange (R130, steps 2 to 4). -/
def FaultRecord.exchanged (r : FaultRecord) : FaultRecord :=
  let leaves := (r.state == .latched || r.state == .reported) && !r.lastPresent
  let r := if leaves then { r with state := .clear, deglitch := 0, inForce := none, retryRemaining := none } else r
  { r with sticky := r.state.raised, escalation := 0, lastRecovery := none }

/-- Whether the exchange makes a record leave an actionable state (R130, step 5). -/
def FaultRecord.exchangeFrees (r : FaultRecord) : Bool := r.state == .latched && !r.lastPresent

/-- The set of kinds for which a test holds of some record, bit `k - 1` for kind `k` (R130, R131). -/
def kindMask (p : FaultRef → Bool) : BitVec 16 :=
  allFaults.foldl (fun m f => if p f then m ||| BitVec.twoPow 16 (faultKind f - 1) else m) 0

/-- The exchange (R130). -/
def exchangeFaults (sel : Selector) (mask : BitVec 16) (s : State) : State :=
  forEach allZones (fun z t =>
      match (s.zone z).active with
      | some e =>
        if (List.finRange 6).any fun k => s.chosen sel mask (.endpoint e k) && (s.fault (.endpoint e k)).exchangeFrees
        then deriveProtection z t else t
      | none => t)
    (withFaults (s.faults.mapAll fun f r => if s.chosen sel mask f then r.exchanged else r) s)

/-- What the reply of CLEAR_FAULTS carries: the kinds with a sticky flag and the number of sticky records (R130, step 1). -/
def State.stickyResult (s : State) (sel : Selector) (mask : BitVec 16) : List Byte :=
  let sticky := fun f => s.chosen sel mask f && (s.fault f).sticky
  bigEndian 2 (kindMask sticky).toNat ++ bigEndian 2 (allFaults.countP sticky)

/-- The body of CLEAR_FAULTS (R129, R130). -/
def clearFaultsBody (selector index : Byte) (mask : BitVec 16) (s : State) : State × Answer :=
  match selectorOf selector index with
  | .error st => refuse st s
  | .ok sel =>
    if mask.extractLsb' 0 11 = 0 then refuse .badValue s
    else (exchangeFaults sel mask s, .normal .ok (s.stickyResult sel mask))

/-- CLEAR_FAULTS. -/
def execClearFaults (src : Node) (req selector index : Byte) (mask : BitVec 16) (s : State) : Host.Outcome State Fault Refusal :=
  .next (takeCommand (.clearFaults src req selector index mask) src req (clearFaultsBody selector index mask) s)

/-! ## Codes that name nothing (R147) -/

/-- UNKNOWN_COMMAND_CODE: BAD_KIND, and nothing else changes (R147). -/
def execUnknownCommandCode (src : Node) (req code : Byte) (s : State) : Host.Outcome State Fault Refusal :=
  .next (takeCommand (.unknownCommandCode src req code) src req (refuse .badKind) s)

end Sys2Proof.Machine
end

