-- ==== Sys2Proof/Machine/Tables.lean ====
section
/-! DEFINITION. The TABLE_WRITE commands of ROUTE, SLOTMAP, ZONE, ENDPOINT, GATE, POLICY and CONFIG, and the first part of a long group
(R149, R161, R162 and each table's own rule). LOOP and DESC stand in ParamTables.lean. -/

namespace Sys2Proof.Machine

/-! ## The common policy (R149, R161, R162) -/

/-- The answer of a write that passed: the index written, CLAMPED where a field was clamped (Table 11-8). -/
def written (clamped : Bool) (index : Nat) (s : State) : State × Answer :=
  (s, .normal (if clamped then .clamped else .ok) [BitVec.ofNat 8 index])

/-- The checks that stand before a table's own checks of fields: index, group code, and no second-part mark on a group of ten bytes or fewer
(R149, R162; the order of index and group is log 29, the place of the mark log 16). None where the write passes them. They stand before the
match of a second part with its first as well: a second part of a long group whose index is outside the table is BAD_INDEX, not the
BAD_VALUE of one that matches nothing (DESIGN CHOICE, unsafe; log 49). -/
def preCheck (t : Table) (w : TableWrite) : Option Status :=
  if tableIndexOk t w.index.toNat = false then some .badIndex
  else if groupCount t ≤ w.group.toNat then some .badValue
  else if longGroup t w.group.toNat = false ∧ w.second then some .badValue
  else none

/-- A write under the common checks. -/
def checkedWrite (t : Table) (w : TableWrite) (body : State → State × Answer) (s : State) : State × Answer :=
  match preCheck t w with
  | some st => refuse st s
  | none => body s

/-- Whether the staged first part is that of a second part (R162). -/
def Staged.matches (p : Staged) (src : Node) (t : Table) (w : TableWrite) : Bool :=
  p.src == src && p.table.toNat == tableCode t && p.group == w.group && p.index == w.index

/-- A second part: joined with its first part and executed as one write, or BAD_VALUE where it matches nothing (R162). -/
def secondPart (src : Node) (t : Table) (w : TableWrite) (body : List Byte → State → State × Answer) (s : State) :
    State × Answer :=
  match s.staged with
  | some p => if p.matches src t w then body (padTo 10 p.data ++ w.data) { s with staged := none } else refuse .badValue s
  | none => refuse .badValue s

/-- The body of a first part: table, index and group are checked, then it replaces what was staged (R162). A table number that names
no table is BAD_TABLE. -/
def firstPartBody (src : Node) (table : BitVec 4) (w : TableWrite) (s : State) : State × Answer :=
  match tableOf table.toNat with
  | none => refuse .badTable s
  | some t =>
    checkedWrite t w (fun s =>
      if longGroup t w.group.toNat then
        ({ s with staged := some { src := src, table := table, group := w.group, index := w.index, data := padTo 10 w.data } },
         .normal .ok [1])
      else refuse .badValue s) s

/-- TABLE_WRITE_FIRST_PART. -/
def execTableWriteFirstPart (src : Node) (req : Byte) (table : BitVec 4) (w : TableWrite) (s : State) :
    Host.Outcome State Fault Refusal :=
  .next (takeCommand (.tableWriteFirstPart src req table w) src req (firstPartBody src table w) s)

/-! ## ROUTE (R9) -/

/-- Put a route entry. -/
def setRoute (i : Fin 128) (r : Route) (s : State) : State := { s with routes := s.routes.set i r }

/-- Another in-use entry that holds a slot and bus (R9). -/
def State.routeHolder (s : State) (i : Fin 128) (slot : Fin 64) (bus : Fin 32) : Option (Fin 128) :=
  (List.finRange 128).find? fun j => j != i && s.routes[j].inUse && s.routes[j].slot == slot && s.routes[j].bus == bus

/-- The three forms of a ROUTE write (R9). -/
def routeBody (i : Fin 128) (d : List Byte) (s : State) : State × Answer :=
  match flagOf (byteAt d 0) with
  | none => refuse .badValue s
  | some false => written false i.val (setRoute i {} s)
  | some true =>
    match indexOf 64 (byteAt d 1).toNat, indexOf 32 (byteAt d 2).toNat with
    | some slot, some bus =>
      match s.routeHolder i slot bus with
      | none => written false i.val (setRoute i { inUse := true, slot := slot, bus := bus, gain := (word16 d 3).toNat } s)
      | some j => written false j.val (setRoute j { s.routes[j] with gain := (word16 d 3).toNat } s)
    | some _, none => refuse .badValue s
    | none, _ => refuse .badValue s

/-- The body of ROUTE_WRITE. The index has seven bits and so lies within the table (R9). -/
def routeWriteBody (w : TableWrite) (s : State) : State × Answer :=
  checkedWrite .route w (routeBody ⟨w.index.toNat, w.index.isLt⟩ w.data) s

/-- ROUTE_WRITE. -/
def execRouteWrite (src : Node) (req : Byte) (w : TableWrite) (s : State) : Host.Outcome State Fault Refusal :=
  .next (takeCommand (.routeWrite src req w) src req (routeWriteBody w) s)

/-! ## SLOTMAP (R43, R143) -/

/-- A slot-map entry of its two bytes (R143). -/
def slotEntryOf (d : List Byte) : Option SlotEntry :=
  if byteAt d 0 = 0 then some .pass
  else if byteAt d 0 = 1 then some .silence
  else if byteAt d 0 = 2 then (indexOf 32 (byteAt d 1).toNat).map SlotEntry.zone
  else none

/-- A write of one entry; the LISTEN values are worked out anew (R43, R143). -/
def slotmapBody (i : Fin 64) (d : List Byte) (s : State) : State × Answer :=
  match slotEntryOf d with
  | some v => written false i.val (relisten s { s with slotMap := s.slotMap.set i v })
  | none => refuse .badValue s

/-- The body of SLOTMAP_WRITE (R143). -/
def slotmapWriteBody (w : TableWrite) (s : State) : State × Answer :=
  checkedWrite .slotmap w (fun s =>
    match indexOf 64 w.index.toNat with
    | some i => slotmapBody i w.data s
    | none => refuse .badIndex s) s

/-- SLOTMAP_WRITE. -/
def execSlotmapWrite (src : Node) (req : Byte) (w : TableWrite) (s : State) : Host.Outcome State Fault Refusal :=
  .next (takeCommand (.slotmapWrite src req w) src req (slotmapWriteBody w) s)

/-! ## ZONE (R26 to R28) -/

/-- How many zones of a kind are enabled, counting zone `z` as the given record (R26). -/
def State.enabledOfKind (s : State) (z : ZoneId) (new : Zone) (k : ZoneKind) : Nat :=
  allZones.countP fun y => let r := if y = z then new else s.zone y
    r.enabled && r.kind == k

/-- Whether a zone record would keep the kind limits (R26). -/
def State.withinLimits (s : State) (z : ZoneId) (new : Zone) : Bool :=
  decide (s.enabledOfKind z new .loop ≤ 8 ∧ s.enabledOfKind z new .desc ≤ 8 ∧ s.enabledOfKind z new .lounge ≤ 4)

/-- The disable of a zone in SERVICE (R28, R43, R61). -/
def disableZone (z : ZoneId) (s : State) : State :=
  recommandZone z (endCandidate z (modZone z (fun r => { r with enabled := false, testMode := .none, suspended := false }) s))

/-- The enable of a zone in SERVICE: active side, loop and VOX runtime, protection, then gains, idle deadline and commanded states
(R14, R28, R53, R71, R125). -/
def enableZone (z : ZoneId) (s : State) : State :=
  let s := modZone z (fun r => { r with enabled := true, side := .primary }) s
  let s := if (s.zone z).kind = .loop then whenSome (s.loopOf z) (fun l => modLoop l LoopRecord.start) s else s
  let s := if (s.zone z).kind = .desc then whenSome (s.descOf z) (fun d => modDesc d DescRecord.start) s else s
  let s := setGains z (deriveProtection z s)
  recommandZone z (modZone z (fun r => { r with idleDeadline := r.startDeadline s.now }) s)

/-- An assignment write in SERVICE that passed the checks of fields: enable and disable as R28 states, then the limits (R26). -/
def assignInService (z : ZoneId) (enabled : Bool) (bus : Fin 32) (s : State) : State × Answer :=
  let new := { s.zone z with enabled := enabled, bus := bus }
  let put := modZone z (fun r => { r with bus := bus }) s
  if enabled = (s.zone z).enabled then written false z.val put
  else if enabled = false then
    if (s.claimant z).isSome then refuse .busy s else written false z.val (relisten s (disableZone z put))
  else if s.zoneReady z = false then refuseBadConfig .zone z.val s
  else if s.withinLimits z new = false then refuse .limit s
  else written false z.val (relisten s (enableZone z put))

/-- The assignment group (R27). -/
def zoneAssignment (z : ZoneId) (d : List Byte) (s : State) : State × Answer :=
  if s.service = .service ∧ kindOf (byteAt d 1) ≠ some (s.zone z).kind then refuse .wrongState s
  else match flagOf (byteAt d 0), kindOf (byteAt d 1), indexOf 32 (byteAt d 2).toNat with
    | some enabled, some kind, some bus =>
      if s.service = .service then assignInService z enabled bus s
      else
        let new := { s.zone z with enabled := enabled, kind := kind, bus := bus }
        if s.withinLimits z new then written false z.val (modZone z (fun _ => new) s) else refuse .limit s
    | _, _, _ => refuse .badValue s

/-- The endpoints group (R27). The write leaves the active side as it is: where a RECONFIGURE has come after a swap, a write that removes
the standby endpoint leaves the zone on its STANDBY side until COMMIT or a swap sets it (R25, Table 2-1), although R45 has a zone
without a standby endpoint PRIMARY throughout: the model's choice (DESIGN CHOICE, unsafe; log 43). -/
def zoneEndpoints (z : ZoneId) (d : List Byte) (s : State) : State × Answer :=
  if s.service = .service then refuse .wrongState s
  else match endpointField (byteAt d 0), endpointField (byteAt d 1) with
    | some p, some b =>
      if b.isSome ∧ (p = none ∨ p = b) then refuse .badValue s
      else written false z.val (modZone z (fun r => { r with primary := p, standby := b }) s)
    | some _, none => refuse .badValue s
    | none, _ => refuse .badValue s

/-- A zone record after a write of its idle group (R40). -/
def Zone.withIdle (r : Zone) (p : IdlePolicy) (time now : Nat) : Zone :=
  { r with
    idlePolicy := p
    idleTime := time
    idleDeadline := match p, r.idlePolicy with
      | .alwaysOn, _ => none
      | .callsOnly, .alwaysOn => some (now + time * 1000)
      | .callsOnly, .callsOnly => r.idleDeadline }

/-- The idle group (R27, R40). -/
def zoneIdle (z : ZoneId) (d : List Byte) (s : State) : State × Answer :=
  let time := (word16 d 1).toNat
  match idlePolicyOf (byteAt d 0) with
  | none => refuse .badValue s
  | some p =>
    written (clamps 1 3600 time) z.val
      (recommandZone z (modZone z (fun r => r.withIdle p (clampTo 1 3600 time) s.now) s))

/-- The gains group; a duck step of 0 is clamped to 1 (R21, R27). -/
def zoneGains (z : ZoneId) (d : List Byte) (s : State) : State × Answer :=
  written (clamps 1 65535 (word16 d 6).toNat) z.val (modZone z (fun r => { r with
    trim := (word16 d 0).toNat
    callLevel := (word16 d 2).toNat
    callDuck := (word16 d 4).toNat
    duckStep := clampTo 1 65535 (word16 d 6).toNat
    reduceGain := (word16 d 8).toNat }) s)

/-- One group of a zone record. -/
def zoneBody (z : ZoneId) (g : BitVec 2) (d : List Byte) (s : State) : State × Answer :=
  if g = 0 then zoneAssignment z d s
  else if g = 1 then zoneEndpoints z d s
  else if g = 2 then zoneIdle z d s
  else zoneGains z d s

/-- The body of ZONE_WRITE (R27). -/
def zoneWriteBody (w : TableWrite) (s : State) : State × Answer :=
  checkedWrite .zone w (fun s =>
    match indexOf 32 w.index.toNat with
    | some z => zoneBody z w.group w.data s
    | none => refuse .badIndex s) s

/-- ZONE_WRITE. -/
def execZoneWrite (src : Node) (req : Byte) (w : TableWrite) (s : State) : Host.Outcome State Fault Refusal :=
  .next (takeCommand (.zoneWrite src req w) src req (zoneWriteBody w) s)

/-! ## ENDPOINT (R33, R118, R142) -/

/-- The place field of a role: a zone, or for an usher light a gate (R33). -/
def placeOf (r : Role) (b : Byte) : Option (Fin 32) :=
  (indexOf 32 b.toNat).filter fun p => r != .usherLight || decide (p.val < 2)

/-- Whether another in-use record holds a node address (R33). -/
def State.nodeHeld (s : State) (e : EndpointId) (n : Node) : Bool :=
  allEndpoints.any fun x => x != e && (s.endpoint x).inUse && (s.endpoint x).node == n

/-- The four configuration fields of an endpoint record (R33). The runtime fields stay (log 39). -/
def Endpoint.configured (r : Endpoint) (inUse : Bool) (node : Node) (role : Role) (place : Fin 32) : Endpoint :=
  { r with inUse := inUse, node := node, role := role, place := place }

/-- An ENDPOINT write that passed: the fields, the index's fault records at reset, its waiting directives removed (R33, R118,
R142). -/
def putEndpoint (e : EndpointId) (inUse : Bool) (node : Node) (role : Role) (place : Fin 32) (s : State) : State :=
  let s := modEndpoint e (fun r => r.configured inUse node role place) (dropDirectives e s)
  withFaults { s.faults with endpoint := s.faults.endpoint.set e (Vector.replicate 6 {}) } s

/-- An ENDPOINT write (R33). -/
def endpointBody (e : EndpointId) (d : List Byte) (s : State) : State × Answer :=
  if s.service = .service then refuse .wrongState s
  else match flagOf (byteAt d 0) with
    | none => refuse .badValue s
    | some false => written false e.val (putEndpoint e false 0 .foyerAmp 0 s)
    | some true =>
      let node := (byteAt d 1).toNat
      if node = 0 ∨ 127 ≤ node ∨ node = s.node.toNat then refuse .badValue s
      else match roleOf (byteAt d 2) with
        | none => refuse .badValue s
        | some role =>
          match placeOf role (byteAt d 3) with
          | none => refuse .badValue s
          | some place =>
            if s.nodeHeld e (BitVec.ofNat 7 node) then refuse .duplicate s
            else written false e.val (putEndpoint e true (BitVec.ofNat 7 node) role place s)

/-- The body of ENDPOINT_WRITE (R33). -/
def endpointWriteBody (w : TableWrite) (s : State) : State × Answer :=
  checkedWrite .endpoint w (fun s =>
    match indexOf 48 w.index.toNat with
    | some e => endpointBody e w.data s
    | none => refuse .badIndex s) s

/-- ENDPOINT_WRITE. -/
def execEndpointWrite (src : Node) (req : Byte) (w : TableWrite) (s : State) : Host.Outcome State Fault Refusal :=
  .next (takeCommand (.endpointWrite src req w) src req (endpointWriteBody w) s)

/-! ## GATE (R104, R105) -/

/-- Whether a code other than 0 stands in more than one of the six code fields (R104, step 3). -/
def codesRepeat (l : List Byte) : Bool :=
  match l with
  | [] => false
  | c :: rest => (c != 0 && rest.contains c) || codesRepeat rest

/-- The codes group (R104). -/
def gateCodes (g : GateId) (d : List Byte) (s : State) : State × Answer :=
  match flagOf (byteAt d 6) with
  | none => refuse .badValue s
  | some any =>
    if codesRepeat (padTo 6 d) then refuse .duplicate s
    else written false g.val (modGate g (fun r => { r with
      open1 := byteAt d 0, open2 := byteAt d 1, close1 := byteAt d 2, close2 := byteAt d 3, bar := byteAt d 4,
      unbar := byteAt d 5, anyOpens := any }) s)

/-- The timing group (R104, step 6). -/
def gateTiming (g : GateId) (d : List Byte) (s : State) : State × Answer :=
  let window := (word16 d 0).toNat
  let guard_ := (word16 d 2).toNat
  written (clamps 5 600 window || clamps 0 600 guard_) g.val
    (modGate g (fun r => { r with windowTime := clampTo 5 600 window, reopenGuard := clampTo 0 600 guard_ }) s)

/-- The admission group (R104, steps 4 to 6; R105). -/
def gateAdmission (g : GateId) (d : List Byte) (s : State) : State × Answer :=
  let n := (byteAt d 0).toNat
  let priority := (byteAt d 5).toNat
  if 4 < n ∨ (idsOf n (d.drop 1)).any Option.isNone then refuse .badValue s
  else if s.service = .service ∧ s.admissionMaskOk (word32 d 6) = false then refuseBadConfig .gate g.val s
  else written (clamps 0 7 priority) g.val (modGate g (fun r => { r with
    sequence := (idsOf n (d.drop 1)).filterMap id, priority := clampTo 0 7 priority, mask := word32 d 6 }) s)

/-- One group of a gate record. -/
def gateBody (g : GateId) (group : BitVec 2) (d : List Byte) (s : State) : State × Answer :=
  if group = 0 then gateCodes g d s
  else if group = 1 then gateTiming g d s
  else gateAdmission g d s

/-- The body of GATE_WRITE (R104). -/
def gateWriteBody (w : TableWrite) (s : State) : State × Answer :=
  checkedWrite .gate w (fun s =>
    match indexOf 2 w.index.toNat with
    | some g => gateBody g w.group w.data s
    | none => refuse .badIndex s) s

/-- GATE_WRITE. -/
def execGateWrite (src : Node) (req : Byte) (w : TableWrite) (s : State) : Host.Outcome State Fault Refusal :=
  .next (takeCommand (.gateWrite src req w) src req (gateWriteBody w) s)

/-! ## POLICY (R117, R124) -/

/-- Whether a kind's mode is clamped to REPORT: kinds 7 to 11 protect nothing (R117, step 3). -/
def modeClamped (kind : Nat) (m : PolicyMode) : Bool := decide (7 ≤ kind) && (m == .latched || m == .retry)

/-- A record whose kind becomes DISABLED (R124). -/
def FaultRecord.disabled (r : FaultRecord) : FaultRecord :=
  { r with state := .clear, deglitch := 0, inForce := none, retryRemaining := none, escalation := 0, lastRecovery := none }

/-- DISABLED acts at once on every record of the kind; for each that was actionable the protection of the zone concerned is derived
anew (R124). -/
def disableKind (k : Fin 11) (s : State) : State :=
  forEach (allFaults.filter fun f => policyIndex f == k && (s.fault f).state.actionable)
    (fun f t => whenSome (t.zoneConcerned f) deriveProtection t)
    (withFaults (s.faults.mapAll fun f r => if policyIndex f = k then r.disabled else r) s)

/-- A POLICY write of the entry with table index `k`, whose kind is `k + 1` (R117). -/
def policyBody (k : Fin 11) (d : List Byte) (s : State) : State × Answer :=
  match policyModeOf (byteAt d 0), policyActionOf (byteAt d 1) with
  | some m, some a =>
    let kind := k.val + 1
    let retry := (byteAt d 2).toNat
    let deglitch := (byteAt d 3).toNat
    let mode := if modeClamped kind m then .report else m
    let s := { s with policy := s.policy.set k ⟨mode, a, clampTo 1 255 retry, clampTo 1 16 deglitch⟩ }
    written (modeClamped kind m || clamps 1 255 retry || clamps 1 16 deglitch) kind
      (if mode = .disabled then disableKind k s else s)
  | some _, none => refuse .badValue s
  | none, _ => refuse .badValue s

/-- The body of POLICY_WRITE (R117). -/
def policyWriteBody (w : TableWrite) (s : State) : State × Answer :=
  checkedWrite .policy w (fun s =>
    match indexOf 11 (w.index.toNat - 1) with
    | some k => policyBody k w.data s
    | none => refuse .badIndex s) s

/-- POLICY_WRITE. -/
def execPolicyWrite (src : Node) (req : Byte) (w : TableWrite) (s : State) : Host.Outcome State Fault Refusal :=
  .next (takeCommand (.policyWrite src req w) src req (policyWriteBody w) s)

/-! ## CONFIG (R146, R150) -/

/-- The timing group: each field clamped into its range (Table 9-2). -/
def configTiming (d : List Byte) (s : State) : State × Answer :=
  let f := fun i => (word16 d i).toNat
  written (clamps 10 2000 (f 0) || clamps 20 1000 (f 2) || clamps 50 2000 (f 4) || clamps 0 2000 (f 6) || clamps 1 600 (f 8) ||
      clamps 1 600 (f 10)) 0
    { s with config := { s.config with
        debounce := clampTo 10 2000 (f 0), lost := clampTo 20 1000 (f 2), wakeTimeout := clampTo 50 2000 (f 4),
        tailTime := clampTo 0 2000 (f 6), liveMax := clampTo 1 600 (f 8), pendingMax := clampTo 1 600 (f 10) } }

/-- The event group (R150). -/
def configEvent (d : List Byte) (s : State) : State × Answer :=
  if 127 ≤ (byteAt d 0).toNat then refuse .badValue s
  else written false 0 { s with config := { s.config with eventNode := (byteAt d 0).setWidth 7 } }

/-- Four places of a trusted list from byte `i` (R144). -/
def nodesAt (d : List Byte) (i : Nat) : Vector Node 4 :=
  #v[(byteAt d i).setWidth 7, (byteAt d (i + 1)).setWidth 7, (byteAt d (i + 2)).setWidth 7, (byteAt d (i + 3)).setWidth 7]

/-- The trust group (R144, R150). -/
def configTrust (d : List Byte) (s : State) : State × Answer :=
  if (List.range 8).any fun i => decide (127 ≤ (byteAt d i).toNat) then refuse .badValue s
  else written false 0 { s with config := { s.config with managers := nodesAt d 0, cueSources := nodesAt d 4 } }

/-- A write that disables flow control while the state is HELD releases the console (R146). -/
def flowDisabled (s : State) : State :=
  if s.config.flowEnabled = false ∧ s.hold = .held then { s with hold := .running, holdFlag := some .resume } else s

/-- The flow group (R146, R150). -/
def configFlow (d : List Byte) (s : State) : State × Answer :=
  let level := (byteAt d 1).toNat
  let resume := (byteAt d 2).toNat
  match flagOf (byteAt d 0) with
  | none => refuse .badValue s
  | some on =>
    if clampTo 1 16 level ≤ clampTo 0 15 resume then refuse .badValue s
    else written (clamps 1 16 level || clamps 0 15 resume) 0 (flowDisabled { s with config := { s.config with
      flowEnabled := on, holdLevel := clampTo 1 16 level, resumeLevel := clampTo 0 15 resume } })

/-- One group of the CONFIG table; the timing group is long and comes in its second part (R162). -/
def configBody (src : Node) (w : TableWrite) (s : State) : State × Answer :=
  if w.group = 0 then secondPart src .config w configTiming s
  else if w.group = 1 then configEvent w.data s
  else if w.group = 2 then configTrust w.data s
  else configFlow w.data s

/-- The body of CONFIG_WRITE (R150). -/
def configWriteBody (src : Node) (w : TableWrite) (s : State) : State × Answer :=
  checkedWrite .config w (configBody src w) s

/-- CONFIG_WRITE. -/
def execConfigWrite (src : Node) (req : Byte) (w : TableWrite) (s : State) : Host.Outcome State Fault Refusal :=
  .next (takeCommand (.configWrite src req w) src req (configWriteBody src w) s)

end Sys2Proof.Machine
end

