-- ==== Sys2Proof/Machine/ParamTables.lean ====
section
/-! DEFINITION. The TABLE_WRITE commands of LOOP (R50, R51, R53) and DESC (R65 to R67, R76), whose records are bound to zones. -/

namespace Sys2Proof.Machine

/-! ## LOOP (R49 to R51, R53, R118) -/

/-- The free loop record with the lowest index (R50). -/
def State.freeLoop (s : State) : Option ParamId := (List.finRange 8).find? fun l => s.loops[l].zone.isNone

/-- Put a loop record and its two fault records at their reset values, bound to a zone or free (R50, R53, R118). -/
def resetLoop (l : ParamId) (z : Option ZoneId) (s : State) : State :=
  withFaults { s.faults with loop := s.faults.loop.set l (Vector.replicate 2 {}) } (modLoop l (fun _ => { zone := z }) s)

/-- The level group of 14 bytes, its fields clamped, and whether a field was clamped (R50, step 5). -/
def LoopRecord.withLevel (r : LoopRecord) (d : List Byte) : LoopRecord × Bool :=
  let t := (word24 d 0).toNat
  let w := (word24 d 3).toNat
  let a := (word16 d 6).toNat
  let b := (word16 d 8).toNat
  ({ r with target := clampTo 0 8388607 t, window := clampTo 0 8388607 w, attack := clampTo 1 4096 a, release := clampTo 1 4096 b,
            agcMin := (word16 d 10).toNat, agcMax := (word16 d 12).toNat },
   clamps 0 8388607 t || clamps 0 8388607 w || clamps 1 4096 a || clamps 1 4096 b)

/-- The AGC gain clamped into the range of the record (R51). -/
def LoopRecord.holdGain (r : LoopRecord) : LoopRecord := { r with agc := clampTo r.agcMin r.agcMax r.agc }

/-- The current group (R50, step 5). -/
def LoopRecord.withCurrent (r : LoopRecord) (d : List Byte) : LoopRecord × Bool :=
  let i := (word16 d 0).toNat
  let st := (word16 d 2).toNat
  let o := (word16 d 4).toNat
  ({ r with currentLimit := clampTo 0 20000 i, limitStep := clampTo 1 4096 st, overcurrent := clampTo 0 20000 o },
   clamps 0 20000 i || clamps 1 4096 st || clamps 0 20000 o)

/-- The open group (R50, step 5). -/
def LoopRecord.withOpen (r : LoopRecord) (d : List Byte) : LoopRecord × Bool :=
  let i := (word16 d 0).toNat
  let g := (word24 d 2).toNat
  let t := (word16 d 5).toNat
  ({ r with openCurrent := clampTo 0 20000 i, openSignal := clampTo 0 8388608 g, openTime := clampTo 100 5000 t },
   clamps 0 20000 i || clamps 0 8388608 g || clamps 100 5000 t)

/-- The loop record that a write for a zone goes to, bound first where none was, or none where all eight are bound (R50). -/
def bindLoop (z : ZoneId) (s : State) : Option (ParamId × State) :=
  match s.loopOf z with
  | some l => some (l, s)
  | none => s.freeLoop.map fun l => (l, resetLoop l (some z) s)

/-- Write a group into the loop record of a zone; `f` gives the new record and whether a field was clamped, or none for a group that
is refused BAD_VALUE (R50, steps 4 to 6). -/
def loopFields (z : ZoneId) (f : LoopRecord → Option (LoopRecord × Bool)) (s : State) : State × Answer :=
  match bindLoop z s with
  | none => refuse .full s
  | some b =>
    match f b.2.loops[b.1] with
    | none => refuse .badValue s
    | some r => written r.2 z.val (modLoop b.1 (fun _ => r.1) b.2)

/-- The release group (R50, step 3). -/
def loopRelease (z : ZoneId) (s : State) : State × Answer :=
  match s.loopOf z with
  | none => written false z.val s
  | some l =>
    if s.service = .service ∧ (s.zone z).enabled ∧ (s.zone z).kind = .loop then refuse .busy s
    else written false z.val (resetLoop l none s)

/-- The level group as a whole: none where the AGC minimum exceeds the AGC maximum (R50, step 6); a level write also clamps the AGC
gain (R51). -/
def levelAndGain (d : List Byte) (r : LoopRecord) : Option (LoopRecord × Bool) :=
  if (r.withLevel d).1.agcMax < (r.withLevel d).1.agcMin then none
  else some ((r.withLevel d).1.holdGain, (r.withLevel d).2)

/-- One group of a loop record; the level group is long and comes in its second part (R162). -/
def loopBody (src : Node) (w : TableWrite) (z : ZoneId) (s : State) : State × Answer :=
  if w.group = 0 then secondPart src .loop w (fun d => loopFields z (levelAndGain d)) s
  else if w.group = 1 then loopFields z (fun r => some (r.withCurrent w.data)) s
  else if w.group = 2 then loopFields z (fun r => some (r.withOpen w.data)) s
  else loopRelease z s

/-- The body of LOOP_WRITE (R50). -/
def loopWriteBody (src : Node) (w : TableWrite) (s : State) : State × Answer :=
  checkedWrite .loop w (fun s =>
    match indexOf 32 w.index.toNat with
    | some z => loopBody src w z s
    | none => refuse .badIndex s) s

/-- LOOP_WRITE. -/
def execLoopWrite (src : Node) (req : Byte) (w : TableWrite) (s : State) : Host.Outcome State Fault Refusal :=
  .next (takeCommand (.loopWrite src req w) src req (loopWriteBody src w) s)

/-! ## DESC (R64 to R67, R76) -/

/-- The free description record with the lowest index (R65). -/
def State.freeDesc (s : State) : Option ParamId := (List.finRange 8).find? fun d => s.descs[d].zone.isNone

/-- Whether a record bound to a zone other than `z` holds a channel (R65, step 8; R66). -/
def State.channelHeld (s : State) (z : ZoneId) (ch : Nat) : Bool :=
  (List.finRange 8).any fun d => match s.descs[d].zone with
    | some y => y != z && s.descs[d].channel == ch
    | none => false

/-- The lowest channel of 1 to 16 that no other bound record holds (R66). -/
def State.lowestChannel (s : State) (z : ZoneId) : Nat :=
  ((List.range 16).find? fun i => !s.channelHeld z (i + 1)).getD 0 + 1

/-- The description record that a write for a zone goes to, bound first where none was (R65, R66). -/
def bindDesc (z : ZoneId) (s : State) : Option (ParamId × State) :=
  match s.descOf z with
  | some d => some (d, s)
  | none => s.freeDesc.map fun d => (d, modDesc d (fun _ => { zone := some z, channel := s.lowestChannel z }) s)

/-- Write a group into the description record of a zone; a change of the zone's channel issues CHANNEL (R65, R76). -/
def descFields (z : ZoneId) (clamped : Bool) (f : DescRecord → DescRecord) (b : ParamId × State) (s : State) : State × Answer :=
  let t := modDesc b.1 f b.2
  written clamped z.val (if t.channelOf z = s.channelOf z then t else issueChannels z t)

/-- The voice group (R65, steps 4 and 5). -/
def descVoice (z : ZoneId) (d : List Byte) (s : State) : State × Answer :=
  match bindDesc z s with
  | none => refuse .full s
  | some b =>
    match indexOf 64 (byteAt d 0).toNat with
    | none => refuse .badValue s
    | some slot => descFields z false (fun r =>
        { r with voiceSlot := slot, voiceGain := (word16 d 1).toNat, voxDepth := (word16 d 3).toNat }) b s

/-- The vox group (R65, steps 4, 6 and 7; R67). -/
def descVox (z : ZoneId) (d : List Byte) (s : State) : State × Answer :=
  let on := (word24 d 0).toNat
  let off := (word24 d 3).toNat
  let hold := (word16 d 6).toNat
  match bindDesc z s with
  | none => refuse .full s
  | some b =>
    if clampTo 0 8388608 on < clampTo 0 8388608 off then refuse .badValue s
    else descFields z (clamps 0 8388608 on || clamps 0 8388608 off || clamps 0 5000 hold) (fun r =>
        { r with onThreshold := clampTo 0 8388608 on, offThreshold := clampTo 0 8388608 off, holdTime := clampTo 0 5000 hold,
                 holdRemaining := min r.holdRemaining (clampTo 0 5000 hold) }) b s

/-- The channel group (R65, steps 4, 5 and 8). -/
def descChannel (z : ZoneId) (d : List Byte) (s : State) : State × Answer :=
  let ch := (byteAt d 0).toNat
  match bindDesc z s with
  | none => refuse .full s
  | some b =>
    if ch < 1 ∨ 16 < ch then refuse .badValue s
    else if s.channelHeld z ch then refuse .duplicate s
    else descFields z false (fun r => { r with channel := ch }) b s

/-- The release group (R65, step 3). -/
def descRelease (z : ZoneId) (s : State) : State × Answer :=
  match s.descOf z with
  | none => written false z.val s
  | some d =>
    if s.service = .service ∧ (s.zone z).enabled ∧ (s.zone z).kind = .desc then refuse .busy s
    else written false z.val (modDesc d (fun _ => {}) s)

/-- One group of a description record. -/
def descBody (g : BitVec 2) (d : List Byte) (z : ZoneId) (s : State) : State × Answer :=
  if g = 0 then descVoice z d s
  else if g = 1 then descVox z d s
  else if g = 2 then descChannel z d s
  else descRelease z s

/-- The body of DESC_WRITE (R65). -/
def descWriteBody (w : TableWrite) (s : State) : State × Answer :=
  checkedWrite .desc w (fun s =>
    match indexOf 32 w.index.toNat with
    | some z => descBody w.group w.data z s
    | none => refuse .badIndex s) s

/-- DESC_WRITE. -/
def execDescWrite (src : Node) (req : Byte) (w : TableWrite) (s : State) : Host.Outcome State Fault Refusal :=
  .next (takeCommand (.descWrite src req w) src req (descWriteBody w) s)

end Sys2Proof.Machine
end

