-- ==== Sys2Proof/Machine/StatusRead.lean ====
section
/-! DEFINITION. STATUS_READ: the layouts of Table 11-6 and their parts of nine bytes (R152, R162). -/

namespace Sys2Proof.Machine

/-! ## Parts -/

/-- The number of nine-byte parts of a layout (R162). -/
def partCount (layout : List Byte) : Nat := (layout.length + 8) / 9

/-- The answer to a read of one part: the number of parts with the bound flag, then the part's nine bytes, or BAD_VALUE for a part
number at or beyond the number of parts (R162, Table 11-8). -/
def readPart (layout : List Byte) (part : Byte) (bound : Bool) (s : State) : State × Answer :=
  if part.toNat < partCount layout then
    (s, .normal .ok (BitVec.ofNat 8 (partCount layout * 16 + bound.toNat) :: padTo 9 (layout.drop (9 * part.toNat))))
  else refuse .badValue s

/-! ## Layouts (Table 11-6) -/

/-- The number of records in a state (R131). -/
def State.faultCount (s : State) (st : FaultState) : Nat := allFaults.countP fun f => (s.fault f).state == st

/-- The kinds with a sticky flag set on any record (R131). -/
def State.stickyKinds (s : State) : BitVec 16 := kindMask fun f => (s.fault f).sticky

/-- Class device, 29 bytes (R131, R141, R152). -/
def State.deviceStatus (s : State) (bus : Fin 32) : List Byte :=
  [serviceCode s.service, s.node.setWidth 8] ++ bigEndian 6 (capBytes 6 s.now) ++ bigEndian 2 s.frameCounter.toNat ++
  [portStateCode s.portA, portStateCode s.portB, BitVec.ofNat 8 s.cmdQueue.length, BitVec.ofNat 8 s.cueQueue.length,
   BitVec.ofNat 8 s.replies.length, BitVec.ofNat 8 s.events.length, BitVec.ofNat 8 s.directives.length, holdStateCode s.hold] ++
  bigEndian 3 s.busPeaks[bus] ++ [flagByte s.busClips[bus], flagByte s.alert] ++ bigEndian 2 (s.faultCount .latched) ++
  bigEndian 2 (s.faultCount .retryWait) ++ bigEndian 2 s.stickyKinds.toNat

/-- The loop bytes of the zone runtime (R53). -/
def LoopRecord.status (l : LoopRecord) (now : Nat) : List Byte :=
  bigEndian 2 l.agc ++ [flagByte l.limited, flagByte l.saturated, flagByte l.candidate.isSome] ++
  timeBytes 4 (l.candidate.map fun t => now - t) ++ bigEndian 3 l.accumulator

/-- The description bytes of the zone runtime (R74). -/
def DescRecord.status (d : DescRecord) (voicePeak : Nat) : List Byte :=
  [flagByte d.voxActive] ++ bigEndian 2 d.holdRemaining ++ bigEndian 3 voicePeak ++ List.replicate 6 0

/-- The first `n` kind bytes of a LOOP or DESC zone without a bound record: free values (log 21). -/
def unboundStatus (z : ZoneId) (n : Nat) : List Byte := (List.range n).map (Config.unboundRuntimeByte z)

/-- The last twelve bytes of the zone runtime. Of a DESC zone the last six are zero bytes, with a bound record or without (Table 11-6,
R74). -/
def State.kindStatus (s : State) (z : ZoneId) : List Byte :=
  match (s.zone z).kind with
  | .loop => match s.loopOf z with
    | some l => s.loops[l].status s.now
    | none => unboundStatus z 12
  | .desc => match s.descOf z with
    | some d => s.descs[d].status s.ingressPeaks[s.descs[d].voiceSlot]
    | none => unboundStatus z 6 ++ List.replicate 6 0
  | .foyer => List.replicate 12 0
  | .lounge => List.replicate 12 0

/-- Class zone runtime, 35 bytes (R20, R152). An idle deadline that has passed in CONFIGURATION, where it is kept and not tested, shows
0 ms: the model's choice, the spec gives no value (DESIGN CHOICE, unsafe; log 46). -/
def State.zoneStatus (s : State) (z : ZoneId) : List Byte :=
  let r := s.zone z
  [flagByte r.enabled, kindCode r.kind, testModeCode r.testMode] ++ bigEndian 2 r.testLevel ++
  [flagByte r.suspended, sideCode r.side] ++ timeBytes 4 (r.idleDeadline.map fun d => d - s.now) ++
  [optIndexByte (s.claimant z), protectionCode r.protection] ++ bigEndian 2 r.duckGain ++ bigEndian 2 r.voiceGain ++
  bigEndian 2 r.outputGain ++ bigEndian 3 r.peak ++ [flagByte r.clip] ++ s.kindStatus z

/-- Class endpoint runtime, 17 bytes: an index that is not in use shows the reset values (R152). -/
def State.endpointStatus (s : State) (e : EndpointId) : List Byte :=
  let r := if (s.endpoint e).inUse then s.endpoint e else {}
  [flagByte r.inUse, r.node.setWidth 8, presenceCode r.presence, powerCode r.reported, powerCode r.commanded] ++
  timeBytes 4 (r.lastTelemetry.map fun t => s.now - t) ++ timeBytes 4 (r.lastPower.map fun t => s.now - t) ++
  timeBytes 2 r.current ++ [flagByte r.thermal, flagByte r.supplyLow]

/-- The origin bytes of a call record: form, and requester node or gate. -/
def originBytes : Origin → List Byte
  | .external n => [0, n.setWidth 8]
  | .gate g => [1, BitVec.ofNat 8 g.val]

/-- The source bytes of a call record. The counts of a LIVE call are free values (log 20). -/
def sourceBytes : Source → List Byte
  | .stored ids n => [0, BitVec.ofNat 8 ids.length] ++ padTo 4 (ids.map fun i => BitVec.ofNat 8 i.val) ++ [BitVec.ofNat 8 n]
  | .live slot pre => [1, Config.liveIdCount, BitVec.ofNat 8 slot.val, optIndexByte pre, 0, 0, Config.liveRepeatCount]

/-- Class call record: 51 bytes and two for each zone delivered; a FREE record shows its state alone (R84, R152). -/
def State.callStatus (s : State) (c : CallId) : List Byte :=
  let r := s.call c
  if r.state = .free then [callStateCode .free]
  else
    [callStateCode r.state] ++ originBytes r.origin ++ [r.tag, BitVec.ofNat 8 r.priority] ++ bigEndian 4 r.target.toNat ++
    bigEndian 4 r.delivered.toNat ++ bigEndian 4 r.missed.toNat ++ sourceBytes r.source ++
    [flagByte r.retain, BitVec.ofNat 8 r.requeue] ++ bigEndian 4 r.arrival.toNat ++
    bigEndian 4 (r.startOrder.getD Config.undispatchedStartOrder).toNat ++
    [optIndexByte r.player, BitVec.ofNat 8 r.plays, BitVec.ofNat 8 r.position] ++ bigEndian 3 r.offset ++
    timeBytes 4 (some (s.now - r.pendingSince)) ++ timeBytes 4 (some r.liveElapsed) ++ timeBytes 2 (some r.tailRemaining) ++
    [(r.outcome.map outcomeCode).getD 0xFF] ++
    (zonesOf r.delivered).flatMap fun z => timeBytes 2 (r.wake[z].map fun d => d - s.now)

/-- What is left of a gate's reopen guard (R114). -/
def Gate.guardLeft (r : Gate) (now : Nat) : Nat :=
  match r.lastClose with
  | some t => r.reopenGuard * 1000 - (now - t)
  | none => 0

/-- Class gate, 12 bytes (R114). -/
def State.gateStatus (s : State) (g : GateId) : List Byte :=
  let r := s.gate g
  [gateStateCode r.state, flagByte (r.state == .open_)] ++ timeBytes 4 (r.windowDeadline.map fun d => d - s.now) ++
  timeBytes 4 (some (r.guardLeft s.now)) ++
  [optIndexByte r.admissionCall, (r.admissionCall.map fun c => callStateCode (s.call c).state).getD 0xFF]

/-- Class fault record, 13 bytes (R131). -/
def State.faultStatus (s : State) (f : FaultRef) : List Byte :=
  let r := s.fault f
  [faultStateCode r.state, BitVec.ofNat 8 r.deglitch, flagByte r.lastPresent, flagByte r.sticky,
   (r.inForce.map fun i => policyModeCode i.mode).getD 0xFF, (r.inForce.map fun i => policyActionCode i.action).getD 0xFF] ++
  timeBytes 2 r.retryRemaining ++ [BitVec.ofNat 8 r.escalation] ++ timeBytes 4 (r.lastRecovery.map fun t => s.now - t)

/-! ## The classes (R152) -/

/-- The layout of an index below `n`, or BAD_INDEX. -/
def indexed (n : Nat) (index : Byte) (layout : Fin n → List Byte) : Except Status (List Byte) :=
  match indexOf n index.toNat with
  | some i => .ok (layout i)
  | none => .error .badIndex

/-- The layout of a fault record of a subject that has the `n` kinds from `first` on (R131). -/
def faultLayout (s : State) (kind : Byte) (first n : Nat) (ref : Fin n → FaultRef) : Except Status (List Byte) :=
  if kind.toNat = 0 ∨ 11 < kind.toNat then .error .badIndex
  else if kind.toNat < first then .error .badValue
  else match indexOf n (kind.toNat - first) with
    | some k => .ok (s.faultStatus (ref k))
    | none => .error .badValue

/-- The layout of a class, or the status the read is refused with (R131, R152). The subject of a fault read is checked before its kind:
R131 orders neither, so that which of BAD_INDEX and BAD_VALUE refuses a read in which both fail is the model's choice (DESIGN CHOICE,
unsafe; log 48). -/
def State.statusLayout (s : State) (cls index kind : Byte) : Except Status (List Byte) :=
  if cls = 0 then indexed 32 index s.deviceStatus
  else if cls = 1 then indexed 32 index s.zoneStatus
  else if cls = 2 then indexed 48 index s.endpointStatus
  else if cls = 3 then indexed 16 index s.callStatus
  else if cls = 4 then indexed 2 index s.gateStatus
  else if cls = 5 then faultLayout s kind 9 3 .device
  else if cls = 6 then
    match indexOf 48 index.toNat with
    | some e => faultLayout s kind 1 6 (.endpoint e)
    | none => .error .badIndex
  else if cls = 7 then
    match (indexOf 32 index.toNat).bind s.loopOf with
    | some l => faultLayout s kind 7 2 (.loop l)
    | none => .error .badIndex
  else .error .badValue

/-- The body of STATUS_READ (R152, R162). Class, index and kind are checked before the part number: no rule orders the BAD_INDEX of R152 and
R131 and the BAD_VALUE of R162, and the order is the model's choice (DESIGN CHOICE, unsafe; log 56). -/
def statusReadBody (cls index kind part : Byte) (s : State) : State × Answer :=
  match s.statusLayout cls index kind with
  | .ok layout => readPart layout part false s
  | .error st => refuse st s

/-- STATUS_READ. -/
def execStatusRead (src : Node) (req cls index kind part : Byte) (s : State) : Host.Outcome State Fault Refusal :=
  .next (takeCommand (.statusRead src req cls index kind part) src req (statusReadBody cls index kind part) s)

end Sys2Proof.Machine
end

