-- ==== Sys2Proof/Machine/TableRead.lean ====
section
/-! DEFINITION. TABLE_READ: the groups of Table 11-5 as they are read (R151, R162). -/

namespace Sys2Proof.Machine

/-- Group 0 of ROUTE. -/
def Route.group (r : Route) : List Byte :=
  [flagByte r.inUse, BitVec.ofNat 8 r.slot.val, BitVec.ofNat 8 r.bus.val] ++ bigEndian 2 r.gain

/-- Group 0 of SLOTMAP; the zone byte of a PASS or SILENCE entry reads as 0 (R143). -/
def SlotEntry.group : SlotEntry → List Byte
  | .pass => [0, 0]
  | .silence => [1, 0]
  | .zone z => [2, BitVec.ofNat 8 z.val]

/-- The groups of ZONE: assignment, endpoints, idle, gains. -/
def Zone.group (r : Zone) (g : Nat) : List Byte :=
  match g with
  | 0 => [flagByte r.enabled, kindCode r.kind, BitVec.ofNat 8 r.bus.val]
  | 1 => [optIndexByte r.primary, optIndexByte r.standby]
  | 2 => [idlePolicyCode r.idlePolicy] ++ bigEndian 2 r.idleTime
  | _ => bigEndian 2 r.trim ++ bigEndian 2 r.callLevel ++ bigEndian 2 r.callDuck ++ bigEndian 2 r.duckStep ++ bigEndian 2 r.reduceGain

/-- The groups of LOOP that hold fields: level, current, open. -/
def LoopRecord.group (r : LoopRecord) (g : Nat) : List Byte :=
  match g with
  | 0 => bigEndian 3 r.target ++ bigEndian 3 r.window ++ bigEndian 2 r.attack ++ bigEndian 2 r.release ++ bigEndian 2 r.agcMin ++
      bigEndian 2 r.agcMax
  | 1 => bigEndian 2 r.currentLimit ++ bigEndian 2 r.limitStep ++ bigEndian 2 r.overcurrent
  | _ => bigEndian 2 r.openCurrent ++ bigEndian 3 r.openSignal ++ bigEndian 2 r.openTime

/-- The groups of DESC that hold fields: voice, vox, channel. -/
def DescRecord.group (r : DescRecord) (g : Nat) : List Byte :=
  match g with
  | 0 => [BitVec.ofNat 8 r.voiceSlot.val] ++ bigEndian 2 r.voiceGain ++ bigEndian 2 r.voxDepth
  | 1 => bigEndian 3 r.onThreshold ++ bigEndian 3 r.offThreshold ++ bigEndian 2 r.holdTime
  | _ => [BitVec.ofNat 8 r.channel]

/-- Group 0 of ENDPOINT. -/
def Endpoint.group (r : Endpoint) : List Byte :=
  [flagByte r.inUse, r.node.setWidth 8, roleCode r.role, BitVec.ofNat 8 r.place.val]

/-- The groups of GATE: codes, timing, admission. -/
def Gate.group (r : Gate) (g : Nat) : List Byte :=
  match g with
  | 0 => [r.open1, r.open2, r.close1, r.close2, r.bar, r.unbar, flagByte r.anyOpens]
  | 1 => bigEndian 2 r.windowTime ++ bigEndian 2 r.reopenGuard
  | _ => [BitVec.ofNat 8 r.sequence.length] ++ padTo 4 (r.sequence.map fun i => BitVec.ofNat 8 i.val) ++
      [BitVec.ofNat 8 r.priority] ++ bigEndian 4 r.mask.toNat

/-- Group 0 of POLICY. -/
def Policy.group (r : Policy) : List Byte :=
  [policyModeCode r.mode, policyActionCode r.action, BitVec.ofNat 8 r.retryTime, BitVec.ofNat 8 r.deglitch]

/-- The groups of CONFIG: timing, event, trust, flow. -/
def ConfigTable.group (r : ConfigTable) (g : Nat) : List Byte :=
  match g with
  | 0 => bigEndian 2 r.debounce ++ bigEndian 2 r.lost ++ bigEndian 2 r.wakeTimeout ++ bigEndian 2 r.tailTime ++
      bigEndian 2 r.liveMax ++ bigEndian 2 r.pendingMax
  | 1 => [r.eventNode.setWidth 8]
  | 2 => (r.managers.toList ++ r.cueSources.toList).map fun n => n.setWidth 8
  | _ => [flagByte r.flowEnabled, BitVec.ofNat 8 r.holdLevel, BitVec.ofNat 8 r.resumeLevel]

/-- A group of a loop record, of the reset values where no record is bound (R49). -/
def State.loopGroup (s : State) (i g : Nat) : List Byte :=
  match (indexOf 32 i).bind s.loopOf with
  | some l => s.loops[l].group g
  | none => LoopRecord.group {} g

/-- A group of a description record, of the reset values where no record is bound (R64). -/
def State.descGroup (s : State) (i g : Nat) : List Byte :=
  match (indexOf 32 i).bind s.descOf with
  | some d => s.descs[d].group g
  | none => DescRecord.group {} g

/-- The entry of a table at an index, none outside the table. -/
def entryAt {α : Type} {n : Nat} (v : Vector α n) (i : Nat) : Option α := v[i]?

/-- A group of a table entry as it stands (R151). -/
def State.tableGroup (s : State) (t : Table) (i g : Nat) : List Byte :=
  match t with
  | .route => ((entryAt s.routes i).map Route.group).getD []
  | .slotmap => ((entryAt s.slotMap i).map SlotEntry.group).getD []
  | .zone => ((entryAt s.zones i).map fun r => r.group g).getD []
  | .loop => s.loopGroup i g
  | .desc => s.descGroup i g
  | .endpoint => ((entryAt s.endpoints i).map Endpoint.group).getD []
  | .gate => ((entryAt s.gates i).map fun r => r.group g).getD []
  | .policy => ((entryAt s.policy (i - 1)).map Policy.group).getD []
  | .config => s.config.group g

/-- The bound flag of a LOOP or DESC read; other reads carry 0 (Table 11-8). -/
def State.boundFlag (s : State) (t : Table) (i : Nat) : Bool :=
  match t with
  | .loop => ((indexOf 32 i).bind s.loopOf).isSome
  | .desc => ((indexOf 32 i).bind s.descOf).isSome
  | .route => false
  | .slotmap => false
  | .zone => false
  | .endpoint => false
  | .gate => false
  | .policy => false
  | .config => false

/-- Whether a group code names a group with fields: the release groups of LOOP and DESC hold none (R151). -/
def readableGroup (t : Table) (g : Nat) : Bool := decide (g < groupCount t ∧ ¬ ((t = .loop ∨ t = .desc) ∧ g = 3))

/-- The body of TABLE_READ (R151, R162). The index is checked before the group (DEDUCED; log 29), and table, index and group before the part
number: no rule orders the refusals of R151 and the BAD_VALUE of R162, and that order is the model's choice (DESIGN CHOICE, unsafe; log 56).
-/
def tableReadBody (table index group part : Byte) (s : State) : State × Answer :=
  match tableOf table.toNat with
  | none => refuse .badTable s
  | some t =>
    if tableIndexOk t index.toNat = false then refuse .badIndex s
    else if readableGroup t group.toNat = false then refuse .badValue s
    else readPart (s.tableGroup t index.toNat group.toNat) part (s.boundFlag t index.toNat) s

/-- TABLE_READ. -/
def execTableRead (src : Node) (req table index group part : Byte) (s : State) : Host.Outcome State Fault Refusal :=
  .next (takeCommand (.tableRead src req table index group part) src req (tableReadBody table index group part) s)

end Sys2Proof.Machine
end

