-- ==== Sys2Proof/Machine/ZoneCommands.lean ====
section
/-! DEFINITION. TEST (R31), SUSPEND (R32) and SWAP (R48). -/

namespace Sys2Proof.Machine

/-- Give a zone a test mode and level; a mode other than NONE ends its open-loop candidate (R31, R61). -/
def setTest (mode : TestMode) (level : Nat) (z : ZoneId) (s : State) : State :=
  let s := modZone z (fun r => { r with testMode := mode, testLevel := level }) s
  if mode = .none then s else endCandidate z s

/-- What follows for one zone of the mask, `was` being its mode before: a claimed zone in a mode other than NONE is dropped, and a
change between NONE and another mode is followed by its endpoints' commanded states (R31). -/
def followTest (mode was : TestMode) (z : ZoneId) (s : State) : State :=
  let s := if mode = .none then s else dropZone z s
  if (was = .none) ↔ (mode = .none) then s else recommandZone z s

/-- The effect of a TEST that passes its checks (R31). -/
def testZones (mode : TestMode) (level : Nat) (mask : ZoneSet) (s : State) : State :=
  forEach (zonesOf mask) (fun z t => followTest mode (s.zone z).testMode z t) (forEach (zonesOf mask) (setTest mode level) s)

/-- The body of TEST (R31). Mode and mask are checked before the zones of the mask: R31 orders neither, so that BAD_VALUE answers a TEST
with both a mode code that names no mode and a disabled zone in its mask is the model's choice (DESIGN CHOICE, unsafe; log 54). -/
def testBody (mode : Byte) (level : BitVec 16) (mask : ZoneSet) (s : State) : State × Answer :=
  if s.service = .configuration then refuse .wrongState s
  else match testModeOf mode with
    | none => refuse .badValue s
    | some m =>
      if mask = 0 then refuse .badValue s
      else if (zonesOf mask).all fun z => (s.zone z).enabled then (testZones m level.toNat mask s, .normal .ok [])
      else refuse .badIndex s

/-- TEST. -/
def execTest (src : Node) (req mode : Byte) (level : BitVec 16) (mask : ZoneSet) (s : State) : Host.Outcome State Fault Refusal :=
  .next (takeCommand (.test src req mode level mask) src req (testBody mode level mask) s)

/-- Set or clear a zone's suspended flag; a zone that becomes suspended is dropped from its call (R32). -/
def setSuspended (on : Bool) (z : ZoneId) (s : State) : State :=
  if (s.zone z).suspended = on then s
  else
    let s := modZone z (fun r => { r with suspended := on }) s
    recommandZone z (if on then dropZone z s else s)

/-- An enabled zone of a byte, as SUSPEND and SWAP name it (R32, R48). -/
def State.enabledZone (s : State) (zone : Byte) : Option ZoneId :=
  (indexOf 32 zone.toNat).filter fun z => (s.zone z).enabled

/-- The body of SUSPEND (R32). The zone is checked before the setting, which is read as a flag byte of R161 (DEDUCED, unsafe; log 55). -/
def suspendBody (zone setting : Byte) (s : State) : State × Answer :=
  if s.service = .configuration then refuse .wrongState s
  else match s.enabledZone zone with
    | none => refuse .badIndex s
    | some z =>
      match flagOf setting with
      | none => refuse .badValue s
      | some on => (setSuspended on z s, .normal .ok [])

/-- SUSPEND. -/
def execSuspend (src : Node) (req zone setting : Byte) (s : State) : Host.Outcome State Fault Refusal :=
  .next (takeCommand (.suspend src req zone setting) src req (suspendBody zone setting) s)

/-- The body of SWAP (R48). R48 orders its refusals nowhere: that the first it names gives the reply is the model's choice (DESIGN CHOICE,
unsafe; log 54). -/
def swapBody (zone : Byte) (s : State) : State × Answer :=
  if s.service = .configuration then refuse .wrongState s
  else match s.enabledZone zone with
    | none => refuse .badIndex s
    | some z =>
      if (s.zone z).standby = none then refuse .badValue s
      else if s.swapCondition z then (swapZone z s, .normal .ok [])
      else refuse .busy s

/-- SWAP. -/
def execSwap (src : Node) (req zone : Byte) (s : State) : Host.Outcome State Fault Refusal :=
  .next (takeCommand (.swap src req zone) src req (swapBody zone) s)

end Sys2Proof.Machine
end

