-- ==== Sys2Proof/Machine/Intake.lean ====
section
/-! DEFINITION. SOFT_RESET (R157), the command unit serving its own queues (R147), and the intake of records from port A (R138). -/

namespace Sys2Proof.Machine

/-! ## SOFT_RESET (R157) -/

/-- The body of SOFT_RESET: status OK, and the soft-reset flag is set (R157). -/
def softResetBody (s : State) : State × Answer := ({ s with softResetFlag := true }, .normal .ok [])

/-- SOFT_RESET (R157). -/
def execSoftReset (src : Node) (req : Byte) (s : State) : Host.Outcome State Fault Refusal :=
  .next (takeCommand (.softReset src req) src req softResetBody s)

/-! ## The command unit serves its queues (R147) -/

/-- The state a meaning goes on in; no meaning of a COMMAND or CUE stops. -/
def goesOn (o : Host.Outcome State Fault Refusal) (s : State) : State :=
  match o with
  | .next t => t
  | .fault _ => s
  | .refused _ => s

/-- The taking of the record at the head of its queue: the meaning of its row. Only COMMAND and CUE rows stand in the queues. -/
def takeRow (c : Instr) (s : State) : State :=
  match c with
  | .powerOnReset _ => s
  | .softReset src req => goesOn (execSoftReset src req s) s
  | .softResetEffect _ => s
  | .downstreamFrameArrival _ _ => s
  | .badFrame _ => s
  | .portASilence _ => s
  | .localTimingFrame _ => s
  | .returnFrameArrival _ => s
  | .badReturnFrame => s
  | .portBSilence => s
  | .endpointLost _ => s
  | .idleDeadlineExpiry _ => s
  | .wakeDeadlineExpiry _ => s
  | .tailEnd _ => s
  | .pendingExpiry _ => s
  | .liveMaximum _ => s
  | .windowExpiry _ => s
  | .escalationReset _ => s
  | .retryExpiry _ => s
  | .commit src req => goesOn (execCommit src req s) s
  | .reconfigure src req => goesOn (execReconfigure src req s) s
  | .statusRead src req cls index kind part => goesOn (execStatusRead src req cls index kind part s) s
  | .clearFaults src req selector index mask => goesOn (execClearFaults src req selector index mask s) s
  | .test src req mode level mask => goesOn (execTest src req mode level mask s) s
  | .suspend src req zone setting => goesOn (execSuspend src req zone setting s) s
  | .swap src req zone => goesOn (execSwap src req zone s) s
  | .gateForce src req gate action => goesOn (execGateForce src req gate action s) s
  | .msgOpen src req id startPage length => goesOn (execMsgOpen src req id startPage length s) s
  | .msgData src id words => goesOn (execMsgData src id words s) s
  | .msgClose src req id => goesOn (execMsgClose src req id s) s
  | .msgDelete src req id => goesOn (execMsgDelete src req id s) s
  | .msgRead src req id offset => goesOn (execMsgRead src req id offset s) s
  | .tableRead src req table index group part => goesOn (execTableRead src req table index group part s) s
  | .tableWriteFirstPart src req table w => goesOn (execTableWriteFirstPart src req table w s) s
  | .routeWrite src req w => goesOn (execRouteWrite src req w s) s
  | .slotmapWrite src req w => goesOn (execSlotmapWrite src req w s) s
  | .zoneWrite src req w => goesOn (execZoneWrite src req w s) s
  | .loopWrite src req w => goesOn (execLoopWrite src req w s) s
  | .descWrite src req w => goesOn (execDescWrite src req w s) s
  | .endpointWrite src req w => goesOn (execEndpointWrite src req w s) s
  | .gateWrite src req w => goesOn (execGateWrite src req w s) s
  | .policyWrite src req w => goesOn (execPolicyWrite src req w s) s
  | .configWrite src req w => goesOn (execConfigWrite src req w s) s
  | .callStart src req tag priority retain target source => goesOn (execCallStart src req tag priority retain target source s) s
  | .callEnd src req tag => goesOn (execCallEnd src req tag s) s
  | .callCancel src req tag => goesOn (execCallCancel src req tag s) s
  | .marker src code => goesOn (execMarker src code s) s
  | .unknownCommandCode src req code => goesOn (execUnknownCommandCode src req code s) s
  | .unknownCueCode src req code => goesOn (execUnknownCueCode src req code s) s

/-- Take what may be taken, `n` records at most. -/
def serveUpTo : Nat → State → State
  | 0, s => s
  | n + 1, s =>
    match s.nextTaken with
    | some c => serveUpTo n (takeRow c s)
    | none => s

/-- The command unit takes its records whenever it may (R147): after a record has joined a queue, and after replies have left (log 7). -/
def serve (s : State) : State := serveUpTo (s.cmdQueue.length + s.cueQueue.length) s

/-! ## Intake from port A (R138) -/

/-- Whether a source node can be answered: not 0 and not 127 (R138). -/
def answerable (n : Node) : Bool := n != 0 && n != 127

/-- A record taken in from port A (R138). -/
def takeInA (r : Record) (s : State) : State :=
  if answerable (recordSource r) then
    if recordKind r = 1 then joinCommand (commandOf r) s
    else if recordKind r = 3 then joinCue (cueOf r) s
    else s
  else s

/-- Take in the records of a frame from port A that are addressed to the part, in place order (R138). The
command unit takes each as soon as it may, so that a frame with many commands fills the queue only while replies wait (R147,
section 9.7). -/
def intakeA (rs : List Record) (s : State) : State :=
  forEach rs (fun r s => if recordFor s.node r then serve (takeInA r s) else s) s

end Sys2Proof.Machine
end

