-- ==== Sys2Proof/Machine/Resets.lean ====
section
/-! DEFINITION. The resets (R132, R157, R158): the power-on reset, and the moment the soft reset takes effect. -/

namespace Sys2Proof.Machine

/-- The node address that the strap pins give (R132). -/
def strapAddress (straps : BitVec 7) : Node := if straps = 0 ∨ straps = 127 then 126 else straps

/-- POWER_ON_RESET: every block takes its reset values and the node address is sampled from the straps (R132, R158). The commands
that wait outside the part stay as they are. -/
def execPowerOnReset (straps : BitVec 7) (s : State) : Host.Outcome State Fault Refusal :=
  .next { State.reset with node := strapAddress straps, pending := s.pending }

/-- The soft reset takes effect: every block takes its reset values; the node address and the content of call memory are kept, and a
part that was HELD releases the console with RESUME (R157). What has left on the two ports is no state of a block (log 36). -/
def softReset (s : State) : State :=
  { State.reset with
    node := s.node
    mem := s.mem
    txA := s.txA
    txB := s.txB
    pending := s.pending
    holdFlag := if s.hold = .held then some .resume else none }

/-- Whether a pending soft reset takes effect at the next event that lets it: the SOFT_RESET reply, which is the youngest in its
queue, has been placed in a return frame (R157, log 15). -/
def State.softResetDue (s : State) : Bool := s.softResetFlag && s.replies.isEmpty

/-- A soft reset that is due takes effect before a frame from port A is handled (R157). -/
def resetBeforeFrame (s : State) : State := if s.softResetDue then softReset s else s

/-- The lock of port A at a well-formed frame: from LOST, CONSOLE_LINK_LOST is observed absent (R135). -/
def lockA (s : State) : State :=
  if s.portA = .lost then observe consoleLinkLostRef false { s with portA := .locked } else { s with portA := .locked }

/-- A well-formed frame from port A: the port locks, the records for the part are taken in, the frame is forwarded (R135, R138); then the
command unit takes what the replies that left make room for (R147). Where this frame takes a soft reset, a COMMAND that it brings is
taken before the frame's built return frame, which then carries its reply, while the Remark of R157 says that the first return frame
after the reset carries none: the model's choice (DESIGN CHOICE, unsafe; log 47). -/
def frameFromA (f : DownFrame) (order : List MsTask) (s : State) : State :=
  serve (downstream f.header (some f.slots) (freed s.node f.records) order (intakeA f.records (lockA s)))

/-- SOFT_RESET_EFFECT: at a well-formed frame on port A, which the reset part then handles, or at the next local timing event, which
then begins no frame (R157). Where no soft reset is due, or port A is not LOST for the latter, nothing takes effect. -/
def execSoftResetEffect (at_ : ResetEvent) (s : State) : Host.Outcome State Fault Refusal :=
  .next (if s.softResetDue then
    match at_ with
    | .frame f order => frameFromA f order (softReset s)
    | .localTiming => if s.portA = .lost then softReset s else s
  else s)

end Sys2Proof.Machine
end

