-- ==== Sys2Proof/Machine/Link.lean ====
section
/-! DEFINITION. The events of the venue link (Chapter 8): frames, bad frames and silence on both ports, and the local timing
generator. After each frame the command unit takes what the replies that left make room for (R147, log 7). -/

namespace Sys2Proof.Machine

/-- DOWNSTREAM_FRAME_ARRIVAL (R135, R138). A soft reset that is due takes effect first (R157). -/
def execDownstreamFrameArrival (f : DownFrame) (order : List MsTask) (s : State) : Host.Outcome State Fault Refusal :=
  .next (frameFromA f order (resetBeforeFrame s))

/-- BAD_FRAME: discarded whole; while port A is LOCKED a substitute frame is sent on port B in its place (R134, R135, R136). -/
def execBadFrame (order : List MsTask) (s : State) : Host.Outcome State Fault Refusal :=
  .next (if s.portA = .locked then serve (generatedFrame order s) else s)

/-- The local timing generator at the moment it would begin a frame: a soft reset that is due takes the event and no frame is begun,
otherwise a locally timed frame is sent (R136, R157). -/
def localTiming (order : List MsTask) (s : State) : State :=
  if s.softResetDue then softReset s else serve (generatedFrame order s)

/-- Port A becomes LOST: CONSOLE_LINK_LOST is observed present and the call unit is told (R96, R135). -/
def loseA (s : State) : State := sourceLoss (observe consoleLinkLostRef true { s with portA := .lost })

/-- PORT_A_SILENCE: the silence of port A reaches 3 ms; the first local frame is begun at that moment (R135, R136). A port that is
LOST already stays so. -/
def execPortASilence (order : List MsTask) (s : State) : Host.Outcome State Fault Refusal :=
  .next (if s.portA = .lost then s else localTiming order (loseA s))

/-- LOCAL_TIMING_FRAME: every 1 ms while port A is LOST (R136). The generator stands still otherwise. -/
def execLocalTimingFrame (order : List MsTask) (s : State) : Host.Outcome State Fault Refusal :=
  .next (if s.portA = .lost then localTiming order s else s)

/-- The lock of port B at a well-formed frame: from LOST, HOUSE_LINK_LOST is observed absent (R137). -/
def lockB (s : State) : State :=
  if s.portB = .lost then observe houseLinkLostRef false { s with portB := .locked } else { s with portB := .locked }

/-- RETURN_FRAME_ARRIVAL: the port locks, the records for the part are taken in, the frame is forwarded on port A (R137, R139). -/
def execReturnFrameArrival (f : RetFrame) (s : State) : Host.Outcome State Fault Refusal :=
  .next (serve (sendReturn f.header (freed s.node f.records) (intakeB f.records (lockB s))))

/-- BAD_RETURN_FRAME: discarded; while port B is LOCKED a built return frame is sent on port A in its place (R137). -/
def execBadReturnFrame (s : State) : Host.Outcome State Fault Refusal :=
  .next (if s.portB = .locked then serve (sendBuiltReturn s) else s)

/-- PORT_B_SILENCE: the silence of port B reaches 3 ms; HOUSE_LINK_LOST is observed present (R137). -/
def execPortBSilence (s : State) : Host.Outcome State Fault Refusal :=
  .next (if s.portB = .lost then s else observe houseLinkLostRef true { s with portB := .lost })

end Sys2Proof.Machine
end

