-- ==== Sys2Proof/Machine/Timers.lean ====
section
/-! DEFINITION. The timers, one subject at a time. A downstream frame runs every one of these tests at its millisecond event (R133); a
timer row runs the test of one subject at the present millisecond, and does nothing where the timer is not due (log 5). -/

namespace Sys2Proof.Machine

/-- ENDPOINT_LOST: the lost time of an endpoint has passed without telemetry (R37). -/
def execEndpointLost (e : EndpointId) (s : State) : Host.Outcome State Fault Refusal := .next (presenceTest e s)

/-- IDLE_DEADLINE_EXPIRY (R40). -/
def execIdleDeadlineExpiry (z : ZoneId) (s : State) : Host.Outcome State Fault Refusal := .next (idleTest z s)

/-- A frame-boundary test of the call unit: made in SERVICE only (R90). -/
def inService (f : State → State) (s : State) : State := if s.service = .service then f s else s

/-- WAKE_DEADLINE_EXPIRY: step 3 of the frame boundary for one call (R93). -/
def execWakeDeadlineExpiry (c : CallId) (s : State) : Host.Outcome State Fault Refusal := .next (inService (wakingTest c) s)

/-- TAIL_END: step 1 of the frame boundary for one call (R97). -/
def execTailEnd (c : CallId) (s : State) : Host.Outcome State Fault Refusal := .next (inService (tailTest c) s)

/-- PENDING_EXPIRY: step 4 of the frame boundary for one call (R99). -/
def execPendingExpiry (c : CallId) (s : State) : Host.Outcome State Fault Refusal := .next (inService (pendingTest c) s)

/-- LIVE_MAXIMUM: the part of step 2 of the frame boundary that R95 owns, for one call. -/
def execLiveMaximum (c : CallId) (s : State) : Host.Outcome State Fault Refusal := .next (inService (liveMaximumTest c) s)

/-- WINDOW_EXPIRY (R109). -/
def execWindowExpiry (g : GateId) (s : State) : Host.Outcome State Fault Refusal := .next (windowTest g s)

/-- ESCALATION_RESET: the escalation test of one record (R121). -/
def execEscalationReset (f : FaultRef) (s : State) : Host.Outcome State Fault Refusal :=
  .next (if (s.fault f).escalationOver s.now then setFault f (s.fault f).endRun s else s)

/-- RETRY_EXPIRY: a record in RETRY_WAIT whose retry remaining is 0 recovers, or starts its timer anew. A timer with time remaining, were
it 1 ms, has not run out: it decreases with the millisecond count, which is a frame's (R123). -/
def execRetryExpiry (f : FaultRef) (s : State) : Host.Outcome State Fault Refusal :=
  .next (if (s.fault f).retryDone then expireRetry f s else s)

end Sys2Proof.Machine
end

