-- ==== Sys2Proof/Machine/Dispatch.lean ====
section
/-! DEFINITION. One arm for each command of the block: its meaning, called by its full name. -/

namespace Sys2Proof.Machine

def exec (i : Instr) (s : State) : Host.Outcome State Fault Refusal :=
  match i with
  | .powerOnReset straps => Sys2Proof.Machine.execPowerOnReset straps s
  | .softReset src req => Sys2Proof.Machine.execSoftReset src req s
  | .softResetEffect at_ => Sys2Proof.Machine.execSoftResetEffect at_ s
  | .downstreamFrameArrival f order => Sys2Proof.Machine.execDownstreamFrameArrival f order s
  | .badFrame order => Sys2Proof.Machine.execBadFrame order s
  | .portASilence order => Sys2Proof.Machine.execPortASilence order s
  | .localTimingFrame order => Sys2Proof.Machine.execLocalTimingFrame order s
  | .returnFrameArrival f => Sys2Proof.Machine.execReturnFrameArrival f s
  | .badReturnFrame => Sys2Proof.Machine.execBadReturnFrame s
  | .portBSilence => Sys2Proof.Machine.execPortBSilence s
  | .endpointLost e => Sys2Proof.Machine.execEndpointLost e s
  | .idleDeadlineExpiry z => Sys2Proof.Machine.execIdleDeadlineExpiry z s
  | .wakeDeadlineExpiry c => Sys2Proof.Machine.execWakeDeadlineExpiry c s
  | .tailEnd c => Sys2Proof.Machine.execTailEnd c s
  | .pendingExpiry c => Sys2Proof.Machine.execPendingExpiry c s
  | .liveMaximum c => Sys2Proof.Machine.execLiveMaximum c s
  | .windowExpiry g => Sys2Proof.Machine.execWindowExpiry g s
  | .escalationReset f => Sys2Proof.Machine.execEscalationReset f s
  | .retryExpiry f => Sys2Proof.Machine.execRetryExpiry f s
  | .commit src req => Sys2Proof.Machine.execCommit src req s
  | .reconfigure src req => Sys2Proof.Machine.execReconfigure src req s
  | .statusRead src req cls index kind part => Sys2Proof.Machine.execStatusRead src req cls index kind part s
  | .clearFaults src req selector index mask => Sys2Proof.Machine.execClearFaults src req selector index mask s
  | .test src req mode level mask => Sys2Proof.Machine.execTest src req mode level mask s
  | .suspend src req zone setting => Sys2Proof.Machine.execSuspend src req zone setting s
  | .swap src req zone => Sys2Proof.Machine.execSwap src req zone s
  | .gateForce src req gate action => Sys2Proof.Machine.execGateForce src req gate action s
  | .msgOpen src req id startPage length => Sys2Proof.Machine.execMsgOpen src req id startPage length s
  | .msgData src id words => Sys2Proof.Machine.execMsgData src id words s
  | .msgClose src req id => Sys2Proof.Machine.execMsgClose src req id s
  | .msgDelete src req id => Sys2Proof.Machine.execMsgDelete src req id s
  | .msgRead src req id offset => Sys2Proof.Machine.execMsgRead src req id offset s
  | .tableRead src req table index group part => Sys2Proof.Machine.execTableRead src req table index group part s
  | .tableWriteFirstPart src req table w => Sys2Proof.Machine.execTableWriteFirstPart src req table w s
  | .routeWrite src req w => Sys2Proof.Machine.execRouteWrite src req w s
  | .slotmapWrite src req w => Sys2Proof.Machine.execSlotmapWrite src req w s
  | .zoneWrite src req w => Sys2Proof.Machine.execZoneWrite src req w s
  | .loopWrite src req w => Sys2Proof.Machine.execLoopWrite src req w s
  | .descWrite src req w => Sys2Proof.Machine.execDescWrite src req w s
  | .endpointWrite src req w => Sys2Proof.Machine.execEndpointWrite src req w s
  | .gateWrite src req w => Sys2Proof.Machine.execGateWrite src req w s
  | .policyWrite src req w => Sys2Proof.Machine.execPolicyWrite src req w s
  | .configWrite src req w => Sys2Proof.Machine.execConfigWrite src req w s
  | .callStart src req tag priority retain target source => Sys2Proof.Machine.execCallStart src req tag priority retain target source s
  | .callEnd src req tag => Sys2Proof.Machine.execCallEnd src req tag s
  | .callCancel src req tag => Sys2Proof.Machine.execCallCancel src req tag s
  | .marker src code => Sys2Proof.Machine.execMarker src code s
  | .unknownCommandCode src req code => Sys2Proof.Machine.execUnknownCommandCode src req code s
  | .unknownCueCode src req code => Sys2Proof.Machine.execUnknownCueCode src req code s

end Sys2Proof.Machine
end

