-- ==== Sys2Proof/Machine/Step.lean ====
section
/-! DEFINITION. One step of the block: the first waiting command is taken; with none waiting the command unit serves its own queues, or
the block idles. -/

namespace Sys2Proof.Machine

/-- One step. A waiting command is executed with the rest still waiting. With none waiting, the command unit takes what stands at the
head of its command queue, else of its cue queue, where it may (R147, log 3), and otherwise the block idles. -/
def step (s : State) : Host.Outcome State Fault Refusal :=
  match s.pending with
  | c :: rest => exec c { s with pending := rest }
  | [] =>
    match s.nextTaken with
    | some c => exec c s
    | none => .next s

/-- A state with the command that a word spells at the front of its queue; unchanged where the word spells none. -/
def State.withFetchWord (s : State) (nbits w : Nat) : State :=
  match decodeTableWord nbits w with
  | some c => { s with pending := c :: s.pending }
  | none => s

end Sys2Proof.Machine
end

