-- ==== Sys2Proof/Safety.lean ====
section
/-! DEFINITION. The terms in which claims are made: what a command or cue needs to be taken, the reply it gets, what part of the state
an effect may touch, and the invariants of the part. -/

namespace Sys2Proof.Machine

/-! ## Taking (R144, R147) -/

/-- The source and request number of a COMMAND row; none for the other rows. MSG_DATA carries no request number, and its reply shows
00H (R163). -/
def commandSender : Instr → Option (Node × Byte)
  | .softReset src req => some (src, req)
  | .commit src req => some (src, req)
  | .reconfigure src req => some (src, req)
  | .statusRead src req _ _ _ _ => some (src, req)
  | .clearFaults src req _ _ _ => some (src, req)
  | .test src req _ _ _ => some (src, req)
  | .suspend src req _ _ => some (src, req)
  | .swap src req _ => some (src, req)
  | .gateForce src req _ _ => some (src, req)
  | .msgOpen src req _ _ _ => some (src, req)
  | .msgData src _ _ => some (src, 0)
  | .msgClose src req _ => some (src, req)
  | .msgDelete src req _ => some (src, req)
  | .msgRead src req _ _ => some (src, req)
  | .tableRead src req _ _ _ _ => some (src, req)
  | .tableWriteFirstPart src req _ _ => some (src, req)
  | .routeWrite src req _ => some (src, req)
  | .slotmapWrite src req _ => some (src, req)
  | .zoneWrite src req _ => some (src, req)
  | .loopWrite src req _ => some (src, req)
  | .descWrite src req _ => some (src, req)
  | .endpointWrite src req _ => some (src, req)
  | .gateWrite src req _ => some (src, req)
  | .policyWrite src req _ => some (src, req)
  | .configWrite src req _ => some (src, req)
  | .unknownCommandCode src req _ => some (src, req)
  | .callStart _ _ _ _ _ _ _ => none
  | .callEnd _ _ _ => none
  | .callCancel _ _ _ => none
  | .marker _ _ => none
  | .unknownCueCode _ _ _ => none
  | .powerOnReset _ => none
  | .softResetEffect _ => none
  | .downstreamFrameArrival _ _ => none
  | .badFrame _ => none
  | .portASilence _ => none
  | .localTimingFrame _ => none
  | .returnFrameArrival _ => none
  | .badReturnFrame => none
  | .portBSilence => none
  | .endpointLost _ => none
  | .idleDeadlineExpiry _ => none
  | .wakeDeadlineExpiry _ => none
  | .tailEnd _ => none
  | .pendingExpiry _ => none
  | .liveMaximum _ => none
  | .windowExpiry _ => none
  | .escalationReset _ => none
  | .retryExpiry _ => none

/-- The source and request number of a row of a cue that is answered; none for the other rows, MARKER among them. -/
def cueSender : Instr → Option (Node × Byte)
  | .callStart src req _ _ _ _ _ => some (src, req)
  | .callEnd src req _ => some (src, req)
  | .callCancel src req _ => some (src, req)
  | .unknownCueCode src req _ => some (src, req)
  | .marker _ _ => none
  | .softReset _ _ => none
  | .commit _ _ => none
  | .reconfigure _ _ => none
  | .statusRead _ _ _ _ _ _ => none
  | .clearFaults _ _ _ _ _ => none
  | .test _ _ _ _ _ => none
  | .suspend _ _ _ _ => none
  | .swap _ _ _ => none
  | .gateForce _ _ _ _ => none
  | .msgOpen _ _ _ _ _ => none
  | .msgData _ _ _ => none
  | .msgClose _ _ _ => none
  | .msgDelete _ _ _ => none
  | .msgRead _ _ _ _ => none
  | .tableRead _ _ _ _ _ _ => none
  | .tableWriteFirstPart _ _ _ _ => none
  | .routeWrite _ _ _ => none
  | .slotmapWrite _ _ _ => none
  | .zoneWrite _ _ _ => none
  | .loopWrite _ _ _ => none
  | .descWrite _ _ _ => none
  | .endpointWrite _ _ _ => none
  | .gateWrite _ _ _ => none
  | .policyWrite _ _ _ => none
  | .configWrite _ _ _ => none
  | .unknownCommandCode _ _ _ => none
  | .powerOnReset _ => none
  | .softResetEffect _ => none
  | .downstreamFrameArrival _ _ => none
  | .badFrame _ => none
  | .portASilence _ => none
  | .localTimingFrame _ => none
  | .returnFrameArrival _ => none
  | .badReturnFrame => none
  | .portBSilence => none
  | .endpointLost _ => none
  | .idleDeadlineExpiry _ => none
  | .wakeDeadlineExpiry _ => none
  | .tailEnd _ => none
  | .pendingExpiry _ => none
  | .liveMaximum _ => none
  | .windowExpiry _ => none
  | .escalationReset _ => none
  | .retryExpiry _ => none

/-- A command stands at the head of the command queue, it may be taken, and its source is trusted (R144, R147). -/
abbrev State.commandReady (s : State) (c : Instr) (src : Node) : Prop :=
  s.cmdQueue.head? = some c ∧ s.mayTake = true ∧ trusts s.config.managers src = true

/-- A cue that is answered stands at the head of the cue queue, it may be taken, and its source is trusted (R144, R147). -/
abbrev State.cueReady (s : State) (c : Instr) (src : Node) : Prop :=
  s.cueQueue.head? = some c ∧ s.mayTake = true ∧ trusts s.config.cueSources src = true

/-- The reply record of a status and its result bytes: kind REPLY, the code, the request number, the status (Table 11-8). -/
def State.reply (s : State) (src : Node) (code req : Byte) (st : Status) (result : List Byte) : Record :=
  { dest := src.setWidth 8, src := s.node.setWidth 8, kind := 2, code := code, payload := padTo 12 ([req, statusCode st] ++ result) }

/-- A taken command leaves the command queue, and its one reply joins the reply queue (R147). -/
def State.answered (s : State) (r : Record) : State :=
  { leaveCommand s with replies := s.replies ++ [r] }

/-- A taken cue leaves the cue queue, and its one reply joins the reply queue (R147). -/
def State.answeredCue (s : State) (r : Record) : State :=
  { leaveCue s with replies := s.replies ++ [r] }

/-! ## Tables of the spec that claims name -/

/-- Table 6-3 with R113: the state of a gate after a class, where `opens` says that a CLOSED gate may open (the guard has passed, or a
force asks for it). -/
def gateAfter (st : GateState) (k : MarkerClass) (opens : Bool) : GateState :=
  match st, k with
  | .closed, .open_ => if opens then .open_ else .closed
  | .closed, .any => if opens then .open_ else .closed
  | .closed, .bar => .barred
  | .closed, .close => .closed
  | .closed, .unbar => .closed
  | .closed, .other => .closed
  | .open_, .close => .closed
  | .open_, .bar => .barred
  | .open_, .open_ => .open_
  | .open_, .any => .open_
  | .open_, .unbar => .open_
  | .open_, .other => .open_
  | .barred, .unbar => .closed
  | .barred, .open_ => .barred
  | .barred, .close => .barred
  | .barred, .bar => .barred
  | .barred, .any => .barred
  | .barred, .other => .barred

/-- The header of a frame that the part builds: its address as the timing source, the LOCAL flag, the rest 0 (R136, R137, R160). -/
def localHeader (node : Node) (number : BitVec 16) : Header :=
  { number := number, timingSource := node.setWidth 8, flags := 1, reserved := 0 }

/-- The record of a waiting directive: to its endpoint's node, from the part, kind DIRECTIVE, its code, its value (R42, Table 11-9). -/
def Directive.record (node : Node) (d : Directive) : Record :=
  { dest := d.dest.setWidth 8, src := node.setWidth 8, kind := 6, code := directiveCodeByte d.code, payload := padTo 12 [d.value] }

/-- The endpoint and code of a directive, of which one at most waits (R142). -/
def Directive.key (d : Directive) : EndpointId × DirectiveCode := (d.endpoint, d.code)

/-- What becomes of the directive queue from state `s` to state `t` where exactly the directives of `issued` are issued (R142): every waiting
directive keeps its place; one of an endpoint and code that is issued has the new value there; every other stays as it is; the directives
issued wait, and nothing else has come. -/
def QueueIssues (s t : State) (issued : Directive → Prop) : Prop :=
  s.directives.map Directive.key <+: t.directives.map Directive.key ∧ (∀ d, issued d → d ∈ t.directives) ∧
  (∀ d ∈ t.directives, d ∈ s.directives ∨ issued d) ∧
  ∀ d ∈ s.directives, (∀ x, issued x → x.key ≠ d.key) → d ∈ t.directives

/-- The record of the hold and resume flag: to all nodes, from the part, kind HOLD or RESUME, the rest 0 (R140, R161). -/
def HoldMark.record (node : Node) (m : HoldMark) : Record :=
  { dest := 127, src := node.setWidth 8, code := 0, payload := padTo 12 []
    kind := match m with
      | .hold => 7
      | .resume => 8 }

/-- The records that wait for a return frame, in their order: the hold and resume flag, the replies, the events (R140). -/
def State.returnQueue (s : State) : List Record := (s.holdFlag.map (HoldMark.record s.node)).toList ++ s.replies ++ s.events

/-- What a downstream frame from state `s` to state `t`, sent as `g` over a message area that arrived as `area`, makes of the outbound
queues. R140, R142: the directives that wait when the area is filled, those of `s` in their places before new ones, take its free places
in order, and the rest go on waiting. R137: while port B is not LOCKED a built return frame carries the flag, the replies and the events
that wait at its moment (log 8); while it is LOCKED no return frame is sent. New events join the tail. -/
def QueuesServed (s t : State) (area : List Record) (g : DownFrame) : Prop :=
  (∃ waiting : List Directive, s.directives.map Directive.key <+: waiting.map Directive.key ∧
    (s.service = .configuration → waiting = s.directives) ∧
    g.records = (fillPlaces area (waiting.map (Directive.record s.node))).1 ∧ t.directives = waiting.drop (freePlaces area)) ∧
  (s.portB ≠ .locked → ∃ early late : List Record, ∀ u : State, u = { s with events := s.events ++ early } →
    t.txA = some { header := localHeader s.node g.header.number
                   records := (u.returnQueue ++ List.replicate 24 emptyRecord).take 24 } ∧
    t.holdFlag = none ∧ t.replies = s.replies.drop (24 - s.holdFlag.toList.length) ∧
    t.events = u.events.drop (24 - s.holdFlag.toList.length - s.replies.length) ++ late) ∧
  (s.portB = .locked → t.txA = s.txA ∧ t.holdFlag = s.holdFlag ∧ t.replies = s.replies ∧ ∃ late, t.events = s.events ++ late)

/-- The event of a call's completion: tag, outcome, delivered set, missed set (Table 11-9). -/
def State.completionEvent (s : State) (n : Node) (tag : Byte) (out : CallOutcome) (delivered missed : ZoneSet) : Record :=
  ownRecord s n 0x04 0x01 ([tag, outcomeCode out] ++ bigEndian 4 delivered.toNat ++ bigEndian 4 missed.toNat)

/-- The ADMISSION_CALL event of a GATE call's completion, to the event node: gate, outcome, delivered set, missed set (R112, Table 11-9). -/
def State.admissionEvent (s : State) (g : GateId) (out : CallOutcome) (delivered missed : ZoneSet) : Record :=
  ownRecord s s.config.eventNode 0x04 0x03
    ([BitVec.ofNat 8 g.val, outcomeCode out] ++ bigEndian 4 delivered.toNat ++ bigEndian 4 missed.toNat)

/-- The ADMISSION_FAILED event of an opening gate, to the event node: gate, reason, the id that is not VALID or FFH (R108, Table 11-9). -/
def State.admissionFailure (s : State) (g : GateId) (reason : Status) (id : Byte) : Record :=
  ownRecord s s.config.eventNode 0x04 0x04 [BitVec.ofNat 8 g.val, statusCode reason, id]

/-- Whether an endpoint is an usher light of a gate that can be sent a directive: in use, of that role and gate, PRESENT (R42, R44, R103). -/
abbrev State.lit (s : State) (e : EndpointId) (g : GateId) : Prop :=
  (s.endpoint e).inUse = true ∧ (s.endpoint e).role = .usherLight ∧ (s.endpoint e).place.val = g.val ∧ (s.endpoint e).presence = .present

/-- The event queue after an event for a node: none is made for node 0, and one made at a full queue is lost (R141). -/
def State.eventsWith (s : State) (n : Node) (r : Record) : List Record :=
  if n = 0 ∨ 32 ≤ s.events.length then s.events else s.events ++ [r]

/-- The FAULT event of a raise or a recovery, to the event node (R128, Table 11-9): the kind; the subject, 1 for an endpoint with its index
and node address, 2 for a zone with its number, 0 for the part with index 0 (log 51); the flags, 1 for a raise, 2 for an escalated one, 4
for one that made a swap; the state taken, the action in force and the escalation count. -/
def State.faultEventRecord (s : State) (f : FaultRef) (flags : Byte) (st : FaultState) (action : PolicyAction) (count : Nat) : Record :=
  ownRecord s s.config.eventNode 0x04 0x02 ([BitVec.ofNat 8 (faultKind f)] ++ (match f with
      | .endpoint e _ => [1, BitVec.ofNat 8 e.val, (s.endpoint e).node.setWidth 8]
      | .loop l _ => [2, optIndexByte s.loops[l].zone, 0]
      | .device _ => [0, 0, 0]) ++ [flags, faultStateCode st, policyActionCode action, BitVec.ofNat 8 count])

/-- The row of a TABLE_WRITE to a table. -/
def tableWriteRow (t : Table) (src : Node) (req : Byte) (w : TableWrite) : Instr :=
  match t with
  | .route => .routeWrite src req w
  | .slotmap => .slotmapWrite src req w
  | .zone => .zoneWrite src req w
  | .loop => .loopWrite src req w
  | .desc => .descWrite src req w
  | .endpoint => .endpointWrite src req w
  | .gate => .gateWrite src req w
  | .policy => .policyWrite src req w
  | .config => .configWrite src req w

/-- The first and the last index of a table (R9, R143, R27, R50, R65, R33, R104, R117, R150). -/
def tableRange : Table → Nat × Nat
  | .route => (0, 127) | .slotmap => (0, 63) | .zone => (0, 31) | .loop => (0, 31) | .desc => (0, 31) | .endpoint => (0, 47)
  | .gate => (0, 1) | .policy => (1, 11) | .config => (0, 0)

/-- The last group of a table (Table 11-5). -/
def lastGroup : Table → Nat
  | .route => 0 | .slotmap => 0 | .zone => 3 | .loop => 3 | .desc => 3 | .endpoint => 0 | .gate => 2 | .policy => 0 | .config => 3

/-- A record in which a zone has moved from the delivered set to the missed set, with its wake deadline gone (R98). -/
def Call.without (r : Call) (z : ZoneId) : Call :=
  { r with delivered := r.delivered &&& ~~~ (BitVec.twoPow 32 z.val), missed := r.missed ||| BitVec.twoPow 32 z.val,
           wake := r.wake.set z none }

/-- A record that has entered TAIL with a tail time (R97). -/
def Call.inTail (r : Call) (tailTime : Nat) (fixed : Option CallOutcome) : Call :=
  { r with state := .tail, tailRemaining := tailTime, wake := Vector.replicate 32 none, outcome := fixed.or r.outcome }

/-- A zone record after the release of its claim: a CALLS_ONLY zone's idle deadline is now plus the idle time (R40). -/
def Zone.released (r : Zone) (now : Nat) : Zone :=
  if r.idlePolicy = .callsOnly then { r with idleDeadline := some (now + r.idleTime * 1000) } else r

/-- The in-use endpoints of a zone have the commanded state of Table 2-5 (R39). -/
def State.PowerWorkedOut (t : State) (z : ZoneId) : Prop :=
  ∀ e, (t.zone z).primary = some e ∨ (t.zone z).standby = some e → (t.endpoint e).inUse = true → (t.endpoint e).place = z →
    (t.endpoint e).commanded = t.commandedPower e

/-- From state `s` to state `t`, of one moment of SERVICE, every PRESENT endpoint whose commanded state changed has been sent POWER with it:
the directive waits, and the time of the last POWER is now (R41). -/
def State.PowerSent (s t : State) : Prop :=
  ∀ e, (t.endpoint e).commanded ≠ (s.endpoint e).commanded → (s.endpoint e).presence = .present →
    (t.endpoint e).lastPower = some s.now ∧
    { endpoint := e, code := .power, dest := (s.endpoint e).node, value := powerCode (t.endpoint e).commanded } ∈ t.directives

/-! ## What an effect may touch -/

/-- A zone record without the fields that a chain of faults, claims and power changes may touch. -/
def Zone.still (r : Zone) : Zone := { r with side := .primary, idleDeadline := none, protection := .normal }

/-- An endpoint record without its commanded power state and the time of its last POWER directive. -/
def Endpoint.still (r : Endpoint) : Endpoint := { r with commanded := .off, lastPower := none }

/-- A loop record without its open-loop candidate and peak accumulator. -/
def LoopRecord.still (r : LoopRecord) : LoopRecord := { r with candidate := none, accumulator := 0 }

/-- A gate record without its admission call. -/
def Gate.still (r : Gate) : Gate := { r with admissionCall := none }

/-- The state without what an observation, a raise, a swap, a drop, a completion or a change of commanded power may touch: the fault
records and ALERT, the calls, the event and directive queues, and a few runtime fields of zones, endpoints, loop records and gates.
Two states with the same `still` agree on everything else. -/
def State.still (s : State) : State :=
  { s with
    events := [], directives := [], faults := {}, alert := false, calls := Vector.replicate 16 {}
    zones := s.zones.map Zone.still
    endpoints := s.endpoints.map Endpoint.still
    loops := s.loops.map LoopRecord.still
    gates := s.gates.map Gate.still }

/-- A zone record's configuration with its test and suspension. -/
def Zone.settings (r : Zone) : Zone :=
  { r.still with duckGain := 0, voiceGain := 0, outputGain := 0, fresh := false, peak := 0, clip := false }

/-- An endpoint record's configuration. -/
def Endpoint.settings (r : Endpoint) : Endpoint := { inUse := r.inUse, node := r.node, role := r.role, place := r.place }

/-- A loop record's binding and parameters. -/
def LoopRecord.settings (r : LoopRecord) : LoopRecord := { r.still with agc := 0, limited := false, saturated := false }

/-- A description record's binding and parameters. -/
def DescRecord.settings (r : DescRecord) : DescRecord := { r with voxActive := false, holdRemaining := 0 }

/-- A gate record's configuration. -/
def Gate.settings (r : Gate) : Gate := { r with state := .closed, windowDeadline := none, lastClose := none, admissionCall := none }

/-- The state without what a frame may touch: its configuration, its messages and call memory, its command unit. Two states with the
same `settled` agree on all of that. -/
def State.settled (s : State) : State :=
  { s with
    now := 0, frameCounter := 0, replies := [], events := [], directives := [], holdFlag := none, txA := none, txB := none
    ingressPeaks := Vector.replicate 64 0, busPeaks := Vector.replicate 32 0, busClips := Vector.replicate 32 false, noise := 0
    faults := {}, alert := false, calls := Vector.replicate 16 {}, startCounter := 0
    zones := s.zones.map Zone.settings
    endpoints := s.endpoints.map Endpoint.settings
    loops := s.loops.map LoopRecord.settings
    descs := s.descs.map DescRecord.settings
    gates := s.gates.map Gate.settings }

/-! ## Invariants -/

/-- ALERT is asserted exactly while some record is LATCHED or RETRY_WAIT (R127). -/
def State.AlertTrue (s : State) : Prop := s.alert = s.faults.anyActionable

/-- The four bounded queues hold no more than their capacities (R141, R145, Table 8-2). -/
def State.QueuesFit (s : State) : Prop :=
  s.cmdQueue.length ≤ 16 ∧ s.cueQueue.length ≤ 8 ∧ s.replies.length ≤ 16 ∧ s.events.length ≤ 32

/-- The directive queue holds at most one directive for each endpoint index and code (R142). -/
def State.DirectivesDistinct (s : State) : Prop :=
  s.directives.Pairwise fun a b => ¬ (a.endpoint = b.endpoint ∧ a.code = b.code)

/-- No two in-use route entries hold the same slot and bus (R8). -/
def State.RoutesDistinct (s : State) : Prop :=
  ∀ i j : Fin 128, s.routes[i].inUse = true → s.routes[j].inUse = true → s.routes[i].slot = s.routes[j].slot →
    s.routes[i].bus = s.routes[j].bus → i = j

/-- No two non-FREE directory entries occupy a common page of call memory (R78). -/
def State.PagesDistinct (s : State) : Prop :=
  ∀ i j : MessageId, i ≠ j → ∀ x y, s.messages[i].extent = some x → s.messages[j].extent = some y →
    pagesOverlap x.1 x.2.1 y.1 y.2.1 = false

/-- Every loop record's AGC gain lies within its AGC minimum and maximum (R53). -/
def State.GainsInRange (s : State) : Prop :=
  ∀ l : ParamId, s.loops[l].agcMin ≤ s.loops[l].agc ∧ s.loops[l].agc ≤ s.loops[l].agcMax

/-- While flow control is disabled the hold state is RUNNING (R146). -/
def State.HoldNeedsFlow (s : State) : Prop := s.config.flowEnabled = false → s.hold = .running

/-- In-use endpoint records hold distinct node addresses (R33). -/
def State.NodesDistinct (s : State) : Prop :=
  ∀ i j : EndpointId, (s.endpoint i).inUse = true → (s.endpoint j).inUse = true → (s.endpoint i).node = (s.endpoint j).node → i = j

/-- At most one loop record and one description record is bound to a zone (R49, R64), and bound description records hold distinct
channels (R66). -/
def State.RecordsBoundOnce (s : State) : Prop :=
  ∀ i j : ParamId, i ≠ j →
    ((s.loops[i].zone.isSome = true → s.loops[i].zone ≠ s.loops[j].zone) ∧
     (s.descs[i].zone.isSome = true → s.descs[j].zone.isSome = true →
       s.descs[i].zone ≠ s.descs[j].zone ∧ s.descs[i].channel ≠ s.descs[j].channel))

/-- At most eight LOOP, eight DESC and four LOUNGE zones are enabled (R26). -/
def State.KindLimits (s : State) : Prop :=
  (allZones.countP fun z => (s.zone z).enabled && (s.zone z).kind == .loop) ≤ 8 ∧
  (allZones.countP fun z => (s.zone z).enabled && (s.zone z).kind == .desc) ≤ 8 ∧
  (allZones.countP fun z => (s.zone z).enabled && (s.zone z).kind == .lounge) ≤ 4

/-- Every gain in use lies within 0 to 65535 (R2). -/
def State.GainsBounded (s : State) : Prop :=
  (∀ i : Fin 128, s.routes[i].gain ≤ 65535) ∧
  (∀ z : ZoneId, (s.zone z).trim ≤ 65535 ∧ (s.zone z).callLevel ≤ 65535 ∧ (s.zone z).callDuck ≤ 65535 ∧
    (s.zone z).reduceGain ≤ 65535 ∧ (s.zone z).testLevel ≤ 65535 ∧ (s.zone z).duckGain ≤ 65535 ∧ (s.zone z).voiceGain ≤ 65535 ∧
    (s.zone z).outputGain ≤ 65535) ∧
  (∀ d : ParamId, s.descs[d].voiceGain ≤ 65535 ∧ s.descs[d].voxDepth ≤ 65535) ∧
  (∀ l : ParamId, s.loops[l].agcMax ≤ 65535)

/-- The call table: a call holds a player exactly while it is WAKING, PLAYING or in TAIL, no two of those calls hold one player or claim
one zone, and no two non-FREE EXTERNAL calls carry one tag (R84, R101). -/
def State.CallsSound (s : State) : Prop :=
  (∀ c, (s.call c).running = (s.call c).player.isSome) ∧
  (∀ c d, c ≠ d → (s.call c).running = true → (s.call d).running = true →
    (s.call c).player ≠ (s.call d).player ∧ (s.call c).delivered &&& (s.call d).delivered = 0) ∧
  (∀ c d n m, c ≠ d → (s.call c).state ≠ .free → (s.call d).state ≠ .free → (s.call c).origin = .external n →
    (s.call d).origin = .external m → (s.call c).tag ≠ (s.call d).tag)

/-- Every message id that a non-FREE call references belongs to a VALID directory entry (R82). -/
def State.ReferencesValid (s : State) : Prop :=
  ∀ c i, (s.call c).state ≠ .free → (s.call c).source.references i = true → s.validMessage i = true

end Sys2Proof.Machine
end

