-- ==== Sys2Proof/Certificates/Slice0/Obligations.lean ====
section
/-! DEFINITION. The statements for the provers. Each says what a command, an operation or the whole part does, in the words of the spec's
rules; the docstring names the rules. -/

open Sys2Proof Sys2Proof.Machine

/-! ## The block as a whole -/

/-- The step interface: with a command at the front of the queue, a step is the execution of that command on the state with the rest
of the queue (log 41). -/
def Obligations.StepRunsTheFrontCommand : Prop :=
  ∀ (c : Instr) (rest : List Instr) (s : State), step { s with pending := c :: rest } = exec c { s with pending := rest }

/-- R147 with log 3: with no command given from outside, a step takes the head of the command queue where it may be taken, else the head
of the cue queue where it may be taken, a MARKER needing no room in the reply queue. A record may be taken while no soft reset is pending
and the reply queue holds fewer than 16 records. With nothing to take, and while a soft reset is pending, the part stays as it is. A
command or cue that may not be taken waits. -/
def Obligations.QueuesAreServedInOrder : Prop :=
  ∀ s : State, (s.mayTake = true ↔ s.softResetFlag = false ∧ s.replies.length < 16) ∧ (s.pending = [] →
    (∀ c, s.cmdQueue.head? = some c → s.mayTake = true → step s = exec c s) ∧
    (∀ c, s.cmdQueue = [] → s.cueQueue.head? = some c → s.mayTake = true → step s = exec c s) ∧
    (∀ src code, s.cmdQueue = [] ∨ s.mayTake = false → s.cueQueue.head? = some (.marker src code) → s.softResetFlag = false →
      step s = exec (.marker src code) s) ∧
    (s.cmdQueue = [] → s.cueQueue = [] → step s = .next s) ∧
    (s.softResetFlag = true → step s = .next s) ∧
    (∀ c p, commandSender c = some p → s.cmdQueue.head? = some c → s.mayTake = false → exec c s = .next s) ∧
    (∀ c p, cueSender c = some p → s.cueQueue.head? = some c → s.mayTake = false → exec c s = .next s))

/-- The invariants of the part hold right after reset. -/
def Obligations.ResetMeetsTheInvariants : Prop :=
  (State.reset.mem.wf = true ∧ State.reset.PagesDistinct ∧ State.reset.RoutesDistinct ∧ State.reset.NodesDistinct ∧
    State.reset.RecordsBoundOnce ∧ State.reset.KindLimits ∧ State.reset.GainsInRange ∧ State.reset.GainsBounded ∧
    State.reset.noise ≠ 0) ∧
  (State.reset.QueuesFit ∧ State.reset.DirectivesDistinct ∧ State.reset.HoldNeedsFlow ∧ State.reset.AlertTrue) ∧
  State.reset.CallsSound ∧ State.reset.ReferencesValid

/-! ## Resets (section 9.6) -/

/-- R132, R158: POWER_ON_RESET puts every block at its reset values, and the node address is the strap value, 126 for 0 and 127. The
commands that wait outside the part stay. The reset values are those that the rules and tables of the blocks give: R8, R143 (route table
and slot map), R7, R11, R23 (mix engine), R25 with Tables 2-1 and 1-8, R14 and R20 (zones), R33 with Table 2-3 (endpoints), R53 with
Tables 3-1 and 3-2 (loop records), R71 with Tables 4-1 and 4-2 (description records), R78, R84 (messages and calls), R103 with Table 6-1
(gates), Table 7-2 (policy), R118 with Table 7-3 (fault records), R133 to R137, R140 to R142 (link unit), R145, R146, R150 with
Table 9-2, R153, R157 (command unit). That the zone marker `fresh` and the overrun marker are no and no frame has been sent (log 10, log
36), and that call memory, undefined by R77, then lists nothing (log 12), is the model's choice. -/
def Obligations.ResetLeavesTheResetValues : Prop :=
  (∀ (straps : BitVec 7) (s : State), exec (.powerOnReset straps) s =
    .next { State.reset with
      node := if straps.toNat = 0 ∨ straps.toNat = 127 then 126 else straps
      pending := s.pending }) ∧
  (State.reset.now = 0 ∧ State.reset.frameCounter = 0 ∧ State.reset.portA = .unlocked ∧ State.reset.portB = .unlocked ∧
    State.reset.replies = [] ∧ State.reset.events = [] ∧ State.reset.directives = [] ∧ State.reset.holdFlag = none ∧
    State.reset.txA = none ∧ State.reset.txB = none) ∧
  (State.reset.cmdQueue = [] ∧ State.reset.cueQueue = [] ∧ State.reset.overrun = false ∧ State.reset.service = .configuration ∧
    State.reset.hold = .running ∧ State.reset.softResetFlag = false ∧ State.reset.staged = none ∧
    State.reset.config = { debounce := 100, lost := 50, wakeTimeout := 400, tailTime := 500, liveMax := 60, pendingMax := 30,
                           eventNode := 0, managers := Vector.replicate 4 0, cueSources := Vector.replicate 4 0,
                           flowEnabled := true, holdLevel := 12, resumeLevel := 4 }) ∧
  ((∀ i : Fin 128, State.reset.routes[i] = { inUse := false, slot := 0, bus := 0, gain := 0 }) ∧
    (∀ i : Fin 64, State.reset.slotMap[i] = .pass ∧ State.reset.ingressPeaks[i] = 0) ∧
    (∀ b : Fin 32, State.reset.busPeaks[b] = 0 ∧ State.reset.busClips[b] = false) ∧ State.reset.noise = 1) ∧
  (∀ z : ZoneId, State.reset.zone z =
    { enabled := false, kind := .foyer, bus := 0, primary := none, standby := none, idlePolicy := .alwaysOn, idleTime := 120
      trim := 16384, callLevel := 16384, callDuck := 2048, duckStep := 1024, reduceGain := 4096, testMode := .none, testLevel := 8192
      suspended := false, side := .primary, idleDeadline := none, protection := .normal, duckGain := 16384, voiceGain := 16384
      outputGain := 16384, fresh := false, peak := 0, clip := false }) ∧
  (∀ e : EndpointId, State.reset.endpoint e =
    { inUse := false, node := 0, role := .foyerAmp, place := 0, presence := .absent, reported := .off, commanded := .off
      debounceStart := none, lastTelemetry := none, lastPower := none, current := none, thermal := false, supplyLow := false }) ∧
  (∀ l : ParamId, State.reset.loops[l] =
      { zone := none, target := 4194304, window := 1048576, attack := 256, release := 16, agcMin := 4096, agcMax := 32768
        currentLimit := 6000, limitStep := 512, overcurrent := 9000, openCurrent := 150, openSignal := 262144, openTime := 500
        agc := 16384, limited := false, saturated := false, candidate := none, accumulator := 0 } ∧
    State.reset.descs[l] =
      { zone := none, voiceSlot := 0, voiceGain := 16384, voxDepth := 5461, onThreshold := 524288, offThreshold := 262144
        holdTime := 800, channel := 1, voxActive := false, holdRemaining := 0 }) ∧
  (State.reset.mem = [] ∧ (∀ i : MessageId, State.reset.messages[i] = .free) ∧ (∀ c : CallId, (State.reset.call c).state = .free) ∧
    State.reset.arrivalCounter = 0 ∧ State.reset.startCounter = 0) ∧
  (∀ g : GateId, State.reset.gate g =
    { open1 := 0, open2 := 0, close1 := 0, close2 := 0, bar := 0, unbar := 0, anyOpens := false, windowTime := 90, reopenGuard := 30
      sequence := [], priority := 4, mask := 0, state := .closed, windowDeadline := none, lastClose := none, admissionCall := none }) ∧
  State.reset.policy = #v[⟨.retry, .swap, 10, 1⟩, ⟨.report, .mute, 10, 1⟩, ⟨.retry, .mute, 20, 3⟩, ⟨.report, .mute, 10, 1⟩,
    ⟨.retry, .reduce, 50, 1⟩, ⟨.report, .mute, 10, 2⟩, ⟨.disabled, .mute, 10, 1⟩, ⟨.report, .mute, 10, 1⟩, ⟨.report, .mute, 10, 1⟩,
    ⟨.report, .mute, 10, 1⟩, ⟨.report, .mute, 10, 1⟩] ∧
  (∀ f : FaultRef, State.reset.fault f =
    { state := .clear, deglitch := 0, lastPresent := false, sticky := false, inForce := none, retryRemaining := none
      escalation := 0, lastRecovery := none }) ∧
  State.reset.alert = false

/-- R157: SOFT_RESET is answered OK and sets the soft-reset flag; nothing else changes, and no further record may be taken. A soft reset
whose reply has left takes effect at the next local timing event, which begins no frame, or at the next well-formed frame on port A, which
the reset part then handles, a COMMAND of that frame too (log 47). Every block takes its reset values, save the node address, the content of
call memory and a RESUME for a part that was HELD; the frames last sent and the commands waiting outside are no state of a block (log 36).
Where none is due nothing takes effect (log 15). -/
def Obligations.SoftResetTakesEffect : Prop :=
  (∀ (src : Node) (req : Byte) (s : State), s.commandReady (.softReset src req) src →
    ∃ t, exec (.softReset src req) s = .next t ∧
      t = { s.answered (s.reply src 0x03 req .ok []) with softResetFlag := true } ∧ t.mayTake = false) ∧
  (∀ (s r : State), r = { State.reset with
      node := s.node, mem := s.mem, txA := s.txA, txB := s.txB, pending := s.pending
      holdFlag := if s.hold = .held then some .resume else none } →
    (s.softResetFlag = true → s.replies = [] → s.portA = .lost →
      exec (.softResetEffect .localTiming) s = .next r ∧ ∀ order, exec (.localTimingFrame order) s = .next r) ∧
    (s.softResetFlag = true → s.replies = [] → ∀ f order, ∃ t, exec (.softResetEffect (.frame f order)) s = .next t ∧
      exec (.downstreamFrameArrival f order) s = .next t ∧ exec (.downstreamFrameArrival f order) r = .next t) ∧
    (s.softResetFlag = false ∨ s.replies ≠ [] → ∀ e, exec (.softResetEffect e) s = .next s))

/-! ## Trust, taking and intake (sections 9.1 to 9.3) -/

/-- R145, R146: a COMMAND or CUE that arrives joins the tail of its queue, of 16 and 8 records; at an empty queue it is then taken, as the
joined record of the state `u`. The hold state follows the length of the command queue at a join. One that arrives at a full queue is
discarded, with COMMAND_OVERRUN observed present, and at the next join it is observed absent; nothing else changes. A record that is taken
leaves the head of its queue, and a HELD part whose command queue is then shorter than the resume level, or empty, is RUNNING with RESUME
in the flag: this every command but CONFIG_WRITE, whose flow group sets the hold state itself, leaves. The row as an arrival is log 2,
the one absent observation after a discard log 14. -/
def Obligations.RecordsJoinAndLeaveTheirQueues : Prop :=
  (∀ (c : Instr) (p : Node × Byte) (s : State), commandSender c = some p → s.cmdQueue.head? ≠ some c →
    ∃ u, (s.cmdQueue = [] → exec c s = exec c u) ∧ (s.cmdQueue ≠ [] → exec c s = .next u) ∧
      (16 ≤ s.cmdQueue.length → u = observe commandOverrunRef true { s with overrun := true }) ∧
      (s.cmdQueue.length < 16 → ∀ j : State, j = { s with
          cmdQueue := s.cmdQueue ++ [c]
          hold := if s.config.flowEnabled = true ∧ s.hold = .running ∧ s.config.holdLevel ≤ s.cmdQueue.length + 1 then .held else s.hold
          holdFlag := if s.config.flowEnabled = true ∧ s.hold = .running ∧ s.config.holdLevel ≤ s.cmdQueue.length + 1 then some .hold
            else s.holdFlag } →
        u = if s.overrun = true then observe commandOverrunRef false { j with overrun := false } else j)) ∧
  (∀ (c : Instr) (s : State), (∃ p, cueSender c = some p) ∨ (∃ src code, c = .marker src code) → s.cueQueue.head? ≠ some c →
    ∃ u, (s.cueQueue = [] → exec c s = exec c u) ∧ (s.cueQueue ≠ [] → exec c s = .next u) ∧
      (8 ≤ s.cueQueue.length → u = observe commandOverrunRef true { s with overrun := true }) ∧
      (s.cueQueue.length < 8 → u = if s.overrun = true
        then observe commandOverrunRef false { s with cueQueue := s.cueQueue ++ [c], overrun := false }
        else { s with cueQueue := s.cueQueue ++ [c] })) ∧
  (∀ s : State, leaveCue s = { s with cueQueue := s.cueQueue.tail } ∧ leaveCommand s = { s with
      cmdQueue := s.cmdQueue.tail
      hold := if s.config.flowEnabled = true ∧ s.hold = .held ∧ (s.cmdQueue.length - 1 < s.config.resumeLevel ∨ s.cmdQueue.length ≤ 1)
        then .running else s.hold
      holdFlag := if s.config.flowEnabled = true ∧ s.hold = .held ∧
          (s.cmdQueue.length - 1 < s.config.resumeLevel ∨ s.cmdQueue.length ≤ 1) then some .resume else s.holdFlag }) ∧
  (∀ (c : Instr) (p : Node × Byte) (s : State), commandSender c = some p → (∀ src req w, c ≠ .configWrite src req w) →
    s.cmdQueue.head? = some c → s.mayTake = true → ∃ t, exec c s = .next t ∧ t.cmdQueue = s.cmdQueue.tail ∧
      (t.hold, t.holdFlag) = (if s.config.flowEnabled = true ∧ s.hold = .held ∧
          (s.cmdQueue.tail.length < s.config.resumeLevel ∨ s.cmdQueue.tail = []) then (.running, some .resume) else (s.hold, s.holdFlag)))

/-- R147: every COMMAND and every CALL_START, CALL_END and CALL_CANCEL that is taken, trusted or not, leaves its queue and yields exactly
one REPLY: to its source, from the part, with its code and, save in the data form of MSG_READ (R163), its request number. A MARKER
yields none. The other queue is not touched. R144: a list whose four places are all 0 trusts every node, any other the addresses it holds.
A COMMAND, CALL_START, CALL_END or CALL_CANCEL from a node that is not trusted is not executed and is answered NOT_PERMITTED, and a MARKER
is dropped. A code that names no command or no cue is answered BAD_KIND and nothing else changes (R148). That an unknown cue from a node not
trusted is answered NOT_PERMITTED is the model's choice (log 18). -/
def Obligations.TakenRecordsAreAnsweredOnce : Prop :=
  (∀ (list : Vector Node 4) (n : Node), n ≠ 0 →
    (trusts list n = true ↔ (∀ i : Fin 4, list[i] = 0) ∨ ∃ i : Fin 4, list[i] = n)) ∧
  (∀ (c : Instr) (src : Node) (req : Byte) (s : State), commandSender c = some (src, req) → s.cmdQueue.head? = some c →
    s.mayTake = true →
    (∃ t r, exec c s = .next t ∧ t.cmdQueue = s.cmdQueue.tail ∧ t.cueQueue = s.cueQueue ∧
      t.replies = s.replies ++ [r] ∧ r.dest = src.setWidth 8 ∧ r.src = s.node.setWidth 8 ∧ recordKind r = 2 ∧ r.code = codeOf c ∧
      ((∀ id offset, c ≠ .msgRead src req id offset) → r.payload.head? = some req)) ∧
    (∀ i : Fin 4, s.config.managers[i] ≠ 0 → (∀ j : Fin 4, s.config.managers[j] ≠ src) →
      exec c s = .next (s.answered (s.reply src (codeOf c) req .notPermitted [])))) ∧
  (∀ (c : Instr) (src : Node) (req : Byte) (s : State), cueSender c = some (src, req) → s.cueQueue.head? = some c →
    s.mayTake = true →
    (∃ t r, exec c s = .next t ∧ t.cmdQueue = s.cmdQueue ∧ t.cueQueue = s.cueQueue.tail ∧
      t.replies = s.replies ++ [r] ∧ r.dest = src.setWidth 8 ∧ r.src = s.node.setWidth 8 ∧ recordKind r = 2 ∧ r.code = codeOf c ∧
      r.payload.head? = some req) ∧
    (∀ i : Fin 4, s.config.cueSources[i] ≠ 0 → (∀ j : Fin 4, s.config.cueSources[j] ≠ src) →
      exec c s = .next (s.answeredCue (s.reply src (codeOf c) req .notPermitted [])))) ∧
  (∀ (src : Node) (code : Byte) (s : State), s.cueQueue.head? = some (.marker src code) → s.softResetFlag = false →
    (∃ t, exec (.marker src code) s = .next t ∧ t.cmdQueue = s.cmdQueue ∧ t.cueQueue = s.cueQueue.tail ∧ t.replies = s.replies) ∧
    (∀ i : Fin 4, s.config.cueSources[i] ≠ 0 → (∀ j : Fin 4, s.config.cueSources[j] ≠ src) →
      exec (.marker src code) s = .next { s with cueQueue := s.cueQueue.tail })) ∧
  (∀ (src : Node) (req code : Byte) (s : State), s.commandReady (.unknownCommandCode src req code) src →
    exec (.unknownCommandCode src req code) s = .next (s.answered (s.reply src code req .badKind []))) ∧
  (∀ (src : Node) (req code : Byte) (s : State), s.cueReady (.unknownCueCode src req code) src →
    exec (.unknownCueCode src req code) s = .next (s.answeredCue (s.reply src code req .badKind [])))

/-! ## Wire formats (Chapter 11) -/

/-- R134, R159, R160: a frame sent is well-formed and reads back as it was: every header field, sample and record byte stands in its
place, and the CRC over the bytes before it stands in the last four. -/
def Obligations.FramesReadBackFromTheirBytes : Prop :=
  (∀ f : DownFrame, f.wf = true → (downBytes f).length = 9612 ∧ parseDown (downBytes f) = some f) ∧
  (∀ f : RetFrame, f.wf = true → (returnBytes f).length = 396 ∧ parseReturn (returnBytes f) = some f)

/-- Tables 11-3, 11-4 and 11-7: the record that spells a COMMAND or CUE is addressed to the part, has the kind of its sort, and is read as
exactly that command or cue, with every operand. That a cue of a code that names none carries its request number in byte 4 is the model's
choice (log 52). -/
def Obligations.RecordsSpellTheirCommands : Prop :=
  ∀ (node : Node) (c : Instr) (r : Record), c.wf = true → recordOf node c = some r →
    r.wf = true ∧ recordDest r = node ∧
    ((∃ p, commandSender c = some p) → recordKind r = 1 ∧ commandOf r = c) ∧
    ((∃ p, cueSender c = some p) ∨ (∃ src code, c = .marker src code) → recordKind r = 3 ∧ cueOf r = c)

/-! ## The venue link (Chapter 8) -/

/-- R5, R7, R11, R23, R133, R134, R135, R137, R138, R140: a well-formed frame on port A that brings the part no record is forwarded: its
header and every record that stands in it go out on port B in their places, and the waiting directives take the free places. Port A is
LOCKED, with CONSOLE_LINK_LOST observed absent from LOST, the millisecond count increases by one, the frame counter takes the frame's
number, the noise register steps 48 times; the ingress peaks are those of the arrived slots, the bus peaks and clip flags those of the
buses of BusesAreExactSumsRoundedOnce over them. While port B is not LOCKED a return frame is built. Of the configuration, the messages,
the call memory and the command unit nothing changes. The order of the blocks is free (log 4), the moments of filling are log 8. -/
def Obligations.WellFormedFrameIsForwarded : Prop :=
  ∀ (f : DownFrame) (order : List MsTask) (s : State) (ing : List (List Int)), s.softResetFlag = false ∨ s.replies ≠ [] →
    s.cmdQueue = [] → s.cueQueue = [] → (∀ r ∈ f.records, recordFor s.node r = false) →
    ing = ((List.range 64).map fun i => slotSamples (f.slots.getD i [])) →
    ∃ t g, exec (.downstreamFrameArrival f order) s = .next t ∧ t.txB = some g ∧ g.header = f.header ∧
      g.records.length = f.records.length ∧
      (∀ (i : Nat) (r : Record), f.records[i]? = some r → recordEmpty r = false → g.records[i]? = some r) ∧
      QueuesServed s t f.records g ∧
      t.portA = .locked ∧ t.now = s.now + 1 ∧ t.frameCounter = f.header.number ∧ t.noise = noiseStep^[48] s.noise ∧
      (∀ i : Fin 64, t.ingressPeaks[i] = blockPeak (slotSamples (f.slots.getD i.val []))) ∧
      (∀ b : Fin 32, t.busPeaks[b] = blockPeak (busBlock s.routes ing b) ∧ t.busClips[b] = busClip s.routes ing b) ∧
      (s.portA = .lost → s.policy[8].mode ≠ .disabled → (t.fault consoleLinkLostRef).lastPresent = false) ∧
      t.settled = { s with portA := .locked }.settled

/-- R138, R147: the records of a frame that are for the part are handled in place order. A COMMAND or CUE from a source that can be
answered, met by a part that may take a record, is executed as its row states; a record from node 0 or 127, or of another kind, is
discarded. Their places become free, and the frame is then forwarded as one that brought no record, from the state after the last of them.
The states between are `u`. That the records are taken before the frame is formed is the model's choice (log 7), and so is the byte of the
request number of an unknown cue (log 52). -/
def Obligations.FramesBringCommandsAndCues : Prop :=
  ∀ (f : DownFrame) (order : List MsTask) (s : State) (u : Nat → State), s.softResetFlag = false ∨ s.replies ≠ [] →
    s.cmdQueue = [] → s.cueQueue = [] →
    u 0 = (if s.portA = .lost then observe consoleLinkLostRef false { s with portA := .locked } else { s with portA := .locked }) →
    (∀ (i : Nat) (r : Record), f.records[i]? = some r →
      (recordFor s.node r = true → recordSource r ≠ 0 → recordSource r ≠ 127 → recordKind r = 1 →
        (u i).mayTake = true ∧ exec (commandOf r) (u i) = .next (u (i + 1))) ∧
      (recordFor s.node r = true → recordSource r ≠ 0 → recordSource r ≠ 127 → recordKind r = 3 →
        (u i).mayTake = true ∧ exec (cueOf r) (u i) = .next (u (i + 1))) ∧
      (recordFor s.node r = false ∨ recordSource r = 0 ∨ recordSource r = 127 ∨ (recordKind r ≠ 1 ∧ recordKind r ≠ 3) →
        u (i + 1) = u i)) →
    ((u f.records.length).softResetFlag = false ∨ (u f.records.length).replies ≠ []) →
    exec (.downstreamFrameArrival f order) s =
      exec (.downstreamFrameArrival { f with records := f.records.map fun r => if recordFor s.node r then emptyRecord else r } order)
        (u f.records.length)

/-- R143: the egress slots. In CONFIGURATION every slot passes. In SERVICE a PASS slot passes, a SILENCE slot and a slot of a disabled zone
carry 48 zeros, and a slot of an enabled zone carries, unchanged, the block that the zone's chain forms at the same mix event
(ZoneChainFormsTheSentSamples) from the state `p.1` that the millisecond event leaves, the hand-off `p.2` of its frame boundary, the
zone's bus and the 48 noise values. The zone takes over the chain's gains, and its peak and clip flag are those of that block (R20). A slot
that passes is the arrived one in a forwarded frame and silent in a frame the part generates, whose ingress samples are zero (R5). -/
def Obligations.EgressSlotsFollowTheSlotMap : Prop :=
  ∀ (s s1 t : State) (g : DownFrame) (order : List MsTask) (pass : Fin 64 → List WireSample) (ing : List (List Int)),
    s.cmdQueue = [] → s.cueQueue = [] → s.softResetFlag = false → t.txB = some g →
    ((∃ f, (∀ r ∈ f.records, recordFor s.node r = false) ∧ exec (.downstreamFrameArrival f order) s = .next t ∧
        (pass = fun i => f.slots.getD i.val []) ∧ ing = ((List.range 64).map fun i => slotSamples (f.slots.getD i [])) ∧
        s1 = if s.portA = .lost then observe consoleLinkLostRef false { s with portA := .locked } else { s with portA := .locked }) ∨
      ((s.portA = .locked ∧ exec (.badFrame order) s = .next t ∨ s.portA = .lost ∧ exec (.localTimingFrame order) s = .next t) ∧
        (pass = fun _ => List.replicate 48 0) ∧ ing = List.replicate 64 (List.replicate 48 0) ∧ s1 = s)) →
    g.slots.length = 64 ∧
    (s.service = .configuration → ∀ i : Fin 64, g.slots[i.val]? = some (pass i)) ∧
    (s.service = .service → ∀ i : Fin 64,
      (s.slotMap[i] = .pass → g.slots[i.val]? = some (pass i)) ∧
      (s.slotMap[i] = .silence → g.slots[i.val]? = some (List.replicate 48 0)) ∧
      (∀ z, s.slotMap[i] = .zone z → (s.zone z).enabled = false → g.slots[i.val]? = some (List.replicate 48 0)) ∧
      (∀ z p m, s.slotMap[i] = .zone z → (s.zone z).enabled = true → p = millisecond g.header.number ing order s1 →
        m = p.1.zoneChain ing (busBlock s.routes ing (s.zone z).bus) p.2 (noiseRun 48 s.noise) z →
        g.slots[i.val]? = some (m.sent.map (BitVec.ofInt 24)) ∧ (t.zone z).peak = blockPeak m.sent ∧ (t.zone z).clip = m.clip ∧
        (t.zone z).duckGain = m.duck ∧ (t.zone z).voiceGain = m.voice ∧ (t.zone z).outputGain = m.output ∧
        (t.zone z).fresh = false))

/-- R134, R135, R136, R137, R140: a bad frame on a LOCKED port A, and every event of the local timing generator while the port is LOST,
sends a frame that the part builds: the frame counter plus one as its number, the part's address as its timing source, LOCAL set, no
forwarded record, the waiting directives in its places, every ingress sample zero. The millisecond count increases by one, and while port
B is not LOCKED a return frame is built. At 3 ms of silence port A becomes LOST, CONSOLE_LINK_LOST is observed present and the first
locally timed frame is begun; port B becomes LOST and HOUSE_LINK_LOST is observed present, and no more. On a port in another state neither
event sends anything, and a port that is LOST stays so. The silence measures are outside the state (log 6). -/
def Obligations.GeneratedFramesAreBuilt : Prop :=
  (∀ (order : List MsTask) (s : State),
    (s.portA ≠ .locked → exec (.badFrame order) s = .next s) ∧ (s.portA ≠ .lost → exec (.localTimingFrame order) s = .next s) ∧
    (s.portA = .lost → exec (.portASilence order) s = .next s) ∧
    (∀ c : Instr, s.cmdQueue = [] → s.cueQueue = [] →
      (c = .badFrame order ∧ s.portA = .locked) ∨
        (s.softResetFlag = false ∨ s.replies ≠ []) ∧
          (c = .localTimingFrame order ∧ s.portA = .lost ∨ c = .portASilence order ∧ s.portA ≠ .lost) →
      ∃ t g, exec c s = .next t ∧ t.txB = some g ∧ g.header = localHeader s.node (s.frameCounter + 1) ∧
        g.records.length = 24 ∧ QueuesServed s t (List.replicate 24 emptyRecord) g ∧
        t.now = s.now + 1 ∧ t.frameCounter = s.frameCounter + 1 ∧ t.noise = noiseStep^[48] s.noise ∧
        (∀ i : Fin 64, t.ingressPeaks[i] = 0) ∧ (∀ b : Fin 32, t.busPeaks[b] = 0 ∧ t.busClips[b] = false) ∧
        (c = .portASilence order → t.portA = .lost ∧
          (s.policy[8].mode ≠ .disabled → (t.fault consoleLinkLostRef).lastPresent = true)) ∧
        t.settled = (if c = .portASilence order then { s with portA := .lost } else s).settled)) ∧
  (∀ s : State,
    (s.portB = .lost → exec .portBSilence s = .next s) ∧
    (s.portB ≠ .lost → exec .portBSilence s = .next (observe houseLinkLostRef true { s with portB := .lost })))

/-- R137, R139, R140: filling a message area: a record that stands in the area keeps its place; the k-th free place takes the k-th claimant,
or is EMPTY where there is none; the claimants left over keep their order. A well-formed return frame that brings the part no record makes
port B LOCKED, with HOUSE_LINK_LOST observed absent from LOST, and is forwarded on port A with its header; a bad return frame on a LOCKED
port B is replaced by a built one, with the frame counter as its number; on a port in another state it is only discarded. In either frame
the hold and resume flag, then the replies, then the events take the free places and leave their queues. -/
def Obligations.ReturnFramesCarryTheQueues : Prop :=
  (∀ (area claimants : List Record),
    (fillPlaces area claimants).1.length = area.length ∧ (fillPlaces area claimants).2 = claimants.drop (freePlaces area) ∧
    ∀ (i : Nat) (r : Record), area[i]? = some r → (fillPlaces area claimants).1[i]? =
      some (if recordEmpty r then claimants.getD (freePlaces (area.take i)) emptyRecord else r)) ∧
  (∀ s : State, s.cmdQueue = [] → s.cueQueue = [] →
    (∀ (f : RetFrame) (u : State), (∀ r ∈ f.records, recordFor s.node r = false) →
      u = (if s.portB = .lost then observe houseLinkLostRef false { s with portB := .locked } else { s with portB := .locked }) →
      exec (.returnFrameArrival f) s = .next { u with
        txA := some { header := f.header, records := (fillPlaces f.records u.returnQueue).1 }
        holdFlag := if freePlaces f.records = 0 then u.holdFlag else none
        replies := u.replies.drop (freePlaces f.records - u.holdFlag.toList.length)
        events := u.events.drop (freePlaces f.records - u.holdFlag.toList.length - u.replies.length) }) ∧
    (s.portB ≠ .locked → exec .badReturnFrame s = .next s) ∧
    (s.portB = .locked → exec .badReturnFrame s = .next { s with
        txA := some { header := localHeader s.node s.frameCounter
                      records := (s.returnQueue ++ List.replicate 24 emptyRecord).take 24 }
        holdFlag := none
        replies := s.replies.drop (24 - s.holdFlag.toList.length)
        events := s.events.drop (24 - s.holdFlag.toList.length - s.replies.length) }))

/-- R35, R36, R38, R41, R98, R139, Table 2-4, Table 11-9: a TELEMETRY record taken in SERVICE from the node of an in-use endpoint sets what
the endpoint reports, the time of its last telemetry and its presence: an ABSENT endpoint starts debouncing, a DEBOUNCING one becomes
PRESENT once the debounce time has passed since the start. Besides that nothing changes but what an observation, a drop and a POWER
directive may touch, and the return frame that is forwarded. R98: where the endpoint is the active one of its zone and the zone is claimed,
a report after which the zone is not deliverable, or not awake while its call is PLAYING, drops the zone: it is claimed no more, its idle
deadline and commanded states are those after a release (R39, R40), it moves to the missed set of its call, which completes where no zone is
left to it, and no other call changes. R38: exactly an endpoint that becomes PRESENT has ENDPOINT_LOST observed absent
(ObservationsCountAndRaise). It is sent, in this order, LISTEN, POWER with its commanded state and, a transmitter with a bound record,
CHANNEL; an usher light POWER and LIGHT. A PRESENT endpoint that reports another state than its commanded one is sent POWER again, 100 ms
after the last. In CONFIGURATION, from a node that no in-use endpoint holds, with a power code that names none, and of another kind than
TELEMETRY, a record is discarded: the frame goes on as one whose place was empty. The order inside the record is log 26. R139: a return
frame that brings several records for the part takes them in place order; the states between are `u`, from the locked port on, `telemetry`
is what the first part says of a frame with one record, and the frame is then forwarded, with their places free, from the state after the
last. -/
def Obligations.TelemetrySetsTheEndpoint : Prop :=
  (∀ (f : RetFrame) (s : State) (before after : List Record) (r : Record), s.cmdQueue = [] → s.cueQueue = [] →
    f.records = before ++ r :: after → (∀ x ∈ before ++ after, recordFor s.node x = false) → recordFor s.node r = true →
    (recordKind r ≠ 5 ∨ s.service = .configuration ∨ powerOf (byteAt r.payload 0) = none ∨
        (∀ x, (s.endpoint x).inUse = true → (s.endpoint x).node ≠ recordSource r) →
      exec (.returnFrameArrival f) s = exec (.returnFrameArrival { f with records := before ++ emptyRecord :: after }) s) ∧
    (∀ (e : EndpointId) (p : Power), recordKind r = 5 → s.service = .service → (s.endpoint e).inUse = true →
      (s.endpoint e).node = recordSource r → (∀ x, (s.endpoint x).inUse = true → (s.endpoint x).node = recordSource r → x = e) →
      powerOf (byteAt r.payload 0) = some p →
      ∀ new : Endpoint, new = { s.endpoint e with
          reported := p
          lastTelemetry := some s.now
          current := if word16 r.payload 1 = 0xFFFF then none else some (min 20000 (word16 r.payload 1).toNat)
          thermal := (byteAt r.payload 3).getLsbD 0
          supplyLow := (byteAt r.payload 3).getLsbD 1
          debounceStart := if (s.endpoint e).presence = .absent then some s.now else (s.endpoint e).debounceStart
          presence := match (s.endpoint e).presence, (s.endpoint e).debounceStart with
            | .absent, _ => .debouncing
            | .debouncing, some start => if s.config.debounce ≤ s.now - start then .present else .debouncing
            | .debouncing, none => .debouncing
            | .present, _ => .present } →
      ∃ t, exec (.returnFrameArrival f) s = .next t ∧
        t.still = { s with portB := .locked, txA := t.txA, holdFlag := t.holdFlag, replies := t.replies
                           endpoints := s.endpoints.set e new }.still ∧
        t.fault (endpointLostRef e) = (if (s.endpoint e).presence ≠ .present ∧ new.presence = .present
          then (observe (endpointLostRef e) false s).fault (endpointLostRef e) else s.fault (endpointLostRef e)) ∧
        (∀ z c, s.CallsSound → s.zoneOfEndpoint e = some z → (s.zone z).active = some e → s.claimant z = some c →
          new.presence ≠ .present ∨ p = .suspended ∨ p = .off ∨ p = .standby ∧ (s.call c).state = .playing →
          t.claimant z = none ∧ t.PowerWorkedOut z ∧ (t.zone z).idleDeadline = ((s.zone z).released s.now).idleDeadline ∧ (∀ d, d ≠ c → t.call d = s.call d) ∧
          t.call c = if ((s.call c).without z).delivered = 0 then {} else (s.call c).without z) ∧
        ((s.endpoint e).presence ≠ .present → new.presence = .present →
          (∀ d ∈ s.directives, d.endpoint ≠ e) → ∀ order : DirectiveCode → Byte → Directive,
          (order = fun code value => { endpoint := e, code := code, dest := (s.endpoint e).node, value := value }) →
          (t.endpoint e).lastPower = some s.now ∧
          ((s.endpoint e).role ≠ .usherLight →
            ((s.zone (s.endpoint e).place).active = some e → s.claimant (s.endpoint e).place = none) →
            [order .listen (optIndexByte (s.listenSlot (s.endpoint e).place)), order .power (powerCode (t.endpoint e).commanded)].Sublist
              t.directives) ∧
          (∀ d, (s.endpoint e).role = .descTx →
            ((s.zone (s.endpoint e).place).active = some e → s.claimant (s.endpoint e).place = none) → s.descOf (s.endpoint e).place = some d →
            [order .power (powerCode (t.endpoint e).commanded), order .channel (BitVec.ofNat 8 s.descs[d].channel)].Sublist
              t.directives) ∧
          (∀ g : GateId, (s.endpoint e).role = .usherLight → g.val = (s.endpoint e).place.val →
            [order .power (powerCode (t.endpoint e).commanded), order .light (if (s.gate g).state = .open_ then 1 else 0)].Sublist
              t.directives)) ∧
        ((s.endpoint e).presence = .present → p ≠ (t.endpoint e).commanded →
          ((s.endpoint e).lastPower = none ∨ ∃ q, (s.endpoint e).lastPower = some q ∧ 100 ≤ s.now - q) →
          (t.endpoint e).lastPower = some s.now ∧
          { endpoint := e, code := .power, dest := (s.endpoint e).node, value := powerCode (t.endpoint e).commanded } ∈ t.directives))) ∧
  (∀ (f : RetFrame) (s : State) (u : Nat → State), s.cmdQueue = [] → s.cueQueue = [] →
    u 0 = (if s.portB = .lost then observe houseLinkLostRef false { s with portB := .locked } else { s with portB := .locked }) →
    (∀ (i : Nat) (r : Record), f.records[i]? = some r →
      u (i + 1) = if recordFor s.node r = true ∧ recordKind r = 5 then telemetry r (u i) else u i) →
    exec (.returnFrameArrival f) s =
      exec (.returnFrameArrival { f with records := f.records.map fun r => if recordFor s.node r then emptyRecord else r })
        (u f.records.length))

/-! ## Timers -/

/-- R37, R61: in SERVICE, an in-use endpoint that is not ABSENT and whose last telemetry lies more than the lost time back becomes ABSENT:
it reports OFF, its current is not measured, its two flags are no and its debounce start is none. Where it was PRESENT, ENDPOINT_LOST is
observed present, after which its zone is dropped where it must be (log 25), with the idle deadline and commanded states of a release; where
it is the active endpoint of its zone, the zone's open-loop candidate ends and its peak accumulator is 0, and no other loop record changes.
Any other endpoint stays as it is. R40: in SERVICE, an idle deadline that now has reached becomes none, and the zone's endpoints are
commanded anew: the active endpoint of an enabled CALLS_ONLY zone without claim, suspension or test is commanded STANDBY. Before the
deadline nothing happens. That a deadline is kept and not tested in CONFIGURATION is the model's choice (log 30): R40 names no service
state. The rows as single tests are log 5. -/
def Obligations.EndpointTimersRunOut : Prop :=
  (∀ (e : EndpointId) (s : State),
    (∀ last, s.service = .service → (s.endpoint e).inUse = true → (s.endpoint e).presence ≠ .absent →
      (s.endpoint e).lastTelemetry = some last → s.config.lost < s.now - last →
      ∃ t, exec (.endpointLost e) s = .next t ∧
        t.still = { s with endpoints := s.endpoints.set e { s.endpoint e with
          presence := .absent, reported := .off, current := none, thermal := false, supplyLow := false, debounceStart := none } }.still ∧
        ((s.endpoint e).presence = .present → s.policy[0].mode ≠ .disabled →
          (t.fault (endpointLostRef e)).lastPresent = true) ∧
        (∀ z, (s.endpoint e).presence = .present → s.CallsSound → s.zoneOfEndpoint e = some z → (t.zone z).active = some e →
          t.claimant z = none ∧ ((s.claimant z).isSome = true →
            t.PowerWorkedOut z ∧ (t.zone z).idleDeadline = ((s.zone z).released s.now).idleDeadline)) ∧
        (∀ z l, (s.endpoint e).presence = .present → s.zoneOfEndpoint e = some z → (s.zone z).active = some e → s.loopOf z = some l →
          t.loops = s.loops.set l { s.loops[l] with candidate := none, accumulator := 0 }) ∧
        ((s.endpoint e).presence = .debouncing → t = { s with endpoints := t.endpoints })) ∧
    ((s.service = .configuration ∨ (s.endpoint e).inUse = false ∨ (s.endpoint e).presence = .absent ∨
        ∃ last, (s.endpoint e).lastTelemetry = some last ∧ s.now - last ≤ s.config.lost) →
      exec (.endpointLost e) s = .next s)) ∧
  (∀ (z : ZoneId) (s : State) (d : Nat), (s.zone z).idleDeadline = some d →
    (s.service = .service → d ≤ s.now →
      ∃ t, exec (.idleDeadlineExpiry z) s = .next t ∧ t.zones = s.zones.set z { s.zone z with idleDeadline := none } ∧
        (∀ e, (s.zone z).enabled = true → (s.zone z).idlePolicy = .callsOnly → (s.zone z).suspended = false →
          (s.zone z).testMode = .none → s.claimant z = none → (s.zone z).active = some e → (s.endpoint e).inUse = true →
          (s.endpoint e).role ≠ .usherLight → (s.endpoint e).place = z → (t.endpoint e).commanded = .standby) ∧
        t.faults = s.faults ∧ t.calls = s.calls ∧ t.events = s.events ∧ t.still = s.still) ∧
    (s.service = .configuration ∨ s.now < d → exec (.idleDeadlineExpiry z) s = .next s))

/-- R93: at the frame boundary of SERVICE, a zone of a WAKING call that is not awake at its wake deadline (`late`) is lost to the call and
WAKE_FAILED is observed present for its active endpoint, and the release sets the idle deadline and works the commanded power out anew (R39
to R41); a zone that is not awake and has no deadline (`unset`) receives one. A call that loses its last zone so completes; one whose zones
left are all awake enters PLAYING; any other goes on WAKING. The first clause says so for all the zones of a call at once, where
WAKE_FAILED, as its policy and history stand, acts on no zone; the second for a call of one zone whatever that policy is. The row as a
single test is log 5, the wake deadlines kept in PLAYING log 38. -/
def Obligations.WakingCallIsExamined : Prop :=
  ∀ (c : CallId) (s : State), s.service = .service → (s.call c).state = .waking →
    (∀ (late unset left : ZoneSet) (mid : Call),
      s.policy[1].mode = .disabled ∨ s.policy[1].mode = .report ∧ (∀ e, (s.fault (wakeFailedRef e)).lastRecovery = none) →
      (∀ z : ZoneId, late.getLsbD z.val = true ↔ (s.call c).delivered.getLsbD z.val = true ∧ s.awake z = false ∧
        ∃ d, (s.call c).wake[z] = some d ∧ d ≤ s.now) →
      (∀ z : ZoneId, unset.getLsbD z.val = true ↔ (s.call c).delivered.getLsbD z.val = true ∧ s.awake z = false ∧
        (s.call c).wake[z] = none) →
      left = (s.call c).delivered &&& ~~~ late →
      mid = { s.call c with
        delivered := left, missed := (s.call c).missed ||| late
        wake := Vector.ofFn fun z => if late.getLsbD z.val then none
          else if unset.getLsbD z.val then some (s.now + s.config.wakeTimeout) else (s.call c).wake[z] } →
      ∃ t, exec (.wakeDeadlineExpiry c) s = .next t ∧ t.still = s.still ∧
        t.call c = (if left = 0 then {}
          else if ∀ z : ZoneId, left.getLsbD z.val = true → s.awake z = true then { mid with state := .playing } else mid) ∧
        (∀ d, d ≠ c → t.call d = s.call d) ∧
        (∀ z : ZoneId, t.zone z = (if late.getLsbD z.val then (s.zone z).released s.now else s.zone z) ∧
          (late.getLsbD z.val = true → t.PowerWorkedOut z)) ∧ s.PowerSent t ∧
        (∀ (z : ZoneId) e, s.policy[1].mode ≠ .disabled → late.getLsbD z.val = true → (s.zone z).active = some e →
          (t.fault (wakeFailedRef e)).lastPresent = true)) ∧
    (∀ z d e, (s.call c).delivered = BitVec.twoPow 32 z.val → s.awake z = false → (s.call c).wake[z] = some d → d ≤ s.now →
      (s.zone z).active = some e →
      ∃ t, exec (.wakeDeadlineExpiry c) s = .next t ∧ (t.call c).state = .free ∧ t.PowerWorkedOut z ∧
        (t.zone z).idleDeadline = ((s.zone z).released s.now).idleDeadline ∧ s.PowerSent t ∧
        (s.policy[1].mode ≠ .disabled → (t.fault (wakeFailedRef e)).lastPresent = true) ∧ t.still = s.still) ∧
    (∀ z d, (s.call c).delivered = BitVec.twoPow 32 z.val → s.awake z = false → (s.call c).wake[z] = some d → s.now < d →
      exec (.wakeDeadlineExpiry c) s = .next s) ∧
    ((s.call c).delivered ≠ 0 → (∀ z, (s.call c).delivered.getLsbD z.val = true → s.awake z = true) →
      ∃ t, exec (.wakeDeadlineExpiry c) s = .next t ∧ t.calls = s.calls.set c { s.call c with state := .playing } ∧
        t.still = s.still ∧ t.zones = s.zones ∧ t.endpoints = s.endpoints ∧ t.directives = s.directives ∧ t.gates = s.gates ∧
        t.events = s.events)

/-- R97, R99, R100: in SERVICE, an EXTERNAL call in TAIL with no tail left completes with the outcome fixed on it or the one its sets give,
and an EXTERNAL call that has been PENDING for the pending maximum completes EXPIRED with an empty delivered set. Its record becomes FREE,
its zones are released, so that a CALLS_ONLY zone's idle deadline is set and the commanded power is worked out anew (R39 to R41), and the
completion event is queued. R95, R96, R97: a PLAYING call whose live elapsed time has reached the live maximum enters TAIL with no outcome
fixed, and at the loss of port A a PLAYING call in its live part enters TAIL with outcome SOURCE_LOST; with a tail time of 0 it completes at
once. Before its time a call stays as it is. The rows as single tests are log 5. -/
def Obligations.CallsEndOnTime : Prop :=
  (∀ (c : CallId) (n : Node) (s : State), s.service = .service → (s.call c).origin = .external n →
    ((s.call c).state = .tail → (s.call c).tailRemaining = 0 →
      ∃ t, exec (.tailEnd c) s = .next t ∧ t.calls = s.calls.set c {} ∧
        t.events = s.eventsWith n (s.completionEvent n (s.call c).tag
          ((s.call c).outcome.getD (if (s.call c).delivered = 0 then .notDelivered
            else if (s.call c).missed = 0 then .delivered else .partialDelivery)) (s.call c).delivered (s.call c).missed) ∧
        (∀ z, t.zone z = if (s.call c).delivered.getLsbD z.val = true ∧ (s.zone z).idlePolicy = .callsOnly
          then { s.zone z with idleDeadline := some (s.now + (s.zone z).idleTime * 1000) } else s.zone z) ∧
        (∀ z : ZoneId, (s.call c).delivered.getLsbD z.val = true → t.PowerWorkedOut z) ∧ s.PowerSent t ∧
        t.faults = s.faults ∧ t.gates = s.gates ∧ t.still = s.still) ∧
    ((s.call c).state = .tail → (s.call c).tailRemaining ≠ 0 → exec (.tailEnd c) s = .next s) ∧
    ((s.call c).state = .pending → s.config.pendingMax * 1000 ≤ s.now - (s.call c).pendingSince →
      exec (.pendingExpiry c) s = .next { s with
        calls := s.calls.set c {}
        events := s.eventsWith n (s.completionEvent n (s.call c).tag ((s.call c).outcome.getD .expired) 0 (s.call c).target) }) ∧
    ((s.call c).state = .pending → s.now - (s.call c).pendingSince < s.config.pendingMax * 1000 →
      exec (.pendingExpiry c) s = .next s)) ∧
  (∀ (c : CallId) (slot : Fin 64) (pre : Option MessageId) (s : State), (s.call c).state = .playing →
    (s.call c).source = .live slot pre →
    (s.service = .configuration ∨ (s.call c).liveElapsed < s.config.liveMax * 1000 → exec (.liveMaximum c) s = .next s) ∧
    (s.service = .service → s.config.liveMax * 1000 ≤ (s.call c).liveElapsed →
      (s.config.tailTime ≠ 0 →
        exec (.liveMaximum c) s = .next { s with calls := s.calls.set c ((s.call c).inTail s.config.tailTime none) }) ∧
      (∀ n, s.config.tailTime = 0 → (s.call c).origin = .external n →
        ∃ t, exec (.liveMaximum c) s = .next t ∧ t.calls = s.calls.set c {} ∧
          t.events = s.eventsWith n (s.completionEvent n (s.call c).tag
            ((s.call c).outcome.getD (if (s.call c).delivered = 0 then .notDelivered
              else if (s.call c).missed = 0 then .delivered else .partialDelivery)) (s.call c).delivered (s.call c).missed) ∧
          (∀ z : ZoneId, t.zone z = (if (s.call c).delivered.getLsbD z.val then (s.zone z).released s.now else s.zone z) ∧
            ((s.call c).delivered.getLsbD z.val = true → t.PowerWorkedOut z)) ∧ s.PowerSent t ∧
          t.faults = s.faults ∧ t.still = s.still)) ∧
    ((s.call c).liveBegun = true →
      (sourceLoss s).call c =
        if s.config.tailTime = 0 then {} else (s.call c).inTail s.config.tailTime (some .sourceLost)) ∧
    (∀ d, (s.call d).state ≠ .playing ∨ (s.call d).liveBegun = false → (sourceLoss s).call d = s.call d))

/-- R121, R123, R128: the timers of a fault record. A CLEAR or COUNTING record 10,000 ms after its last recovery starts its escalation
afresh. A RETRY_WAIT record whose retry remaining is 0 recovers where its last observation is absent, with now as its last recovery and a
FAULT event of the recovery queued before anything else, and starts the timer anew where it is present. With time remaining nothing happens.
No other record changes, and ALERT follows the records. The rows as single tests are log 5, the subject index of a device fault log 51, the
one zone that a recovery concerns log 53. -/
def Obligations.FaultTimersRunOut : Prop :=
  ∀ (f : FaultRef) (s : State),
    (∀ r, ((s.fault f).state = .clear ∨ (s.fault f).state = .counting) → (s.fault f).lastRecovery = some r →
      (10000 ≤ s.now - r → ∃ t, exec (.escalationReset f) s = .next t ∧
        t.fault f = { s.fault f with escalation := 0, lastRecovery := none } ∧ (∀ x, x ≠ f → t.fault x = s.fault x) ∧
        t.alert = t.faults.anyActionable ∧ t = { s with faults := t.faults, alert := t.alert }) ∧
      (s.now - r < 10000 → exec (.escalationReset f) s = .next s)) ∧
    (∀ i n, (s.fault f).state = .retryWait → (s.fault f).inForce = some i → (s.fault f).retryRemaining = some n →
      (n ≠ 0 → exec (.retryExpiry f) s = .next s) ∧
      (n = 0 → ∃ t, exec (.retryExpiry f) s = .next t ∧
        t.fault f = (if (s.fault f).lastPresent then { s.fault f with retryRemaining := some (i.retryTime * 100) }
          else { s.fault f with state := .clear, deglitch := 0, inForce := none, retryRemaining := none,
                                lastRecovery := some s.now }) ∧
        (∀ x, x ≠ f → t.fault x = s.fault x) ∧ t.alert = t.faults.anyActionable ∧ t.still = s.still ∧
        ((s.fault f).lastPresent = true → t = { s with faults := t.faults, alert := t.alert }) ∧
        ((s.fault f).lastPresent = false →
          (∃ rest, t.events = s.eventsWith s.config.eventNode (s.faultEventRecord f 0 .clear i.action (s.fault f).escalation) ++ rest) ∧
          ∀ z, s.zoneConcerned f = some z → (t.zone z).protection = t.protectionOf z)))

/-- R133 and the timer rules, at the millisecond of a downstream frame in SERVICE, whatever kind the frame is of and in whatever order the
blocks take the event (log 4). R37: exactly the in-use endpoints whose lost time has passed become ABSENT. R40: no idle deadline that has
passed is left, and where no call is in progress the others stay. R109: exactly the OPEN gates whose window has ended close. R121: no CLEAR
or COUNTING record is 10,000 ms from its last recovery. R123: a retry timer runs down by one and expires at 0, as FaultTimersRunOut says for
the records on which no frame makes an observation (kinds 3 to 6). R90, R97, R99: a call in TAIL with none left is FREE, with some left one
nearer, unless a drop or a preemption has completed it; a PENDING call at the pending maximum is FREE; a PLAYING call whose source ended in
the previous block is FREE or in TAIL. R96: at the loss of port A a PLAYING LIVE call in its live part is FREE or in TAIL with SOURCE_LOST.
R6, R90: what the mix event receives is the hand-off of one frame boundary, made at this millisecond from the tables of the state before. -/
def Obligations.FramesRunTheTimers : Prop :=
  (∀ (c : Instr) (order : List MsTask) (s t : State) (now : Nat), s.service = .service → s.cmdQueue = [] → s.cueQueue = [] →
    s.softResetFlag = false ∨ s.replies ≠ [] →
    (∃ f, (∀ r ∈ f.records, recordFor s.node r = false) ∧ c = .downstreamFrameArrival f order) ∨
      c = .badFrame order ∧ s.portA = .locked ∨ c = .localTimingFrame order ∧ s.portA = .lost ∨
      c = .portASilence order ∧ s.portA ≠ .lost →
    exec c s = .next t → now = s.now + 1 →
    (∀ e, ((∃ q, (s.endpoint e).inUse = true ∧ (s.endpoint e).presence ≠ .absent ∧ (s.endpoint e).lastTelemetry = some q ∧
          s.config.lost < now - q) →
        (t.endpoint e).still = { s.endpoint e with presence := .absent, reported := .off, current := none, thermal := false,
                                                   supplyLow := false, debounceStart := none }.still) ∧
      ((∀ q, (s.endpoint e).inUse = true → (s.endpoint e).presence ≠ .absent → (s.endpoint e).lastTelemetry = some q →
          now - q ≤ s.config.lost) →
        (t.endpoint e).still = (s.endpoint e).still)) ∧
    (∀ z, 1 ≤ (s.zone z).idleTime → (∀ d, (t.zone z).idleDeadline = some d → now < d) ∧
      (∀ d, (∀ x, (s.call x).state = .free) → (s.zone z).idleDeadline = some d → now < d → (t.zone z).idleDeadline = some d)) ∧
    (∀ g, ((∃ d, (s.gate g).state = .open_ ∧ (s.gate g).windowDeadline = some d ∧ d ≤ now) →
        (t.gate g).still = { s.gate g with state := .closed, windowDeadline := none, lastClose := some now }.still) ∧
      ((s.gate g).state ≠ .open_ ∨ (∃ d, (s.gate g).windowDeadline = some d ∧ now < d) → (t.gate g).still = (s.gate g).still)) ∧
    (∀ f q, (t.fault f).state = .clear ∨ (t.fault f).state = .counting → (t.fault f).lastRecovery = some q → now - q < 10000) ∧
    (∀ f n, (s.fault f).state = .retryWait → (s.fault f).retryRemaining = some n → 1 < n →
      (t.fault f).state = .retryWait ∧ (t.fault f).retryRemaining = some (n - 1)) ∧
    (∀ e (k : Fin 6) n i, 2 ≤ k.val → (s.fault (.endpoint e k)).state = .retryWait →
      (s.fault (.endpoint e k)).retryRemaining = some n → n ≤ 1 → (s.fault (.endpoint e k)).inForce = some i →
      t.fault (.endpoint e k) = if (s.fault (.endpoint e k)).lastPresent
        then { s.fault (.endpoint e k) with retryRemaining := some (i.retryTime * 100) }
        else { s.fault (.endpoint e k) with state := .clear, deglitch := 0, inForce := none, retryRemaining := none,
                                            lastRecovery := some now }) ∧
    (∀ x, (s.call x).state = .tail →
      ((s.call x).tailRemaining = 0 → t.call x = {}) ∧
      (∀ n, (s.call x).tailRemaining = n + 1 → t.call x = {} ∨ (t.call x).state = .tail ∧ (t.call x).tailRemaining = n)) ∧
    (∀ x, (s.call x).state = .pending → s.config.pendingMax * 1000 ≤ now - (s.call x).pendingSince → t.call x = {}) ∧
    (∀ x ids n, (s.call x).state = .playing → (s.call x).source = .stored ids n → n ≤ (s.call x).plays →
      t.call x = {} ∨ (t.call x).state = .tail ∧ (t.call x).tailRemaining = s.config.tailTime - 1) ∧
    (∀ x slot pre, c = .portASilence order → (s.call x).state = .playing → (s.call x).source = .live slot pre →
      (s.call x).liveBegun = true → t.call x = {} ∨ (t.call x).state = .tail ∧ (t.call x).outcome = some .sourceLost)) ∧
  (∀ (number : BitVec 16) (ing : List (List Int)) (order : List MsTask) (s : State), ∃ v : State,
    (millisecond number ing order s).2 = (frameBoundary ing v).2 ∧ v.now = s.now + 1 ∧ v.settled = s.settled)

/-! ## Zones, endpoints and their directives (Chapter 2) -/

/-- What the conditions that other statements name mean. R45: the active side names the active endpoint. R29: a zone is deliverable when it
is enabled in SERVICE, in no test mode, not suspended and not MUTED, and its active endpoint is PRESENT and reports ACTIVE or STANDBY. R30:
it is awake when that endpoint is PRESENT and reports ACTIVE. R101: its claimant is the WAKING, PLAYING or TAIL call whose delivered set
holds it. R43: it listens to the lowest slot that names it, while enabled. R125: its protection is MUTED where an actionable record of its
active endpoint has action MUTE or SWAP, else REDUCED where one has action REDUCE, else NORMAL. R34: an endpoint in use that is no usher
light belongs to the zone it names. -/
def Obligations.ZoneConditionsFollowTheirRules : Prop :=
  ∀ (s : State) (z : ZoneId) (acts : EndpointId → PolicyAction → Prop),
    (acts = fun e a => ∃ (k : Fin 6) (i : InForce), ((s.fault (.endpoint e k)).state = .latched ∨
      (s.fault (.endpoint e k)).state = .retryWait) ∧ (s.fault (.endpoint e k)).inForce = some i ∧ i.action = a) →
    ((s.zone z).side = .primary → (s.zone z).active = (s.zone z).primary ∧ (s.zone z).other = (s.zone z).standby) ∧
    ((s.zone z).side = .standby → (s.zone z).active = (s.zone z).standby ∧ (s.zone z).other = (s.zone z).primary) ∧
    (s.deliverable z = true ↔ (s.zone z).enabled = true ∧ s.service = .service ∧ (s.zone z).testMode = .none ∧
      (s.zone z).suspended = false ∧ (s.zone z).protection ≠ .muted ∧ ∃ e, (s.zone z).active = some e ∧
        (s.endpoint e).presence = .present ∧ ((s.endpoint e).reported = .active ∨ (s.endpoint e).reported = .standby)) ∧
    (s.awake z = true ↔ ∃ e, (s.zone z).active = some e ∧ (s.endpoint e).presence = .present ∧ (s.endpoint e).reported = .active) ∧
    (∀ c, s.CallsSound → (s.claimant z = some c ↔ ((s.call c).state = .waking ∨ (s.call c).state = .playing ∨
      (s.call c).state = .tail) ∧ (s.call c).delivered.getLsbD z.val = true)) ∧
    (∀ i, s.listenSlot z = some i ↔ (s.zone z).enabled = true ∧ s.slotMap[i] = .zone z ∧ ∀ j, j < i → s.slotMap[j] ≠ .zone z) ∧
    ((s.zone z).active = none → s.protectionOf z = .normal) ∧
    (∀ e, (s.zone z).active = some e →
      (acts e .mute ∨ acts e .swap → s.protectionOf z = .muted) ∧
      (¬ acts e .mute → ¬ acts e .swap → acts e .reduce → s.protectionOf z = .reduced) ∧
      (¬ acts e .mute → ¬ acts e .swap → ¬ acts e .reduce → s.protectionOf z = .normal)) ∧
    (∀ e, s.zoneOfEndpoint e = some z ↔
      (s.endpoint e).inUse = true ∧ (s.endpoint e).role ≠ .usherLight ∧ (s.endpoint e).place = z)

/-- R39, Table 2-5: the commanded power state of an in-use endpoint, by the first line of the table that applies; OFF in CONFIGURATION. R41:
an endpoint whose commanded state changes takes it, and in SERVICE, where it is PRESENT, is sent POWER with it, at now. R42: any other
directive is issued in the same way, to a PRESENT endpoint in SERVICE. R142: a directive takes the place of a waiting one of its endpoint
and code, or joins the tail. -/
def Obligations.CommandedPowerIsWorkedOutAndIssued : Prop :=
  (∀ (s : State) (e : EndpointId) (r : Endpoint) (z : Zone), r = s.endpoint e → z = s.zone r.place →
    (s.service = .configuration → s.commandedPower e = .off) ∧
    (s.service = .service → r.role = .usherLight → s.commandedPower e = .active) ∧
    (s.service = .service → r.role ≠ .usherLight →
      (z.enabled = false → s.commandedPower e = .off) ∧
      (z.enabled = true → z.active ≠ some e → s.commandedPower e = .standby) ∧
      (z.enabled = true → z.active = some e →
        (z.suspended = true → s.commandedPower e = .suspended) ∧
        (z.suspended = false → z.testMode ≠ .none ∨ z.idlePolicy = .alwaysOn ∨ (s.claimant r.place).isSome = true ∨
            (∃ d, z.idleDeadline = some d ∧ s.now < d) → s.commandedPower e = .active) ∧
        (z.suspended = false → z.testMode = .none → z.idlePolicy = .callsOnly → s.claimant r.place = none →
          (∀ d, z.idleDeadline = some d → d ≤ s.now) → s.commandedPower e = .standby)))) ∧
  (∀ (s : State) (e : EndpointId) (r : Endpoint), r = s.endpoint e →
    (r.inUse = false ∨ s.commandedPower e = r.commanded → recommand e s = s) ∧
    (r.inUse = true → s.commandedPower e ≠ r.commanded →
      (s.service = .configuration ∨ r.presence ≠ .present →
        recommand e s = { s with endpoints := s.endpoints.set e { r with commanded := s.commandedPower e } }) ∧
      (s.service = .service → r.presence = .present → recommand e s = { s with
        endpoints := s.endpoints.set e { r with commanded := s.commandedPower e, lastPower := some s.now }
        directives := joinDirective
          { endpoint := e, code := .power, dest := r.node, value := powerCode (s.commandedPower e) } s.directives })) ∧
    (∀ code value,
      (s.service = .configuration ∨ r.presence ≠ .present → issue e code value s = s) ∧
      (s.service = .service → r.presence = .present → issue e code value s = { s with
        directives := joinDirective { endpoint := e, code := code, dest := r.node, value := value } s.directives }))) ∧
  (∀ (d : Directive) (waiting : List Directive),
    ((∀ x ∈ waiting, x.key ≠ d.key) → joinDirective d waiting = waiting ++ [d]) ∧
    (∀ before x after, waiting = before ++ x :: after → x.key = d.key → (∀ y ∈ before, y.key ≠ d.key) →
      joinDirective d waiting = before ++ d :: after))

/-! ## Observations and raises (section 7.2 and section 7.3) -/

/-- R119, R120, R121, R127: one observation. A DISABLED kind takes none. On a raised record it sets the last observation alone. Absent, a
CLEAR or COUNTING record becomes CLEAR with no deglitch count. Present, it counts, and at the deglitch count it is raised: LATCHED, with a
retry timer in RETRY_WAIT, or REPORTED, as the mode says, LATCHED where escalated, with mode, action and retry time copied and the sticky
flag set. R121: a last recovery less than 10,000 ms old lets the escalation count increase, and the raise that brings it to 4 is escalated
and sets it to 0; with none or an older one the count is 0 and the last recovery none. No other record changes, and ALERT follows the
records. -/
def Obligations.ObservationsCountAndRaise : Prop :=
  ∀ (f : FaultRef) (isPresent : Bool) (s : State) (r : FaultRecord) (p : Policy), r = s.fault f → p = s.policy[policyIndex f] →
    (p.mode = .disabled → observe f isPresent s = s) ∧
    (p.mode ≠ .disabled →
      (∀ x, x ≠ f → (observe f isPresent s).fault x = s.fault x) ∧
      (observe f isPresent s).alert = (observe f isPresent s).faults.anyActionable ∧
      ((r.state = .latched ∨ r.state = .retryWait ∨ r.state = .reported) →
        (observe f isPresent s).fault f = { r with lastPresent := isPresent }) ∧
      ((r.state = .clear ∨ r.state = .counting) →
        (isPresent = false → (observe f isPresent s).fault f = { r with state := .clear, deglitch := 0, lastPresent := false }) ∧
        (isPresent = true → r.deglitch + 1 < p.deglitch →
          (observe f isPresent s).fault f = { r with state := .counting, deglitch := r.deglitch + 1, lastPresent := true }) ∧
        (∀ recent escalated : Bool, isPresent = true → p.deglitch ≤ r.deglitch + 1 →
          (recent = true ↔ ∃ q, r.lastRecovery = some q ∧ s.now - q < 10000) → (escalated = true ↔ recent = true ∧ 3 ≤ r.escalation) →
          (observe f isPresent s).fault f =
            { state := if escalated then .latched else match p.mode with
                | .latched => .latched
                | .retry => .retryWait
                | .report => .reported
                | .disabled => .clear
              deglitch := 0, lastPresent := true, sticky := true, inForce := some ⟨p.mode, p.action, p.retryTime⟩
              retryRemaining := if p.mode = .retry ∧ escalated = false then some (p.retryTime * 100) else none
              escalation := if recent = true ∧ escalated = false then r.escalation + 1 else 0
              lastRecovery := if recent then r.lastRecovery else none })))

/-- R120 (steps 3 to 7), R121, R125, R126, R128: what a raise does beside its record (ObservationsCountAndRaise). A FAULT event of the raise
is queued before anything else, with the state taken, the action, the escalation count, and whether the raise was escalated and made a swap.
A swap is made exactly where the record is actionable with action SWAP, its endpoint is the active one of an enabled zone in SERVICE with a
standby endpoint, and the other side is PRESENT and free of actionable records; the zone then changes its side, and no other zone does, and
its open-loop candidate ends (R61). The protection of the zone concerned is derived anew, and one that becomes MUTED leaves its call and
ends its open-loop candidate. A raise that is not actionable does nothing more than its record, its event and ALERT. That the event of a
device fault carries 0 as its subject index is the model's choice (log 51), and so is that no other zone than that of the endpoint's zone
field is concerned (log 53). -/
def Obligations.RaisesReportSwapAndProtect : Prop :=
  ∀ (f : FaultRef) (s t : State) (r : FaultRecord) (p : Policy) (escalated swapped : Bool), r = s.fault f →
    p = s.policy[policyIndex f] → p.mode ≠ .disabled → r.state = .clear ∨ r.state = .counting → p.deglitch ≤ r.deglitch + 1 →
    t = observe f true s →
    (escalated = true ↔ ∃ q, r.lastRecovery = some q ∧ s.now - q < 10000 ∧ 3 ≤ r.escalation) →
    (swapped = true ↔ (p.mode = .latched ∨ p.mode = .retry ∨ escalated = true) ∧ p.action = .swap ∧ s.service = .service ∧
      ∃ e k x, f = .endpoint e k ∧ (s.endpoint e).inUse = true ∧ (s.endpoint e).role ≠ .usherLight ∧
        (s.zone (s.endpoint e).place).enabled = true ∧ (s.zone (s.endpoint e).place).active = some e ∧
        (s.zone (s.endpoint e).place).standby.isSome = true ∧ (s.zone (s.endpoint e).place).other = some x ∧ x ≠ e ∧
        (s.endpoint x).presence = .present ∧ ∀ j, (s.fault (.endpoint x j)).state.actionable = false) →
    (∃ rest, t.events = s.eventsWith s.config.eventNode (s.faultEventRecord f
      (1 + (if escalated then 2 else 0) + (if swapped then 4 else 0)) (t.fault f).state p.action (t.fault f).escalation) ++ rest) ∧
    ((t.fault f).state.actionable = true ↔ p.mode = .latched ∨ p.mode = .retry ∨ escalated = true) ∧
    ((t.fault f).state.actionable = false → t = { s with faults := t.faults, alert := t.alert, events := t.events }) ∧
    (∀ z, (t.zone z).side = if swapped = true ∧ s.zoneConcerned f = some z then
        (match (s.zone z).side with
          | .primary => .standby
          | .standby => .primary) else (s.zone z).side) ∧
    (∀ z l, swapped = true → s.zoneConcerned f = some z → s.loopOf z = some l →
      t.loops = s.loops.set l { s.loops[l] with candidate := none, accumulator := 0 }) ∧
    (∀ z, (t.fault f).state.actionable = true → s.zoneConcerned f = some z →
      (t.zone z).protection = t.protectionOf z ∧
      ((s.zone z).protection ≠ .muted → (t.zone z).protection = .muted →
        (s.CallsSound → t.claimant z = none) ∧
        ∀ l, s.loopOf z = some l → t.loops[l].candidate = none ∧ t.loops[l].accumulator = 0)) ∧
    (∀ e k, f = .endpoint e k → s.zoneConcerned f = s.zoneOfEndpoint e) ∧ ((∀ e k, f ≠ .endpoint e k) → s.zoneConcerned f = none) ∧
    (∀ z, s.zoneConcerned f ≠ some z → (t.zone z).protection = (s.zone z).protection) ∧ t.still = s.still

/-! ## The mix engine, the loop processor and the description unit (Chapters 1, 3 and 4) -/

/-- R1, R3, R4, R10, R11: `r` is the floor of (v + 8192) / 16384, `sat` clamps into the sample range and changes nothing within it, `comp`
is the lesser of 65535 and the rounded product of two gains, with unity as neutral; a bus sample is the saturated rounding of the one exact
sum over the in-use routes that name the bus, and the clip flag says whether one of the 48 saturated. -/
def Obligations.BusesAreExactSumsRoundedOnce : Prop :=
  (∀ v : Int, 16384 * rnd v ≤ v + 8192 ∧ v + 8192 < 16384 * (rnd v + 1)) ∧
  (∀ v : Int, -8388608 ≤ sat v ∧ sat v ≤ 8388607 ∧ (-8388608 ≤ v → v ≤ 8388607 → sat v = v) ∧
    (v < -8388608 → sat v = -8388608) ∧ (8388607 < v → sat v = 8388607)) ∧
  (∀ a b : Nat, (comp a b : Int) = min 65535 (rnd ((a : Int) * b)) ∧ comp a b ≤ 65535 ∧ (a ≤ 65535 → comp a 16384 = a) ∧
    (rnd ((a : Int) * b) ≤ 65535 → (comp a b : Int) = rnd ((a : Int) * b))) ∧
  (∀ (routes : Vector Route 128) (ing : List (List Int)) (b : Fin 32) (acc : Nat → Int), (∀ i : Fin 64, (slotOf ing i).length = 48) →
    (∀ n, acc n = ((List.finRange 128).map fun i =>
      if routes[i].inUse = true ∧ routes[i].bus = b then (slotOf ing routes[i].slot).getD n 0 * (routes[i].gain : Int) else 0).sum) →
    (busBlock routes ing b).length = 48 ∧ (∀ n, n < 48 → (busBlock routes ing b).getD n 0 = sat (rnd (acc n))) ∧
    (busClip routes ing b = true ↔ ∃ n, n < 48 ∧ sat (rnd (acc n)) ≠ rnd (acc n)))

/-- R12, R13: a slew step takes a runtime gain toward its target by at most the duck step and never past it; the ramp inside the block
adds, at each sample, the quotient of R13 truncated toward zero; it ends on the new value, stays between the two, and is flat where they are
equal. -/
def Obligations.GainsSlewAndRampTowardTheirTargets : Prop :=
  (∀ g0 t s : Nat, (g0 < t → slew g0 t s = min t (g0 + s)) ∧ (t < g0 → (slew g0 t s : Int) = max (t : Int) ((g0 : Int) - s)) ∧
    (g0 = t → slew g0 t s = g0) ∧ min g0 t ≤ slew g0 t s ∧ slew g0 t s ≤ max g0 t) ∧
  (∀ g0 g1 n : Nat, ramp g0 g1 n = g0 + Int.tdiv (((g1 : Int) - g0) * (n + 1)) 48) ∧
  (∀ g0 g1 n : Nat, n < 48 → ((min g0 g1 : Nat) : Int) ≤ ramp g0 g1 n ∧ ramp g0 g1 n ≤ ((max g0 g1 : Nat) : Int) ∧
    48 * (ramp g0 g1 n - g0).natAbs ≤ ((g1 : Int) - g0).natAbs * (n + 1) ∧
    ((g1 : Int) - g0).natAbs * (n + 1) < 48 * ((ramp g0 g1 n - g0).natAbs + 1)) ∧
  (∀ g0 g1 : Nat, ramp g0 g1 47 = g1 ∧ ∀ n, ramp g0 g0 n = g0)

/-- R14 to R20, R22, R23: the chain of one zone over one block. The duck gain takes its slew step toward the least of unity, the call duck
while the claiming call is WAKING or PLAYING, and the VOX depth while the VOX of a DESC zone is active (R15); the voice gain of a DESC zone
toward its parameter, or 0 while a call claims the zone (R16); the output gain toward the trim, for a LOOP zone with the AGC gain, reduced
while REDUCED and 0 while MUTED (R17). In the first block after they were set the gains hold (R14). Bus, voice and call samples, each with its
gain, are rounded and saturated each, their sum is saturated once, and `y` is that sum by the output gain, rounded (R18, R19). The clip flag
says whether some `y` saturates. The sample sent is 0 while the zone is MUTED, else the test signal while a test mode is in force, else `y`
saturated. The block peak is the largest magnitude of a block (R7, R20). A LOOP or DESC zone has its bound record (R34, R52, R68). -/
def Obligations.ZoneChainFormsTheSentSamples : Prop :=
  (∀ (s : State) (ing : List (List Int)) (bus : List Int) (h : HandOff) (noise : List (BitVec 23)) (z : ZoneId) (m : ZoneMix)
    (r : Zone) (claim : Option (CallState × PlayerId)) (vox voiceTo base outTo : Nat) (voice call y : Nat → Int),
    m = s.zoneChain ing bus h noise z → r = s.zone z → claim = h.claim z →
    (r.kind ≠ .desc ∧ vox = 16384 ∧ voice = (fun _ => 0)) ∨ (∃ d, r.kind = .desc ∧ s.descOf z = some d ∧
      vox = (if s.descs[d].voxActive then s.descs[d].voxDepth else 16384) ∧
      voiceTo = (if claim = none then s.descs[d].voiceGain else 0) ∧
      voice = fun n => (slotOf ing s.descs[d].voiceSlot).getD n 0) →
    (r.kind ≠ .loop ∧ base = r.trim) ∨ (∃ l, r.kind = .loop ∧ s.loopOf z = some l ∧ base = comp r.trim s.loops[l].agc) →
    (claim = none ∧ call = (fun _ => 0)) ∨ (∃ st p, claim = some (st, p) ∧ call = fun n => (h.block p).getD n 0) →
    outTo = (match r.protection with
      | .normal => base
      | .reduced => comp base r.reduceGain
      | .muted => 0) →
    y = (fun n => rnd (sat (sat (rnd (bus.getD n 0 * ramp r.duckGain m.duck n)) + sat (rnd (voice n * ramp r.voiceGain m.voice n)) +
      sat (rnd (call n * r.callLevel))) * ramp r.outputGain m.output n)) →
    m.sent.length = 48 ∧
    m.duck = (if r.fresh then r.duckGain else slew r.duckGain (min 16384 (min vox
      (if claim.map Prod.fst = some .waking ∨ claim.map Prod.fst = some .playing then r.callDuck else 16384))) r.duckStep) ∧
    m.voice = (if r.kind = .desc ∧ r.fresh = false then slew r.voiceGain voiceTo r.duckStep else r.voiceGain) ∧
    m.output = (if r.fresh then r.outputGain else slew r.outputGain outTo r.duckStep) ∧
    (m.clip = true ↔ ∃ n, n < 48 ∧ sat (y n) ≠ y n) ∧
    (r.protection = .muted → ∀ n, m.sent.getD n 0 = 0) ∧
    (r.protection ≠ .muted → ∀ n, n < 48 →
      (r.testMode = .none → m.sent.getD n 0 = sat (y n)) ∧
      (r.testMode = .silence → m.sent.getD n 0 = 0) ∧
      (r.testMode = .tone → m.sent.getD n 0 =
        if n < 24 then sat (rnd (4194304 * (r.testLevel : Int))) else -sat (rnd (4194304 * (r.testLevel : Int)))) ∧
      (r.testMode = .noise → m.sent.getD n 0 = sat (rnd (((noise.getD n 0).toNat - 4194304 : Int) * r.testLevel)))) ∧
    (∀ n, -8388608 ≤ m.sent.getD n 0 ∧ m.sent.getD n 0 ≤ 8388607)) ∧
  (∀ block : List Int, (∀ x ∈ block, x.natAbs ≤ blockPeak block) ∧ (block ≠ [] → ∃ x ∈ block, x.natAbs = blockPeak block) ∧
    (block = [] → blockPeak block = 0))

/-- R54, R55, R56, R59, Table 3-3 and R72, Table 4-3: the AGC step of a loop record on a block peak, by its first case that holds, and the
VOX step of a description record on a voice peak. The AGC gain stays within its minimum and maximum. The current limit applies where the
active endpoint is PRESENT and its measured current exceeds Ilim. The last part says which steps a downstream frame takes after its mix
event, from the state `v` and the hand-off `h` that its millisecond event leaves: in SERVICE one AGC step of the record of each enabled LOOP
zone, on the peak of the block sent, with its CURRENT_LIMITED and AGC_SATURATED observations, and one VOX step of the record of each enabled
DESC zone, on the ingress peak of its voice slot; no other loop, description or fault record changes there. That nothing falls between the
mix event and these steps is the model's choice (log 33). -/
def Obligations.AgcAndVoxStep : Prop :=
  (∀ (s : State) (z : ZoneId) (l : LoopRecord), s.overLimit z l = true ↔ ∃ e i, (s.zone z).active = some e ∧
    (s.endpoint e).presence = .present ∧ (s.endpoint e).current = some i ∧ l.currentLimit < i) ∧
  (∀ (s : State) (z : ZoneId) (l : LoopRecord) (claimed : Bool) (p : Nat) (t : LoopRecord),
    t = l.afterStep (s.agcCase z l claimed p) p → l.agcMin ≤ l.agc → l.agc ≤ l.agcMax →
    (l.agcMin ≤ t.agc ∧ t.agc ≤ l.agcMax ∧ t.settings = l.settings) ∧
    ((s.zone z).protection = .muted ∨ (s.zone z).testMode ≠ .none → t = { l with limited := false, saturated := false }) ∧
    ((s.zone z).protection ≠ .muted → (s.zone z).testMode = .none →
      t.accumulator = max l.accumulator p ∧ t.candidate = l.candidate ∧ (t.limited = true ↔ s.overLimit z l = true) ∧
      (s.overLimit z l = true → t.agc = max l.agcMin (l.agc - l.limitStep) ∧ t.saturated = false) ∧
      (s.overLimit z l = false → claimed = true → t.agc = l.agc ∧ t.saturated = false) ∧
      (s.overLimit z l = false → claimed = false →
        (l.target < p → t.agc = max l.agcMin (l.agc - l.attack) ∧ (t.saturated = true ↔ t.agc = l.agcMin)) ∧
        (p + l.window < l.target → t.agc = min l.agcMax (l.agc + l.release) ∧ t.saturated = false) ∧
        (p ≤ l.target → l.target ≤ p + l.window → t.agc = l.agc ∧ t.saturated = false)))) ∧
  (∀ (d : DescRecord) (v : Nat),
    (d.onThreshold ≤ v → d.voxStep v = { d with voxActive := true, holdRemaining := d.holdTime }) ∧
    (v < d.onThreshold → d.voxActive = false ∨ d.offThreshold ≤ v → d.voxStep v = d) ∧
    (v < d.onThreshold → d.voxActive = true → v < d.offThreshold →
      d.voxStep v = if 1 < d.holdRemaining then { d with holdRemaining := d.holdRemaining - 1 }
        else { d with voxActive := false, holdRemaining := 0 })) ∧
  (∀ (s s1 t v : State) (g : DownFrame) (order : List MsTask) (ing : List (List Int)) (h : HandOff),
    s.cmdQueue = [] → s.cueQueue = [] → s.softResetFlag = false → t.txB = some g →
    ((∃ f, (∀ r ∈ f.records, recordFor s.node r = false) ∧ exec (.downstreamFrameArrival f order) s = .next t ∧
        ing = ((List.range 64).map fun i => slotSamples (f.slots.getD i [])) ∧
        s1 = if s.portA = .lost then observe consoleLinkLostRef false { s with portA := .locked } else { s with portA := .locked }) ∨
      ((s.portA = .locked ∧ exec (.badFrame order) s = .next t ∨ s.portA = .lost ∧ exec (.localTimingFrame order) s = .next t) ∧
        ing = List.replicate 64 (List.replicate 48 0) ∧ s1 = s)) →
    (v, h) = millisecond g.header.number ing order s1 →
    (∀ z l, s.service = .service → (v.zone z).enabled = true → (v.zone z).kind = .loop → v.loopOf z = some l →
      t.loops[l] = v.loops[l].afterStep (v.agcCase z v.loops[l] (h.claim z).isSome (t.zone z).peak) (t.zone z).peak ∧
      t.fault (currentLimitedRef l) = (observe (currentLimitedRef l) t.loops[l].limited v).fault (currentLimitedRef l) ∧
      t.fault (agcSaturatedRef l) = (observe (agcSaturatedRef l) t.loops[l].saturated v).fault (agcSaturatedRef l)) ∧
    (∀ l : ParamId, (∀ z, s.service = .service → (v.zone z).enabled = true → (v.zone z).kind = .loop → v.loopOf z ≠ some l) →
      t.loops[l] = v.loops[l] ∧ ∀ k, t.fault (.loop l k) = v.fault (.loop l k)) ∧
    (∀ z d, s.service = .service → (v.zone z).enabled = true → (v.zone z).kind = .desc → v.descOf z = some d →
      t.descs[d] = v.descs[d].voxStep (blockPeak (ing.getD v.descs[d].voiceSlot.val (List.replicate 48 0)))) ∧
    (∀ d : ParamId, (∀ z, s.service = .service → (v.zone z).enabled = true → (v.zone z).kind = .desc → v.descOf z ≠ some d) →
      t.descs[d] = v.descs[d]) ∧
    (∀ f, (∀ l k, f ≠ .loop l k) → t.fault f = v.fault f))

/-- Tables 3-4 and 3-5, R57 to R62: the report of a LOOP_AMP. On the inactive side of its zone, or of a disabled zone, OVERCURRENT and
OPEN_LOOP are observed absent and no record changes. On the active side of a LOOP zone OVERCURRENT is observed present exactly where the
measured current exceeds the threshold, whatever protection and test mode, the peak accumulator is read and becomes 0, and the open-loop
candidate follows Table 3-5; while the zone is MUTED or in a test mode the candidate ends and OPEN_LOOP is observed absent. The second part
ties this to a TELEMETRY record: what the record of a PRESENT endpoint observes are its last observations afterwards, and the two flags are
those of AMP_THERMAL and SUPPLY_LOW for every role. The evaluation before any observation is handed over is log 26. -/
def Obligations.LoopReportsFollowTheirTables : Prop :=
  (∀ (e : EndpointId) (z : ZoneId) (s : State),
    ((s.zone z).enabled = false ∨ (s.zone z).active ≠ some e → loopReport e z s = (s, some false, some false)) ∧
    (∀ (l : ParamId) (r : LoopRecord) (I : Option Nat), (s.zone z).enabled = true → (s.zone z).active = some e →
      (s.zone z).kind = .loop → s.loopOf z = some l → r = s.loops[l] → I = (s.endpoint e).current →
      ((s.zone z).protection = .muted ∨ (s.zone z).testMode ≠ .none → loopReport e z s =
        ({ s with loops := s.loops.set l { r with candidate := none, accumulator := 0 } },
          I.map fun i => decide (r.overcurrent < i), some false)) ∧
      ((s.zone z).protection ≠ .muted → (s.zone z).testMode = .none →
        (I = none → loopReport e z s = ({ s with loops := s.loops.set l { r with accumulator := 0 } }, none, none)) ∧
        (∀ i, I = some i → ∀ (candidate : Option Nat) (o : Option Bool),
          (r.openCurrent ≤ i ∧ candidate = none ∧ o = some false) ∨
          (i < r.openCurrent ∧ r.accumulator < r.openSignal ∧ candidate = r.candidate ∧ o = none) ∨
          (i < r.openCurrent ∧ r.openSignal ≤ r.accumulator ∧ r.candidate = none ∧ candidate = some s.now ∧ o = none) ∨
          (∃ q, i < r.openCurrent ∧ r.openSignal ≤ r.accumulator ∧ r.candidate = some q ∧ candidate = some q ∧
            o = if r.openTime ≤ s.now - q then some true else none) →
          loopReport e z s = ({ s with loops := s.loops.set l { r with candidate := candidate, accumulator := 0 } },
            some (decide (r.overcurrent < i)), o))))) ∧
  (∀ (f : RetFrame) (s : State) (before after : List Record) (r : Record) (e : EndpointId) (p : Power) (z : ZoneId) (w : State),
    s.service = .service → s.cmdQueue = [] → s.cueQueue = [] → f.records = before ++ r :: after →
    (∀ x ∈ before ++ after, recordFor s.node x = false) → recordFor s.node r = true → recordKind r = 5 →
    (s.endpoint e).inUse = true → (s.endpoint e).node = recordSource r →
    (∀ x, (s.endpoint x).inUse = true → (s.endpoint x).node = recordSource r → x = e) → powerOf (byteAt r.payload 0) = some p →
    (s.endpoint e).presence = .present → (s.endpoint e).place = z →
    w = { s with endpoints := s.endpoints.set e { s.endpoint e with
      current := if word16 r.payload 1 = 0xFFFF then none else some (min 20000 (word16 r.payload 1).toNat) } } →
    ∃ t, exec (.returnFrameArrival f) s = .next t ∧
      (s.policy[4].mode ≠ .disabled → (t.fault (ampThermalRef e)).lastPresent = (byteAt r.payload 3).getLsbD 0) ∧
      (s.policy[5].mode ≠ .disabled → (t.fault (supplyLowRef e)).lastPresent = (byteAt r.payload 3).getLsbD 1) ∧
      ((s.endpoint e).role = .loopAmp → s.policy[2].mode ≠ .disabled →
        (t.fault (overcurrentRef e)).lastPresent = (loopReport e z w).2.1.getD (s.fault (overcurrentRef e)).lastPresent) ∧
      ((s.endpoint e).role = .loopAmp → s.policy[3].mode ≠ .disabled →
        (t.fault (openLoopRef e)).lastPresent = (loopReport e z w).2.2.getD (s.fault (openLoopRef e)).lastPresent) ∧
      ((s.endpoint e).role ≠ .loopAmp → (t.fault (overcurrentRef e)).lastPresent = (s.fault (overcurrentRef e)).lastPresent ∧
        (t.fault (openLoopRef e)).lastPresent = (s.fault (openLoopRef e)).lastPresent) ∧
      (∀ l, (s.endpoint e).role = .loopAmp → (s.zone z).enabled = true → (s.zone z).active = some e → (s.zone z).kind = .loop →
        s.loopOf z = some l → t.loops[l].accumulator = 0 ∧
          (t.loops[l].candidate = (loopReport e z w).1.loops[l].candidate ∨ t.loops[l].candidate = none)))

/-! ## The frame boundary: examination, dispatch, preemption, players (R90 to R97) -/

/-- R90: the frame boundary. In CONFIGURATION it does nothing. In SERVICE the states `u` go through steps 1 to 4, each over the records in
ascending index: the tail test, the end of audio, the waking test and the expiry, as the rows of these tests have them; then the states `w`
through step 5, the dispatch of the PENDING calls `cs` in pending order (R85), each as DispatchClaimsAndPreemptionReleases says, with the
zones that the calls which stayed PENDING want; then comes the hand-off (PlayersFormTheirBlocks). R94, R95, R96: a PLAYING call whose source
ended in the previous block, or a LIVE one at the live maximum, enters TAIL with no outcome fixed anew, and with a tail time of 0 completes;
any other call passes step 2 as it is. -/
def Obligations.FrameBoundaryMakesItsExamination : Prop :=
  (∀ (ing : List (List Int)) (s : State), s.service = .configuration → frameBoundary ing s = (s, HandOff.silent)) ∧
  (∀ (ing : List (List Int)) (s : State) (u : Nat → State) (w : Nat → State × ZoneSet) (cs : List CallId),
    s.service = .service → u 0 = s →
    (∀ c : CallId, exec (.tailEnd c) (u c.val) = .next (u (c.val + 1)) ∧
      u (c.val + 17) = endOfAudioTest c (u (c.val + 16)) ∧
      exec (.wakeDeadlineExpiry c) (u (c.val + 32)) = .next (u (c.val + 33)) ∧
      exec (.pendingExpiry c) (u (c.val + 48)) = .next (u (c.val + 49))) →
    w 0 = (u 64, 0) → cs.Nodup →
    (∀ (k : Nat) (c : CallId), cs[k]? = some c → ((w k).1.call c).state = .pending ∧
      w (k + 1) = dispatchCall c (w k).2 (w k).1 ∧
      ∀ d, d ≠ c → d ∉ cs.take k → ((w k).1.call d).state = .pending →
        ((w k).1.call d).priority < ((w k).1.call c).priority ∨
        ((w k).1.call d).priority = ((w k).1.call c).priority ∧
          0 < (((w k).1.call d).arrival - ((w k).1.call c).arrival).toNat ∧
          (((w k).1.call d).arrival - ((w k).1.call c).arrival).toNat < 2 ^ 31) →
    (∀ d, ((w cs.length).1.call d).state = .pending → d ∈ cs) →
    frameBoundary ing s = handOff ing (w cs.length).1) ∧
  (∀ (c : CallId) (s : State) (r : Call) (ended : Prop), r = s.call c →
    (ended ↔ (∃ ids n, r.source = .stored ids n ∧ n ≤ r.plays) ∨ ∃ slot pre, r.source = .live slot pre ∧
      (r.outcome = some .sourceLost ∨ s.config.liveMax * 1000 ≤ r.liveElapsed)) →
    (r.state ≠ .playing ∨ ¬ ended → endOfAudioTest c s = s) ∧
    (r.state = .playing → ended →
      (s.config.tailTime ≠ 0 → endOfAudioTest c s = { s with calls := s.calls.set c (r.inTail s.config.tailTime none) }) ∧
      (s.config.tailTime = 0 → (endOfAudioTest c s).calls = s.calls.set c {} ∧ (endOfAudioTest c s).still = s.still)))

/-- R39, R40, R41, R85, R91, R92: the dispatch of a PENDING call. Its deliverable set D is what is deliverable of its target (step 1); with
none it completes NOT_DELIVERED. A zone of D that an earlier waiting call wants or that an equal or higher call claims keeps it PENDING, and
its target then joins the zones wanted (step 2). Otherwise it takes the lowest free player, else that of the lowest running call below it,
of equals the one started last, which is the `victim` and is preempted; with no such call it stays PENDING (step 3). Every lower call that
claims a zone of D is preempted (step 4), and no other call changes. On either player it then claims D, misses the rest of its target, takes
the start counter as its start order, gives each zone that is not awake, and no other, a wake deadline, and is PLAYING where every claimed
zone is awake, with WAKE_FAILED observed absent for their active endpoints, else WAKING (steps 5, 6). R39 to R41: the commanded power of the
endpoints of each zone claimed or released is worked out anew, a PRESENT endpoint whose state changes is sent POWER with it, so that one in
STANDBY is woken, and a CALLS_ONLY zone released has its idle deadline set. A preempted call returns to PENDING where it is a STORED call
with the retain flag that has returned fewer than two times; otherwise it completes. That one which returns keeps its start order is the
model's choice (log 50). -/
def Obligations.DispatchClaimsAndPreemptionReleases : Prop :=
  (∀ (c : CallId) (waiting D : ZoneSet) (s : State) (r : Call) (held : PlayerId → Prop), s.CallsSound → r = s.call c →
    r.state = .pending → (∀ z : ZoneId, D.getLsbD z.val = true ↔ r.target.getLsbD z.val = true ∧ s.deliverable z = true) →
    (held = fun p => ∃ x, (s.call x).running = true ∧ (s.call x).player = some p) →
    (∀ n, D = 0 → r.origin = .external n → dispatchCall c waiting s = ({ s with
      calls := s.calls.set c {}
      events := s.eventsWith n (s.completionEvent n r.tag (r.outcome.getD .notDelivered) 0 r.target) }, waiting)) ∧
    (∀ z : ZoneId, D.getLsbD z.val = true →
      (waiting.getLsbD z.val = true ∨ ∃ x, s.claimant z = some x ∧ r.priority ≤ (s.call x).priority) →
      dispatchCall c waiting s = (s, waiting ||| r.target)) ∧
    (D ≠ 0 → (∀ p, held p) → (∀ x, (s.call x).running = true → r.priority ≤ (s.call x).priority) →
      dispatchCall c waiting s = (s, waiting ||| r.target)) ∧
    (D ≠ 0 → (∀ z : ZoneId, D.getLsbD z.val = true → waiting.getLsbD z.val = false ∧
        ∀ x, s.claimant z = some x → (s.call x).priority < r.priority) →
      ∀ (p : PlayerId) (victim : Option CallId),
      (victim = none ∧ ¬ held p ∧ ∀ q, q < p → held q) ∨
        (∃ v, victim = some v ∧ (∀ q, held q) ∧ (s.call v).running = true ∧ (s.call v).player = some p ∧
          (s.call v).priority < r.priority ∧ ∀ x, x ≠ v → (s.call x).running = true → (s.call x).priority < r.priority →
          (s.call v).priority < (s.call x).priority ∨ (s.call v).priority = (s.call x).priority ∧
            0 < ((s.call v).startOrder.getD 0 - (s.call x).startOrder.getD 0).toNat ∧
            ((s.call v).startOrder.getD 0 - (s.call x).startOrder.getD 0).toNat < 2 ^ 31) →
      ∃ t, dispatchCall c waiting s = (t, waiting) ∧ t.startCounter = s.startCounter + 1 ∧
        (t.call c).delivered = D ∧ (t.call c).missed = r.target &&& ~~~ D ∧
        (t.call c).player = some p ∧ (t.call c).startOrder = some s.startCounter ∧
        (t.call c).plays = 0 ∧ (t.call c).position = 0 ∧ (t.call c).offset = 0 ∧
        (t.call c).state = (if ∀ z : ZoneId, D.getLsbD z.val = true → s.awake z = true then .playing else .waking) ∧
        (∀ z : ZoneId, D.getLsbD z.val = true → t.claimant z = some c ∧
          (t.call c).wake[z] = if s.awake z then none else some (s.now + s.config.wakeTimeout)) ∧
        (∀ out : CallId → Prop, (∀ x, out x ↔ x ≠ c ∧ (victim = some x ∨ (s.call x).running = true ∧
            (s.call x).priority < r.priority ∧ (s.call x).delivered &&& D ≠ 0)) →
          (∀ x, x ≠ c → (out x → t.call x = (preempt x s).call x) ∧ (¬ out x → t.call x = s.call x)) ∧
          (∀ z : ZoneId, ((∃ x, out x ∧ (s.call x).delivered.getLsbD z.val = true) →
              t.zone z = (s.zone z).released s.now ∧ t.PowerWorkedOut z) ∧
            ((∀ x, out x → (s.call x).delivered.getLsbD z.val = false) → t.zone z = s.zone z))) ∧
        (∀ z : ZoneId, D.getLsbD z.val = true → t.PowerWorkedOut z) ∧ s.PowerSent t ∧
        (∀ (z : ZoneId) e, s.policy[1].mode ≠ .disabled → (∀ y : ZoneId, D.getLsbD y.val = true → s.awake y = true) →
          D.getLsbD z.val = true → (s.zone z).active = some e → (t.fault (wakeFailedRef e)).lastPresent = false) ∧
        { t with startCounter := s.startCounter }.still = s.still)) ∧
  (∀ (c : CallId) (s : State), (s.call c).state = .waking ∨ (s.call c).state = .playing ∨ (s.call c).state = .tail →
    (∀ z : ZoneId, (preempt c s).zone z = (if (s.call c).delivered.getLsbD z.val then (s.zone z).released s.now else s.zone z) ∧
      ((s.call c).delivered.getLsbD z.val = true → (preempt c s).PowerWorkedOut z)) ∧ (preempt c s).still = s.still ∧
    ((s.call c).state ≠ .tail → (s.call c).source.isStored = true → (s.call c).retain = true → (s.call c).requeue < 2 →
      (preempt c s).call c = { s.call c with
        state := .pending, requeue := (s.call c).requeue + 1, delivered := 0, missed := 0, wake := Vector.replicate 32 none
        plays := 0, position := 0, offset := 0, pendingSince := s.now, player := none } ∧ (preempt c s).events = s.events) ∧
    (∀ n, (s.call c).origin = .external n → ((s.call c).state = .tail ∨ (s.call c).source.isStored = false ∨
        (s.call c).retain = false ∨ 2 ≤ (s.call c).requeue) →
      (preempt c s).call c = {} ∧
      (preempt c s).events = s.eventsWith n (s.completionEvent n (s.call c).tag
        ((s.call c).outcome.getD (if (s.call c).state = .tail then
          (if (s.call c).delivered = 0 then .notDelivered else if (s.call c).missed = 0 then .delivered else .partialDelivery)
          else .preempted)) (s.call c).delivered (s.call c).missed)))

/-- R90 (step 6), R94, R95, R96, R97: the hand-off. It gives each claimed zone the state and the player of its claiming call, and each
player its block: zeros where no PLAYING call holds it. A PLAYING STORED call forms the next 48 samples of its messages, played in sequence
as many times as its repeat count, each word by 256, and zeros after the end; its place moves on past the words played. That a source which
has ended shows position and offset 0 is the model's choice (log 44). A PLAYING LIVE call forms what is left of its pre-message and then the
samples of its slot, and its live part has then begun; where it would begin while port A is LOST the rest is zeros and the outcome
SOURCE_LOST, and a call without pre-message that has not begun enters TAIL at once, which is the model's choice (log 23). The tail remaining
of a call in TAIL runs down and the live elapsed time of a PLAYING LIVE call runs up by one; no other record changes, and while port A is
not LOST nothing but the call records. -/
def Obligations.PlayersFormTheirBlocks : Prop :=
  ∀ (ing : List (List Int)) (s t : State) (h : HandOff), s.CallsSound → (t, h) = handOff ing s →
    (∀ z, (t.claimant z = none → h.claim z = none) ∧
      ∀ c p, t.claimant z = some c → (t.call c).player = some p → h.claim z = some ((t.call c).state, p)) ∧
    (∀ p : PlayerId, (∀ c, (t.call c).state = .playing → (t.call c).player ≠ some p) → h.block p = List.replicate 48 0) ∧
    (∀ c, (s.call c).state = .free ∨ (s.call c).state = .pending ∨ (s.call c).state = .waking → t.call c = s.call c) ∧
    (∀ c, (s.call c).state = .tail → t.call c = { s.call c with tailRemaining := (s.call c).tailRemaining - 1 }) ∧
    (s.portA ≠ .lost → t = { s with calls := t.calls }) ∧
    (∀ (c : CallId) (p : PlayerId) (r : Call), r = s.call c → r.state = .playing → r.player = some p →
      (∀ (ids : List MessageId) (n : Nat) (start len : MessageId → Nat) (words : List (BitVec 16)) (at_ : Nat),
        r.source = .stored ids n → r.plays < n →
        (∀ id ∈ ids, 1 ≤ len id ∧ ∃ pointer, s.messages[id].extent = some (start id, len id, pointer)) →
        (∃ id, ids[r.position]? = some id ∧ r.offset < len id) →
        words = (ids.flatMap fun id => (List.range (len id)).map fun i => memWord s.mem (start id * 4096 + i)) →
        at_ = r.plays * words.length + ((ids.take r.position).map len).sum + r.offset →
        h.block p = (((List.replicate n words).flatten.drop at_).map (fun v : BitVec 16 => 256 * v.toInt) ++ List.replicate 48 0).take 48 ∧
        ∃ plays position offset, t.call c = { r with plays := plays, position := position, offset := offset } ∧
          (∃ id, ids[position]? = some id ∧ offset < len id) ∧
          plays * words.length + ((ids.take position).map len).sum + offset = min (at_ + 48) (n * words.length)) ∧
      (∀ slot : Fin 64, r.source = .live slot none →
        (r.liveBegun = true ∨ s.portA ≠ .lost → h.block p = ing.getD slot.val (List.replicate 48 0) ∧
          t.call c = { r with liveBegun := true, liveElapsed := r.liveElapsed + 1 }) ∧
        (r.liveBegun = false → s.portA = .lost → h.block p = List.replicate 48 0 ∧
          t.call c = if s.config.tailTime = 0 then {} else r.inTail (s.config.tailTime - 1) (some .sourceLost))) ∧
      (∀ (slot : Fin 64) (id : MessageId) (start len pointer : Nat) (left : List Int), r.source = .live slot (some id) →
        s.messages[id].extent = some (start, len, pointer) → (r.plays = 0 → r.position = 0 ∧ r.offset < len) →
        left = (if r.plays = 0 then ((List.range len).drop r.offset).map fun i => 256 * (memWord s.mem (start * 4096 + i)).toInt
          else []) →
        ∀ moved : Call, moved = (if r.plays = 0 then (if 48 < left.length then { r with offset := r.offset + 48 }
          else { r with plays := 1, position := 0, offset := 0 }) else r) →
        (48 ≤ left.length → h.block p = left.take 48 ∧ t.call c = { moved with liveElapsed := r.liveElapsed + 1 }) ∧
        (left.length < 48 → r.liveBegun = true ∨ s.portA ≠ .lost →
          h.block p = left ++ (ing.getD slot.val (List.replicate 48 0)).drop left.length ∧
          t.call c = { moved with liveBegun := true, liveElapsed := r.liveElapsed + 1 }) ∧
        (left.length < 48 → r.liveBegun = false → s.portA = .lost →
          h.block p = left ++ List.replicate (48 - left.length) 0 ∧
          t.call c = { moved with outcome := some .sourceLost, liveElapsed := r.liveElapsed + 1 })))

/-! ## Management commands (Chapter 9 and the chapters of their blocks) -/

/-- R34, R52, R68, R105, R153, R154: COMMIT is refused WRONG_STATE in SERVICE, and in CONFIGURATION with the table and index of its first
failing check: zones in ascending number, then endpoints in ascending index, then gates. A refused COMMIT changes nothing. The last clauses
say what the checks are: an enabled zone has an in-use primary endpoint, and where it names a standby endpoint an in-use one, each of this
zone and of a role that agrees with its kind; a LOOP and a DESC zone has its record; an in-use endpoint that is no usher light is listed by
its zone and agrees with its kind; an admission mask names LOUNGE and FOYER zones only. -/
def Obligations.CommitIsRefusedAtItsFirstFailure : Prop :=
  (∀ (src : Node) (req : Byte) (s : State), s.commandReady (.commit src req) src →
    (s.service = .service → exec (.commit src req) s = .next (s.answered (s.reply src 0x01 req .wrongState []))) ∧
    (s.service = .configuration →
      (∀ z : ZoneId, (s.zone z).enabled = true → s.zoneReady z = false →
        (∀ y, y < z → (s.zone y).enabled = true → s.zoneReady y = true) →
        exec (.commit src req) s = .next (s.answered (s.reply src 0x01 req .badConfig [0x02, BitVec.ofNat 8 z.val]))) ∧
      ((∀ z, (s.zone z).enabled = true → s.zoneReady z = true) →
        (∀ e : EndpointId, (s.endpoint e).inUse = true → (s.endpoint e).role ≠ .usherLight → s.endpointListed e = false →
          (∀ y, y < e → (s.endpoint y).inUse = true → (s.endpoint y).role ≠ .usherLight → s.endpointListed y = true) →
          exec (.commit src req) s = .next (s.answered (s.reply src 0x01 req .badConfig [0x05, BitVec.ofNat 8 e.val]))) ∧
        ((∀ e : EndpointId, (s.endpoint e).inUse = true → (s.endpoint e).role ≠ .usherLight → s.endpointListed e = true) →
          ∀ g : GateId, s.admissionMaskOk (s.gate g).mask = false → (∀ y, y < g → s.admissionMaskOk (s.gate y).mask = true) →
          exec (.commit src req) s = .next (s.answered (s.reply src 0x01 req .badConfig [0x06, BitVec.ofNat 8 g.val])))))) ∧
  (∀ (s : State) (agrees : ZoneKind → Role → Prop) (suits : ZoneId → EndpointId → Prop),
    (agrees = fun k r => k = .loop ∧ r = .loopAmp ∨ k = .desc ∧ r = .descTx ∨ k = .foyer ∧ r = .foyerAmp ∨
      k = .lounge ∧ r = .loungeUnit) →
    (suits = fun z e => (s.endpoint e).inUse = true ∧ (s.endpoint e).place = z ∧ agrees (s.zone z).kind (s.endpoint e).role) →
    (∀ z, s.zoneReady z = true ↔ (∃ e, (s.zone z).primary = some e ∧ suits z e) ∧ (∀ e, (s.zone z).standby = some e → suits z e) ∧
      ((s.zone z).kind = .loop → ∃ l : ParamId, s.loops[l].zone = some z) ∧
      ((s.zone z).kind = .desc → ∃ d : ParamId, s.descs[d].zone = some z)) ∧
    (∀ e z, (s.endpoint e).place = z → (s.endpointListed e = true ↔
      ((s.zone z).primary = some e ∨ (s.zone z).standby = some e) ∧ agrees (s.zone z).kind (s.endpoint e).role)) ∧
    (∀ mask, s.admissionMaskOk mask = true ↔
      ∀ z : ZoneId, mask.getLsbD z.val = true → (s.zone z).kind = .lounge ∨ (s.zone z).kind = .foyer))

/-- R25, R33, R53, R71, R84, R103, R118, R153, R155: a COMMIT whose checks pass is answered OK and puts the runtime state of every block at
its value for the start of SERVICE; no directive is issued, no event queued, and tables, messages, queues and settings stay. R14: the gains
of an enabled zone are set and marked `fresh`, so that its first block holds them (ZoneChainFormsTheSentSamples); those of a disabled zone
keep their values. R20: every zone keeps its block peak and clip flag. R33: every runtime field of every endpoint has the value of Table
2-3, the commanded state of an in-use one that of Table 2-5 (R39 gives none to another). R53, R71: a loop or description record that is not
bound stays as it is. -/
def Obligations.CommitStartsTheServices : Prop :=
  ∀ (src : Node) (req : Byte) (s : State), s.commandReady (.commit src req) src → s.service = .configuration →
    (∀ z, (s.zone z).enabled = true → s.zoneReady z = true) →
    (∀ e : EndpointId, (s.endpoint e).inUse = true → (s.endpoint e).role ≠ .usherLight → s.endpointListed e = true) →
    (∀ g : GateId, s.admissionMaskOk (s.gate g).mask = true) →
    ∃ t, exec (.commit src req) s = .next t ∧ t.service = .service ∧
      t.replies = s.replies ++ [s.reply src 0x01 req .ok []] ∧ t.faults = {} ∧ t.alert = false ∧
      (∀ c, (t.call c).state = .free) ∧ t.arrivalCounter = 0 ∧ t.startCounter = 0 ∧
      (∀ z, (t.zone z).settings = { (s.zone z).settings with testMode := .none, testLevel := 8192, suspended := false } ∧
        (t.zone z).side = .primary ∧ (t.zone z).protection = .normal ∧
        (t.zone z).idleDeadline = (if (s.zone z).idlePolicy = .callsOnly then some (s.now + (s.zone z).idleTime * 1000) else none) ∧
        ((s.zone z).enabled = true → (t.zone z).duckGain = 16384 ∧ (t.zone z).fresh = true ∧
          ((s.zone z).kind ≠ .desc → (t.zone z).voiceGain = (s.zone z).voiceGain) ∧
          ((s.zone z).kind ≠ .loop → (t.zone z).outputGain = (s.zone z).trim) ∧
          (∀ l, (s.zone z).kind = .loop → s.loopOf z = some l →
            (t.zone z).outputGain = comp (s.zone z).trim (max s.loops[l].agcMin (min s.loops[l].agcMax 16384))) ∧
          (∀ d, (s.zone z).kind = .desc → s.descOf z = some d → (t.zone z).voiceGain = s.descs[d].voiceGain)) ∧
        ((s.zone z).enabled = false → (t.zone z).duckGain = (s.zone z).duckGain ∧ (t.zone z).voiceGain = (s.zone z).voiceGain ∧
          (t.zone z).outputGain = (s.zone z).outputGain ∧ (t.zone z).fresh = (s.zone z).fresh) ∧
        (t.zone z).peak = (s.zone z).peak ∧ (t.zone z).clip = (s.zone z).clip) ∧
      (∀ e, t.endpoint e = { s.endpoint e with
        presence := .absent, reported := .off, debounceStart := none, lastTelemetry := none, lastPower := none, current := none
        thermal := false, supplyLow := false, commanded := if (s.endpoint e).inUse then t.commandedPower e else (t.endpoint e).commanded }) ∧
      (∀ l : ParamId, s.loops[l].zone.isSome = true → t.loops[l] = { s.loops[l] with
        agc := max s.loops[l].agcMin (min s.loops[l].agcMax 16384), limited := false, saturated := false, candidate := none
        accumulator := 0 }) ∧
      (∀ d : ParamId, s.descs[d].zone.isSome = true → t.descs[d] = { s.descs[d] with voxActive := false, holdRemaining := 0 }) ∧
      (∀ i : ParamId, (s.loops[i].zone = none → t.loops[i] = s.loops[i]) ∧ (s.descs[i].zone = none → t.descs[i] = s.descs[i])) ∧
      (∀ g, t.gate g = { s.gate g with state := .closed, windowDeadline := none, lastClose := none, admissionCall := none }) ∧
      { t with service := s.service, replies := s.replies, faults := s.faults, alert := s.alert, calls := s.calls
               arrivalCounter := s.arrivalCounter, startCounter := s.startCounter, zones := s.zones, endpoints := s.endpoints
               loops := s.loops, descs := s.descs, gates := s.gates } = leaveCommand s

/-- R33, R53, R71, R84, R103, R118, R153, R156: RECONFIGURE is refused WRONG_STATE in CONFIGURATION. In SERVICE it is answered OK: every
call is FREE, every gate at rest, every fault record at its reset values but for the sticky flag, ALERT released, protection NORMAL, every
endpoint ABSENT and commanded OFF with no debounce start, last telemetry or last POWER, while what it last reported (power state, current,
the two flags) is kept until COMMIT, no open-loop candidate, VOX at rest, and the service state CONFIGURATION. Tables, messages, test modes,
suspension, sides and runtime gains are kept. Every call that was not FREE is reported CANCELLED, in ascending index: an EXTERNAL one by its
completion event, a GATE one by its ADMISSION_CALL event; the states `q` collect these events. The ascending index is the model's choice
(log 9). R42: LIGHT off is queued to every in-use usher light of a gate that was OPEN; besides, only the POWER directives of the zones
released are new. That an outcome fixed on a record gives way to CANCELLED is log 22, that the lights need not be PRESENT log 28. -/
def Obligations.ReconfigureStopsTheServices : Prop :=
  ∀ (src : Node) (req : Byte) (s : State), s.commandReady (.reconfigure src req) src →
    (s.service = .configuration →
      exec (.reconfigure src req) s = .next (s.answered (s.reply src 0x02 req .wrongState []))) ∧
    (s.service = .service →
      ∃ t, exec (.reconfigure src req) s = .next t ∧ t.service = .configuration ∧
        t.replies = s.replies ++ [s.reply src 0x02 req .ok []] ∧ (∀ c, (t.call c).state = .free) ∧
        (∀ g, t.gate g = { s.gate g with state := .closed, windowDeadline := none, lastClose := none, admissionCall := none }) ∧
        (∀ f, t.fault f = { sticky := (s.fault f).sticky }) ∧ t.alert = false ∧
        (∀ z, { t.zone z with idleDeadline := (s.zone z).idleDeadline } = { s.zone z with protection := .normal }) ∧
        (∀ e, t.endpoint e = { s.endpoint e with
          presence := .absent, commanded := .off, debounceStart := none, lastTelemetry := none, lastPower := none }) ∧
        (∀ l : ParamId, t.loops[l] = { s.loops[l] with candidate := none, accumulator := 0 }) ∧
        (∀ d : ParamId, t.descs[d] = { s.descs[d] with voxActive := false, holdRemaining := 0 }) ∧
        { t.settled with service := .service } = (leaveCommand s).settled ∧
        (∀ q : Nat → State, q 0 = s →
          (∀ (c : CallId) (r : Call) (delivered missed : ZoneSet), r = s.call c →
            delivered = (if r.state = .pending then 0 else r.delivered) → missed = (if r.state = .pending then r.target else r.missed) →
            q (c.val + 1) = { q c.val with events := if r.state = .free then (q c.val).events else match r.origin with
              | .external n => (q c.val).eventsWith n (s.completionEvent n r.tag .cancelled delivered missed)
              | .gate g => (q c.val).eventsWith s.config.eventNode (s.admissionEvent g .cancelled delivered missed) }) →
          t.events = (q 16).events) ∧
        (∀ (e : EndpointId) (g : GateId), (s.gate g).state = .open_ → (s.endpoint e).inUse = true →
          (s.endpoint e).role = .usherLight → (s.endpoint e).place.val = g.val →
          { endpoint := e, code := .light, dest := (s.endpoint e).node, value := 0 } ∈ t.directives) ∧
        s.directives.map Directive.key <+: t.directives.map Directive.key ∧
        (∀ d ∈ t.directives, d ∈ s.directives ∨
          d.code = .power ∧ (∃ z c, (s.call c).state ≠ .free ∧ (s.call c).delivered.getLsbD z.val = true ∧
            ((s.zone z).primary = some d.endpoint ∨ (s.zone z).standby = some d.endpoint)) ∨
          d.code = .light ∧ d.value = 0 ∧ d.dest = (s.endpoint d.endpoint).node ∧ (s.endpoint d.endpoint).inUse = true ∧
            (s.endpoint d.endpoint).role = .usherLight ∧
            ∃ g : GateId, (s.gate g).state = .open_ ∧ (s.endpoint d.endpoint).place.val = g.val))

/-- R131, R151, R152, R159, R162: STATUS_READ and TABLE_READ change nothing. A read that passes its checks is answered OK with the number of
nine-byte parts of the layout and the bytes of the part asked for; a part at or beyond that number, a class that names none, and an index,
group, kind or table out of range are refused. That a bad index of TABLE_READ is answered BAD_INDEX whatever the group is the model's choice
(log 29, DEDUCED from the order of R151's text). So is that a fault read whose subject and kind both fail is refused for its subject (log
48), and that a read whose part number and another field both fail is refused for the other field (log 56). The third part says what stands
in each layout of Table 11-6 and in each group of Table 11-5: a time of `k` bytes (`tm`) is all ones for none and else at most the largest
value; the bytes that show what no rule states are free values (log 20, log 21), and an idle deadline that has passed shows 0 (log 46). That
an outcome, mode or action that is none shows FFH, and ids beyond their number 0, is the model's choice (log 31). The last part gives the
order of bytes and the codes of Table 11-1. -/
def Obligations.ReadsAnswerAndChangeNothing : Prop :=
  (∀ (src : Node) (req cls index kind part : Byte) (s : State), s.commandReady (.statusRead src req cls index kind part) src →
    (∀ layout, (leaveCommand s).statusLayout cls index kind = .ok layout →
      exec (.statusRead src req cls index kind part) s = .next (s.answered (
        if part.toNat < (layout.length + 8) / 9 then
          s.reply src 0x04 req .ok (BitVec.ofNat 8 ((layout.length + 8) / 9 * 16) :: padTo 9 (layout.drop (9 * part.toNat)))
        else s.reply src 0x04 req .badValue []))) ∧
    (7 < cls.toNat → exec (.statusRead src req cls index kind part) s = .next (s.answered (s.reply src 0x04 req .badValue []))) ∧
    (cls.toNat ≤ 1 ∧ 32 ≤ index.toNat ∨ cls.toNat = 2 ∧ 48 ≤ index.toNat ∨ cls.toNat = 3 ∧ 16 ≤ index.toNat ∨
        cls.toNat = 4 ∧ 2 ≤ index.toNat →
      exec (.statusRead src req cls index kind part) s = .next (s.answered (s.reply src 0x04 req .badIndex []))) ∧
    (cls = 0 → index.toNat < 32 → part = 0 →
      exec (.statusRead src req cls index kind part) s = .next (s.answered (s.reply src 0x04 req .ok
        ([0x40, serviceCode s.service, s.node.setWidth 8] ++ bigEndian 6 (min s.now (2 ^ 48 - 1)) ++
          [s.frameCounter.extractLsb' 8 8])))) ∧
    ((5 ≤ cls.toNat ∧ cls.toNat ≤ 7 ∧ (kind = 0 ∨ 11 < kind.toNat)) ∨ (cls = 6 ∧ 48 ≤ index.toNat) ∨
        (cls = 7 ∧ (32 ≤ index.toNat ∨ ∃ z : ZoneId, z.val = index.toNat ∧ s.loopOf z = none)) →
      exec (.statusRead src req cls index kind part) s = .next (s.answered (s.reply src 0x04 req .badIndex []))) ∧
    ((cls = 5 ∧ 1 ≤ kind.toNat ∧ kind.toNat < 9) ∨ (cls = 6 ∧ index.toNat < 48 ∧ 6 < kind.toNat ∧ kind.toNat ≤ 11) ∨
        (cls = 7 ∧ (∃ (z : ZoneId) (l : ParamId), z.val = index.toNat ∧ s.loopOf z = some l) ∧
          (1 ≤ kind.toNat ∧ kind.toNat < 7 ∨ 8 < kind.toNat ∧ kind.toNat ≤ 11)) →
      exec (.statusRead src req cls index kind part) s = .next (s.answered (s.reply src 0x04 req .badValue [])))) ∧
  (∀ (src : Node) (req table index group part : Byte) (s : State), s.commandReady (.tableRead src req table index group part) src →
    (9 ≤ table.toNat → exec (.tableRead src req table index group part) s = .next (s.answered (s.reply src 0x0F req .badTable []))) ∧
    (∀ t, tableOf table.toNat = some t →
      (index.toNat < (tableRange t).1 ∨ (tableRange t).2 < index.toNat →
        exec (.tableRead src req table index group part) s = .next (s.answered (s.reply src 0x0F req .badIndex []))) ∧
      ((tableRange t).1 ≤ index.toNat → index.toNat ≤ (tableRange t).2 →
        (lastGroup t < group.toNat ∨ (t = .loop ∨ t = .desc) ∧ group.toNat = 3 →
          exec (.tableRead src req table index group part) s = .next (s.answered (s.reply src 0x0F req .badValue []))) ∧
        (group.toNat ≤ lastGroup t → ((t = .loop ∨ t = .desc) → group.toNat ≠ 3) → ∀ layout,
          layout = s.tableGroup t index.toNat group.toNat →
          exec (.tableRead src req table index group part) s = .next (s.answered (
            if part.toNat < (layout.length + 8) / 9 then
              s.reply src 0x0F req .ok (BitVec.ofNat 8 ((layout.length + 8) / 9 * 16 + (s.boundFlag t index.toNat).toNat) ::
                padTo 9 (layout.drop (9 * part.toNat)))
            else s.reply src 0x0F req .badValue [])))))) ∧
  (∀ (s : State) (index kind : Byte) (fl : Bool → Byte) (tm : Nat → Option Nat → List Byte), (fl = fun b => if b then 1 else 0) →
    (tm = fun k o => match o with
      | some v => bigEndian k (min v (256 ^ k - 1))
      | none => bigEndian k (256 ^ k - 1)) →
    (∀ bus : Fin 32, bus.val = index.toNat → ∃ kinds : Nat,
      (∀ k, kinds.testBit k = true ↔ ∃ f, faultKind f = k + 1 ∧ (s.fault f).sticky = true) ∧
      s.statusLayout 0 index kind = .ok ([serviceCode s.service, s.node.setWidth 8] ++ tm 6 (some s.now) ++
        bigEndian 2 s.frameCounter.toNat ++ [portStateCode s.portA, portStateCode s.portB] ++
        [s.cmdQueue.length, s.cueQueue.length, s.replies.length, s.events.length, s.directives.length].map (BitVec.ofNat 8) ++
        [holdStateCode s.hold] ++ bigEndian 3 s.busPeaks[bus] ++ [fl s.busClips[bus], fl s.alert] ++
        bigEndian 2 (allFaults.filter fun f => (s.fault f).state == .latched).length ++
        bigEndian 2 (allFaults.filter fun f => (s.fault f).state == .retryWait).length ++ bigEndian 2 kinds)) ∧
    (∀ (z : ZoneId) (r : Zone), z.val = index.toNat → r = s.zone z → ∃ own : List Byte, own.length = 12 ∧
      s.statusLayout 1 index kind = .ok ([fl r.enabled, kindCode r.kind, testModeCode r.testMode] ++ bigEndian 2 r.testLevel ++
        [fl r.suspended, sideCode r.side] ++ tm 4 (r.idleDeadline.map fun d => d - s.now) ++
        [((s.claimant z).map fun c => BitVec.ofNat 8 c.val).getD 0xFF, protectionCode r.protection] ++ bigEndian 2 r.duckGain ++
        bigEndian 2 r.voiceGain ++ bigEndian 2 r.outputGain ++ bigEndian 3 r.peak ++ [fl r.clip] ++ own) ∧
      (r.kind = .foyer ∨ r.kind = .lounge → own = List.replicate 12 0) ∧
      (∀ l, r.kind = .loop → s.loopOf z = some l → own = bigEndian 2 s.loops[l].agc ++
        [fl s.loops[l].limited, fl s.loops[l].saturated, fl s.loops[l].candidate.isSome] ++
        tm 4 (s.loops[l].candidate.map fun q => s.now - q) ++ bigEndian 3 s.loops[l].accumulator) ∧
      (r.kind = .desc → own.drop 6 = List.replicate 6 0) ∧
      (∀ d, r.kind = .desc → s.descOf z = some d → own.take 6 = [fl s.descs[d].voxActive] ++ bigEndian 2 s.descs[d].holdRemaining ++
        bigEndian 3 s.ingressPeaks[s.descs[d].voiceSlot])) ∧
    (∀ (e : EndpointId) (r : Endpoint), e.val = index.toNat → (r = if (s.endpoint e).inUse then s.endpoint e else State.reset.endpoint e) →
      s.statusLayout 2 index kind = .ok ([fl r.inUse, r.node.setWidth 8, presenceCode r.presence, powerCode r.reported,
        powerCode r.commanded] ++ tm 4 (r.lastTelemetry.map fun q => s.now - q) ++ tm 4 (r.lastPower.map fun q => s.now - q) ++
        tm 2 r.current ++ [fl r.thermal, fl r.supplyLow])) ∧
    (∀ (c : CallId) (r : Call), c.val = index.toNat → r = s.call c →
      (r.state = .free → s.statusLayout 3 index kind = .ok [0]) ∧
      (r.state ≠ .free → s.statusLayout 3 index kind = .ok ([callStateCode r.state] ++
        (match r.origin with
          | .external n => [0, n.setWidth 8]
          | .gate g => [1, BitVec.ofNat 8 g.val]) ++ [r.tag, BitVec.ofNat 8 r.priority] ++ bigEndian 4 r.target.toNat ++
        bigEndian 4 r.delivered.toNat ++ bigEndian 4 r.missed.toNat ++
        (match r.source with
          | .stored ids n => [0, BitVec.ofNat 8 ids.length] ++
              ((ids.map fun i : MessageId => (BitVec.ofNat 8 i.val : Byte)) ++ List.replicate 4 0).take 4 ++ [BitVec.ofNat 8 n]
          | .live slot pre => [1, Config.liveIdCount, BitVec.ofNat 8 slot.val, (pre.map fun i => BitVec.ofNat 8 i.val).getD 0xFF, 0, 0,
              Config.liveRepeatCount]) ++ [fl r.retain, BitVec.ofNat 8 r.requeue] ++ bigEndian 4 r.arrival.toNat ++
        bigEndian 4 (r.startOrder.getD Config.undispatchedStartOrder).toNat ++
        [(r.player.map fun p => BitVec.ofNat 8 p.val).getD 0xFF, BitVec.ofNat 8 r.plays, BitVec.ofNat 8 r.position] ++
        bigEndian 3 r.offset ++ tm 4 (some (s.now - r.pendingSince)) ++ tm 4 (some r.liveElapsed) ++ tm 2 (some r.tailRemaining) ++
        [(r.outcome.map outcomeCode).getD 0xFF] ++
        ((List.finRange 32).filter fun z => r.delivered.getLsbD z.val).flatMap fun z => tm 2 (r.wake[z].map fun d => d - s.now)))) ∧
    (∀ (g : GateId) (r : Gate), g.val = index.toNat → r = s.gate g → s.statusLayout 4 index kind = .ok (
      [gateStateCode r.state, fl (r.state == .open_)] ++ tm 4 (r.windowDeadline.map fun d => d - s.now) ++
      tm 4 (some ((r.lastClose.map fun q => r.reopenGuard * 1000 - (s.now - q)).getD 0)) ++
      [(r.admissionCall.map fun c => BitVec.ofNat 8 c.val).getD 0xFF,
       (r.admissionCall.map fun c => callStateCode (s.call c).state).getD 0xFF])) ∧
    (∀ bytes : FaultRef → List Byte,
      (bytes = fun f => [faultStateCode (s.fault f).state, BitVec.ofNat 8 (s.fault f).deglitch, fl (s.fault f).lastPresent,
        fl (s.fault f).sticky, ((s.fault f).inForce.map fun i => policyModeCode i.mode).getD 0xFF,
        ((s.fault f).inForce.map fun i => policyActionCode i.action).getD 0xFF] ++ tm 2 (s.fault f).retryRemaining ++
        [BitVec.ofNat 8 (s.fault f).escalation] ++ tm 4 ((s.fault f).lastRecovery.map fun q => s.now - q)) →
      (∀ k : Fin 3, kind.toNat = k.val + 9 → s.statusLayout 5 index kind = .ok (bytes (.device k))) ∧
      (∀ (e : EndpointId) (k : Fin 6), e.val = index.toNat → kind.toNat = k.val + 1 →
        s.statusLayout 6 index kind = .ok (bytes (.endpoint e k))) ∧
      (∀ (z : ZoneId) (l : ParamId) (k : Fin 2), z.val = index.toNat → s.loopOf z = some l → kind.toNat = k.val + 7 →
        s.statusLayout 7 index kind = .ok (bytes (.loop l k)))) ∧
    (∀ (i : Fin 128) (r : Route), r = s.routes[i] → s.tableGroup .route i.val 0 =
      [fl r.inUse, BitVec.ofNat 8 r.slot.val, BitVec.ofNat 8 r.bus.val] ++ bigEndian 2 r.gain) ∧
    (∀ i : Fin 64, s.tableGroup .slotmap i.val 0 = match s.slotMap[i] with
      | .pass => [0, 0]
      | .silence => [1, 0]
      | .zone z => [2, BitVec.ofNat 8 z.val]) ∧
    (∀ (z : ZoneId) (r : Zone), r = s.zone z →
      s.tableGroup .zone z.val 0 = [fl r.enabled, kindCode r.kind, BitVec.ofNat 8 r.bus.val] ∧
      s.tableGroup .zone z.val 1 =
        [(r.primary.map fun e => BitVec.ofNat 8 e.val).getD 0xFF, (r.standby.map fun e => BitVec.ofNat 8 e.val).getD 0xFF] ∧
      s.tableGroup .zone z.val 2 = idlePolicyCode r.idlePolicy :: bigEndian 2 r.idleTime ∧
      s.tableGroup .zone z.val 3 = [r.trim, r.callLevel, r.callDuck, r.duckStep, r.reduceGain].flatMap (bigEndian 2)) ∧
    (∀ (z : ZoneId) (r : LoopRecord), r = ((s.loopOf z).map fun l => s.loops[l]).getD {} →
      s.tableGroup .loop z.val 0 = [r.target, r.window].flatMap (bigEndian 3) ++
        [r.attack, r.release, r.agcMin, r.agcMax].flatMap (bigEndian 2) ∧
      s.tableGroup .loop z.val 1 = [r.currentLimit, r.limitStep, r.overcurrent].flatMap (bigEndian 2) ∧
      s.tableGroup .loop z.val 2 = bigEndian 2 r.openCurrent ++ bigEndian 3 r.openSignal ++ bigEndian 2 r.openTime ∧
      s.boundFlag .loop z.val = (s.loopOf z).isSome) ∧
    (∀ (z : ZoneId) (r : DescRecord), r = ((s.descOf z).map fun d => s.descs[d]).getD {} →
      s.tableGroup .desc z.val 0 = BitVec.ofNat 8 r.voiceSlot.val :: [r.voiceGain, r.voxDepth].flatMap (bigEndian 2) ∧
      s.tableGroup .desc z.val 1 = [r.onThreshold, r.offThreshold].flatMap (bigEndian 3) ++ bigEndian 2 r.holdTime ∧
      s.tableGroup .desc z.val 2 = [BitVec.ofNat 8 r.channel] ∧ s.boundFlag .desc z.val = (s.descOf z).isSome) ∧
    (∀ (e : EndpointId) (r : Endpoint), r = s.endpoint e →
      s.tableGroup .endpoint e.val 0 = [fl r.inUse, r.node.setWidth 8, roleCode r.role, BitVec.ofNat 8 r.place.val]) ∧
    (∀ (g : GateId) (r : Gate), r = s.gate g →
      s.tableGroup .gate g.val 0 = [r.open1, r.open2, r.close1, r.close2, r.bar, r.unbar, fl r.anyOpens] ∧
      s.tableGroup .gate g.val 1 = [r.windowTime, r.reopenGuard].flatMap (bigEndian 2) ∧
      s.tableGroup .gate g.val 2 = BitVec.ofNat 8 r.sequence.length ::
        ((r.sequence.map fun i : MessageId => (BitVec.ofNat 8 i.val : Byte)) ++ List.replicate 4 0).take 4 ++
        [BitVec.ofNat 8 r.priority] ++ bigEndian 4 r.mask.toNat) ∧
    (∀ (k : Fin 11) (p : Policy), p = s.policy[k] → s.tableGroup .policy (k.val + 1) 0 =
      [policyModeCode p.mode, policyActionCode p.action, BitVec.ofNat 8 p.retryTime, BitVec.ofNat 8 p.deglitch]) ∧
    (∀ r : ConfigTable, r = s.config →
      s.tableGroup .config 0 0 =
        [r.debounce, r.lost, r.wakeTimeout, r.tailTime, r.liveMax, r.pendingMax].flatMap (bigEndian 2) ∧
      s.tableGroup .config 0 1 = [r.eventNode.setWidth 8] ∧
      s.tableGroup .config 0 2 = (r.managers.toList ++ r.cueSources.toList).map (BitVec.setWidth 8) ∧
      s.tableGroup .config 0 3 = [fl r.flowEnabled, BitVec.ofNat 8 r.holdLevel, BitVec.ofNat 8 r.resumeLevel]) ∧
    (∀ t i, t ≠ .loop → t ≠ .desc → s.boundFlag t i = false)) ∧
  (∀ n v : Nat, (bigEndian n v).length = n ∧ ∀ k, k < n → (bigEndian n v)[k]? = some (BitVec.ofNat 8 (v / 256 ^ (n - 1 - k)))) ∧
  (∀ (n : Nat) (l : List Byte), padTo n l = (l ++ List.replicate n 0).take n) ∧
  [ZoneKind.loop, .desc, .foyer, .lounge].map kindCode = [0, 1, 2, 3] ∧
  [Role.loopAmp, .foyerAmp, .descTx, .loungeUnit, .usherLight].map roleCode = [0, 1, 2, 3, 4] ∧
  [Power.active, .standby, .suspended, .off].map powerCode = [0, 1, 2, 3] ∧
  [TestMode.none, .silence, .tone, .noise].map testModeCode = [0, 1, 2, 3] ∧
  [IdlePolicy.alwaysOn, .callsOnly].map idlePolicyCode = [0, 1] ∧
  [Presence.absent, .debouncing, .present].map presenceCode = [0, 1, 2] ∧
  [Protection.normal, .reduced, .muted].map protectionCode = [0, 1, 2] ∧ [Side.primary, .standby].map sideCode = [0, 1] ∧
  [CallState.free, .pending, .waking, .playing, .tail].map callStateCode = [0, 1, 2, 3, 4] ∧
  [CallOutcome.delivered, .partialDelivery, .notDelivered, .cancelled, .expired, .preempted, .sourceLost].map outcomeCode =
    [0, 1, 2, 3, 4, 5, 6] ∧
  [GateState.closed, .open_, .barred].map gateStateCode = [0, 1, 2] ∧
  [FaultState.clear, .counting, .latched, .retryWait, .reported].map faultStateCode = [0, 1, 2, 3, 4] ∧
  [PolicyMode.latched, .retry, .report, .disabled].map policyModeCode = [0, 1, 2, 3] ∧
  [PolicyAction.mute, .reduce, .swap].map policyActionCode = [0, 1, 2] ∧
  [PortState.unlocked, .locked, .lost].map portStateCode = [0, 1, 2] ∧ [Service.configuration, .service].map serviceCode = [0, 1] ∧
  [HoldState.running, .held].map holdStateCode = [0, 1]

/-- R129, R130, R127: CLEAR_FAULTS is refused for a selector or index that names nothing and for a mask without a kind. Otherwise the reply
carries the kinds that had a sticky flag and their number; every selected LATCHED or REPORTED record whose condition is absent becomes
CLEAR, the sticky flag of a selected record is set exactly where it is still raised, its escalation starts afresh, no other record changes,
and ALERT follows the records. The protection of a zone whose active endpoint had a selected record leave an actionable state is derived
anew, and no other protection changes. The last clauses say which records a selector and a mask select (R129), of which kind each is, and
that the count runs over all 307 records. -/
def Obligations.ClearFaultsExchangesTheFlags : Prop :=
  ∀ (src : Node) (req selector index : Byte) (mask : BitVec 16) (s : State),
    s.commandReady (.clearFaults src req selector index mask) src →
    (5 < selector.toNat →
      exec (.clearFaults src req selector index mask) s = .next (s.answered (s.reply src 0x05 req .badValue []))) ∧
    ((selector = 1 ∧ 48 ≤ index.toNat) ∨ (selector = 2 ∧ 32 ≤ index.toNat) →
      exec (.clearFaults src req selector index mask) s = .next (s.answered (s.reply src 0x05 req .badIndex []))) ∧
    (∀ sel, selectorOf selector index = .ok sel →
      (mask.toNat % 2048 = 0 →
        exec (.clearFaults src req selector index mask) s = .next (s.answered (s.reply src 0x05 req .badValue []))) ∧
      (mask.toNat % 2048 ≠ 0 →
        ∃ t kinds count, exec (.clearFaults src req selector index mask) s = .next t ∧
          t.replies = s.replies ++ [s.reply src 0x05 req .ok (bigEndian 2 kinds ++ bigEndian 2 count)] ∧
          (∀ k, k < 11 → (kinds.testBit k = true ↔ ∃ f, faultKind f = k + 1 ∧ s.chosen sel mask f = true ∧ (s.fault f).sticky = true)) ∧
          count = (allFaults.filter fun f => s.chosen sel mask f && (s.fault f).sticky).length ∧
          (∀ f, s.chosen sel mask f = false → t.fault f = s.fault f) ∧
          (∀ f, s.chosen sel mask f = true → t.fault f =
            if ((s.fault f).state = .latched ∨ (s.fault f).state = .reported) ∧ (s.fault f).lastPresent = false
            then { s.fault f with state := .clear, deglitch := 0, inForce := none, retryRemaining := none, sticky := false,
                                  escalation := 0, lastRecovery := none }
            else { s.fault f with sticky := (s.fault f).state.raised, escalation := 0, lastRecovery := none }) ∧
          t.alert = t.faults.anyActionable ∧ t.settled = (leaveCommand s).settled ∧
          (∀ z, ((∃ e k, (s.zone z).active = some e ∧ s.chosen sel mask (.endpoint e k) = true ∧
                (s.fault (.endpoint e k)).state = .latched ∧ (s.fault (.endpoint e k)).lastPresent = false) →
              (t.zone z).protection = t.protectionOf z) ∧
            ((∀ e k, (s.zone z).active = some e → s.chosen sel mask (.endpoint e k) = true →
                (s.fault (.endpoint e k)).state = .latched → (s.fault (.endpoint e k)).lastPresent = true) →
              (t.zone z).protection = (s.zone z).protection)))) ∧
    (∀ sel f, selectorOf selector index = .ok sel → (s.chosen sel mask f = true ↔ mask.getLsbD (faultKind f - 1) = true ∧
      (selector = 0 ∧ (∃ k, f = .device k) ∨ selector = 1 ∧ (∃ e k, f = .endpoint e k ∧ e.val = index.toNat) ∨
        selector = 2 ∧ (∃ l k z, f = .loop l k ∧ s.loops[l].zone = some z ∧ z.val = index.toNat) ∨
        selector = 3 ∧ (∃ e k, f = .endpoint e k) ∨ selector = 4 ∧ (∃ l k, f = .loop l k) ∨ selector = 5))) ∧
    (∀ e k, faultKind (.endpoint e k) = k.val + 1) ∧ (∀ l k, faultKind (.loop l k) = k.val + 7) ∧
    (∀ k, faultKind (.device k) = k.val + 9) ∧ allFaults.length = 307 ∧ allFaults.Nodup ∧ ∀ f, f ∈ allFaults

/-- R31, R61: TEST is refused WRONG_STATE in CONFIGURATION, BAD_VALUE for a mode that names none and for an empty mask, and BAD_INDEX for a
mask that names a disabled zone. Otherwise exactly the zones of the mask take mode and level, no call claims a zone of the mask that is in a
mode other than NONE: such a zone moves from the delivered to the missed set of its call, which completes where no zone is left to it, its
release sets the idle deadline (R40), and a call that claims no zone of the mask stays as it is. The commanded power of the endpoints of a
zone that moves between NONE and another mode is worked out anew and sent where it changes (R39, R41), and the reply is OK. R61: a mode
other than NONE ends the open-loop candidates of the zones of the mask and sets their peak accumulators to 0; no other loop record changes.
That a TEST refused for its mode or an empty mask is answered BAD_VALUE, whatever zones its mask names, is the model's choice (log 54). -/
def Obligations.TestSetsModeAndLevel : Prop :=
  ∀ (src : Node) (req mode : Byte) (level : BitVec 16) (mask : ZoneSet) (s : State),
    s.commandReady (.test src req mode level mask) src →
    (s.service = .configuration →
      exec (.test src req mode level mask) s = .next (s.answered (s.reply src 0x06 req .wrongState []))) ∧
    (s.service = .service →
      (3 < mode.toNat ∨ mask = 0 →
        exec (.test src req mode level mask) s = .next (s.answered (s.reply src 0x06 req .badValue []))) ∧
      (∀ m, testModeOf mode = some m → mask ≠ 0 →
        (∀ z : ZoneId, mask.getLsbD z.val = true → (s.zone z).enabled = false →
          exec (.test src req mode level mask) s = .next (s.answered (s.reply src 0x06 req .badIndex []))) ∧
        ((∀ z : ZoneId, mask.getLsbD z.val = true → (s.zone z).enabled = true) →
          ∃ t, exec (.test src req mode level mask) s = .next t ∧ t.replies = s.replies ++ [s.reply src 0x06 req .ok []] ∧
            t.still = { s.answered (s.reply src 0x06 req .ok []) with
              zones := Vector.ofFn fun z =>
                if mask.getLsbD z.val then { s.zone z with testMode := m, testLevel := level.toNat } else s.zone z }.still ∧
            t.faults = s.faults ∧
            (m ≠ .none → s.CallsSound → ∀ z : ZoneId, mask.getLsbD z.val = true → t.claimant z = none) ∧
            (m = .none → t.calls = s.calls) ∧
            (m ≠ .none → s.CallsSound → ∀ (c : CallId) (gone : ZoneSet) (r : Call),
              gone = (if (s.call c).running then (s.call c).delivered &&& mask else 0) →
              r = { s.call c with delivered := (s.call c).delivered &&& ~~~ gone, missed := (s.call c).missed ||| gone
                                  wake := Vector.ofFn fun z => if gone.getLsbD z.val then none else (s.call c).wake[z] } →
              t.call c = if gone = 0 then s.call c else if r.delivered = 0 then {} else r) ∧
            (s.CallsSound → ∀ (z : ZoneId) (new : Zone),
              new = (if mask.getLsbD z.val then { s.zone z with testMode := m, testLevel := level.toNat } else s.zone z) →
              t.zone z = if m ≠ .none ∧ mask.getLsbD z.val = true ∧ (s.claimant z).isSome = true then new.released s.now else new) ∧
            (∀ z : ZoneId, mask.getLsbD z.val = true → ¬ ((s.zone z).testMode = .none ↔ m = .none) → t.PowerWorkedOut z) ∧
            s.PowerSent t ∧
            (∀ l : ParamId, t.loops[l] = if m ≠ .none ∧ ∃ z : ZoneId, mask.getLsbD z.val = true ∧ s.loopOf z = some l
              then { s.loops[l] with candidate := none, accumulator := 0 } else s.loops[l]))))

/-- R32, R98: SUSPEND is refused WRONG_STATE in CONFIGURATION, BAD_INDEX for a zone that does not exist or is disabled, and BAD_VALUE for
another setting than on and off. A setting that the zone has already changes nothing. Otherwise the zone's flag is set; a zone that becomes
suspended is dropped from the call that claims it, which completes where no zone is left to it, with the idle deadline of a release (R40),
and its active endpoint is commanded SUSPENDED. With either setting the commanded power of its endpoints is worked out anew and sent where
it changes (R39, R41). The reply is OK. That BAD_INDEX answers a SUSPEND whose zone and setting both fail is the model's choice (log 55,
DEDUCED from R161). -/
def Obligations.SuspendSetsTheFlag : Prop :=
  ∀ (src : Node) (req zone setting : Byte) (s : State), s.commandReady (.suspend src req zone setting) src →
    (s.service = .configuration →
      exec (.suspend src req zone setting) s = .next (s.answered (s.reply src 0x07 req .wrongState []))) ∧
    (s.service = .service →
      ((32 ≤ zone.toNat ∨ ∃ z : ZoneId, z.val = zone.toNat ∧ (s.zone z).enabled = false) →
        exec (.suspend src req zone setting) s = .next (s.answered (s.reply src 0x07 req .badIndex []))) ∧
      (∀ z : ZoneId, z.val = zone.toNat → (s.zone z).enabled = true →
        (1 < setting.toNat →
          exec (.suspend src req zone setting) s = .next (s.answered (s.reply src 0x07 req .badValue []))) ∧
        (∀ on, flagOf setting = some on →
          ((s.zone z).suspended = on →
            exec (.suspend src req zone setting) s = .next (s.answered (s.reply src 0x07 req .ok []))) ∧
          ((s.zone z).suspended ≠ on →
            ∃ t, exec (.suspend src req zone setting) s = .next t ∧ t.replies = s.replies ++ [s.reply src 0x07 req .ok []] ∧
              t.still = { s.answered (s.reply src 0x07 req .ok []) with
                zones := s.zones.set z { s.zone z with suspended := on } }.still ∧
              t.faults = s.faults ∧
              (∀ c, on = true → s.claimant z = some c →
                t.call c = if ((s.call c).without z).delivered = 0 then {} else (s.call c).without z) ∧
              (on = true → s.CallsSound → t.claimant z = none) ∧
              (∀ new : Zone, new = { s.zone z with suspended := on } →
                t.zones = s.zones.set z (if on = true ∧ (s.claimant z).isSome = true then new.released s.now else new)) ∧
              t.PowerWorkedOut z ∧ s.PowerSent t ∧
              (∀ d, s.claimant z ≠ some d ∨ on = false → t.call d = s.call d) ∧
              (∀ e, on = true → (s.zone z).active = some e → (s.endpoint e).inUse = true → (s.endpoint e).role ≠ .usherLight →
                (s.endpoint e).place = z → (t.endpoint e).commanded = .suspended)))))

/-- R46, R47, R48, R61, R93, R98: SWAP is refused WRONG_STATE in CONFIGURATION, BAD_INDEX for a zone that does not exist or is disabled,
BAD_VALUE for a zone without a standby endpoint, and BUSY where the other side is not PRESENT or has an actionable fault. Each refusal
changes nothing. Otherwise the zone's active side changes, both endpoints are commanded by Table 2-5, the protection is that of the new
side, the zone's open-loop candidate ends with its accumulator at 0, and the reply is OK. The call that claims the zone loses it where it is
not deliverable on the new side, or not awake while the call is PLAYING. That this drops the zone of a call in TAIL too is the model's
choice (log 27): R47 has the zone stay claimed in TAIL until the call completes, R97 and R98 drop a zone in TAIL that stops being
deliverable. A call of a zone that was MUTED, which no run reaches (R98), loses it as well. A WAKING call that keeps a zone which is not
awake there gives it a new wake deadline; any other call stays as it is. That BAD_INDEX comes before BAD_VALUE, and that before BUSY, is the
model's choice (log 54). -/
def Obligations.SwapChangesTheActiveSide : Prop :=
  ∀ (src : Node) (req zone : Byte) (s : State), s.commandReady (.swap src req zone) src →
    (s.service = .configuration → exec (.swap src req zone) s = .next (s.answered (s.reply src 0x08 req .wrongState []))) ∧
    (s.service = .service →
      ((32 ≤ zone.toNat ∨ ∃ z : ZoneId, z.val = zone.toNat ∧ (s.zone z).enabled = false) →
        exec (.swap src req zone) s = .next (s.answered (s.reply src 0x08 req .badIndex []))) ∧
      (∀ z : ZoneId, z.val = zone.toNat → (s.zone z).enabled = true →
        ((s.zone z).standby = none → exec (.swap src req zone) s = .next (s.answered (s.reply src 0x08 req .badValue []))) ∧
        (∀ e, (s.zone z).standby.isSome = true → (s.zone z).other = some e →
          ((s.endpoint e).presence ≠ .present ∨ (∃ k, (s.fault (.endpoint e k)).state.actionable = true) →
            exec (.swap src req zone) s = .next (s.answered (s.reply src 0x08 req .busy []))) ∧
          ((s.endpoint e).presence = .present → (∀ k, (s.fault (.endpoint e k)).state.actionable = false) →
            ∃ t, exec (.swap src req zone) s = .next t ∧ t.replies = s.replies ++ [s.reply src 0x08 req .ok []] ∧
              (t.zone z).side = (match (s.zone z).side with
                | .primary => .standby
                | .standby => .primary) ∧
              (∀ y, y ≠ z → (t.zone y).side = (s.zone y).side) ∧ (t.zone z).active = some e ∧
              (∀ x, (t.zone z).primary = some x ∨ (t.zone z).standby = some x → (s.endpoint x).inUse = true →
                (s.endpoint x).place = z → (t.endpoint x).commanded = t.commandedPower x) ∧
              (t.zone z).protection = t.protectionOf z ∧
              (∀ l, s.loopOf z = some l → t.loops = s.loops.set l { s.loops[l] with candidate := none, accumulator := 0 }) ∧
              (s.CallsSound → ∀ c, t.claimant z = some c → (t.call c).state = .playing → t.awake z = true) ∧
              (s.CallsSound → (∀ d, s.claimant z ≠ some d → t.call d = s.call d) ∧
                (t.zone z).idleDeadline = (if (s.claimant z).isSome = true ∧ t.claimant z = none
                  then ((s.zone z).released s.now).idleDeadline else (s.zone z).idleDeadline) ∧
                ∀ c, s.claimant z = some c →
                ((s.zone z).protection = .muted ∨ t.deliverable z = false ∨ (s.call c).state = .playing ∧ t.awake z = false →
                  t.claimant z = none ∧
                  t.call c = if ((s.call c).without z).delivered = 0 then {} else (s.call c).without z) ∧
                ((s.zone z).protection ≠ .muted → t.deliverable z = true →
                  (t.awake z = true ∨ (s.call c).state = .tail → t.call c = s.call c) ∧
                  (t.awake z = false → (s.call c).state = .waking → t.call c =
                    { s.call c with wake := (s.call c).wake.set z (some (s.now + s.config.wakeTimeout)) }))) ∧
              s.PowerSent t ∧
              t.faults = s.faults ∧ t.still = (s.answered (s.reply src 0x08 req .ok [])).still))))

/-! ## Gates and markers (Chapter 6) -/

/-- R106, R107, R109, R110, R111, R113, R148: GATE_FORCE is refused WRONG_STATE in CONFIGURATION, BAD_INDEX for another gate than 0 and 1,
and BAD_VALUE for an action that names none; else the gate goes to the state of Table 6-3 for the action's class, opening without the guard,
and the reply carries the state it is in. A MARKER is dropped in CONFIGURATION; in SERVICE each gate goes to the state of Table 6-3 for the
code's class, opening only past its guard. An opening sets the window deadline, a closing the time of the last close. An OPEN action on an
OPEN gate, like an OPEN or ANY marker, restarts its window (R109). The last clauses say what a class is (Table 6-2, the first line that
applies) and when the guard has passed (R111). That BAD_INDEX answers a GATE_FORCE whose gate and action both fail is the model's choice
(log 54). -/
def Obligations.MarkersAndForcesMoveTheGates : Prop :=
  (∀ (src : Node) (req gate action : Byte) (s : State), s.commandReady (.gateForce src req gate action) src →
    (s.service = .configuration →
      exec (.gateForce src req gate action) s = .next (s.answered (s.reply src 0x09 req .wrongState []))) ∧
    (s.service = .service →
      (2 ≤ gate.toNat → exec (.gateForce src req gate action) s = .next (s.answered (s.reply src 0x09 req .badIndex []))) ∧
      (∀ g : GateId, g.val = gate.toNat →
        (3 < action.toNat → exec (.gateForce src req gate action) s = .next (s.answered (s.reply src 0x09 req .badValue []))) ∧
        (∀ a, gateActionOf action = some a →
          ∃ t, exec (.gateForce src req gate action) s = .next t ∧
            (t.gate g).state = gateAfter (s.gate g).state a.markerClass true ∧
            t.replies = s.replies ++ [s.reply src 0x09 req .ok [gateStateCode (t.gate g).state]] ∧
            (t.gate g).settings = (s.gate g).settings ∧
            ((s.gate g).state ≠ .open_ → (t.gate g).state = .open_ →
              (t.gate g).windowDeadline = some (s.now + (s.gate g).windowTime * 1000)) ∧
            ((s.gate g).state = .open_ → (t.gate g).state = .open_ → (t.gate g).windowDeadline =
              if a = .open_ then some (s.now + (s.gate g).windowTime * 1000) else (s.gate g).windowDeadline) ∧
            ((s.gate g).state = .open_ → (t.gate g).state ≠ .open_ →
              (t.gate g).windowDeadline = none ∧ (t.gate g).lastClose = some s.now) ∧
            (∀ h, h ≠ g → (t.gate h).still = (s.gate h).still) ∧ t.faults = s.faults ∧
            { t with arrivalCounter := s.arrivalCounter }.settled = (leaveCommand s).settled)))) ∧
  (∀ (src : Node) (code : Byte) (s : State), s.cueQueue.head? = some (.marker src code) → s.softResetFlag = false →
    trusts s.config.cueSources src = true →
    (s.service = .configuration → exec (.marker src code) s = .next { s with cueQueue := s.cueQueue.tail }) ∧
    (s.service = .service →
      ∃ t, exec (.marker src code) s = .next t ∧
        (∀ g, (t.gate g).state = gateAfter (s.gate g).state ((s.gate g).classify code) ((s.gate g).guardPassed s.now) ∧
          (t.gate g).settings = (s.gate g).settings ∧
          ((t.gate g).state = .open_ → (s.gate g).state = .closed ∨ (s.gate g).classify code = .open_ ∨ (s.gate g).classify code = .any →
            (t.gate g).windowDeadline = some (s.now + (s.gate g).windowTime * 1000)) ∧
          ((s.gate g).state = .open_ → (t.gate g).state ≠ .open_ → (t.gate g).lastClose = some s.now)) ∧
        t.replies = s.replies ∧ t.faults = s.faults ∧
        { t with arrivalCounter := s.arrivalCounter }.settled = { s with cueQueue := s.cueQueue.tail }.settled)) ∧
  (∀ (r : Gate) (code : Byte) (now : Nat),
    (r.classify code = if code = 0 then .other else if code = r.open1 ∨ code = r.open2 then .open_
      else if code = r.close1 ∨ code = r.close2 then .close else if code = r.bar then .bar else if code = r.unbar then .unbar
      else if r.anyOpens then .any else .other) ∧
    (r.guardPassed now = true ↔ ∀ q, r.lastClose = some q → r.reopenGuard * 1000 ≤ now - q))

/-- R44, R87, R108: an opening gate is OPEN with its window deadline set, sends LIGHT on to its PRESENT usher lights and, with a sequence
and a mask, requests its admission call: accepted into the lowest FREE record, which the gate then names, or reported ADMISSION_FAILED, FULL
or BAD_VALUE with the first id that is not VALID. The tail remaining and live elapsed of the accepted record are 0 by the model's choice
(log 50). R44, R88, R110: the closing path leaves no window deadline, sets the last close to now, sends LIGHT off, and cancels the admission
call by its state. R107, R109, R113: a GATE_FORCE OPEN opens a CLOSED gate so; a marker of Table 6-3 opens past the guard, restarts the
window or closes; an OPEN gate whose window has ended closes, and before the deadline and in another state it does not (the row as a single
test is log 5). R112: a GATE call's completion queues ADMISSION_CALL, and the gate that names it then names none. -/
def Obligations.GatesOpenAndClose : Prop :=
  (∀ (g : GateId) (s t : State) (r : Gate), s.service = .service → r = s.gate g → t = openGate g s →
    (∀ e, s.lit e g → { endpoint := e, code := .light, dest := (s.endpoint e).node, value := 1 } ∈ t.directives) ∧
    (∀ d ∈ t.directives, d ∈ s.directives ∨ d.code = .light ∧ d.value = 1 ∧ s.lit d.endpoint g) ∧
    (∀ new : Gate, new = { r with state := .open_, windowDeadline := some (s.now + r.windowTime * 1000) } →
      (r.sequence = [] ∨ r.mask = 0 → t = { s with gates := s.gates.set g new, directives := t.directives }) ∧
      (r.sequence ≠ [] → r.mask ≠ 0 → (∀ c, (s.call c).state ≠ .free) → t = { s with
        gates := s.gates.set g new, directives := t.directives
        events := s.eventsWith s.config.eventNode (s.admissionFailure g .full 0xFF) }) ∧
      (∀ c, r.sequence ≠ [] → r.mask ≠ 0 → (s.call c).state = .free → (∀ d, d < c → (s.call d).state ≠ .free) →
        (∀ (before after : List MessageId) (id : MessageId), r.sequence = before ++ id :: after → s.validMessage id = false →
          (∀ x ∈ before, s.validMessage x = true) → t = { s with
            gates := s.gates.set g new, directives := t.directives
            events := s.eventsWith s.config.eventNode (s.admissionFailure g .badValue (BitVec.ofNat 8 id.val)) }) ∧
        ((∀ id ∈ r.sequence, s.validMessage id = true) → t = { s with
          gates := s.gates.set g { new with admissionCall := some c }, directives := t.directives
          calls := s.calls.set c { state := .pending, origin := .gate g, tag := BitVec.ofNat 8 g.val, priority := r.priority,
                                   target := r.mask, source := .stored r.sequence 1, retain := false, requeue := 0,
                                   arrival := s.arrivalCounter, pendingSince := s.now, delivered := 0, missed := 0, plays := 0,
                                   position := 0, offset := 0, player := none, outcome := none }
          arrivalCounter := s.arrivalCounter + 1 })))) ∧
  (∀ (g : GateId) (dest : GateState) (s t : State) (r : Gate), s.service = .service → r = s.gate g → t = closeGate g dest s →
    (t.gate g).still = { r.still with state := dest, windowDeadline := none, lastClose := some s.now } ∧
    (∀ h, h ≠ g → (t.gate h).still = (s.gate h).still) ∧
    (∀ e, s.lit e g → { endpoint := e, code := .light, dest := (s.endpoint e).node, value := 0 } ∈ t.directives) ∧
    (r.admissionCall = none ∨ (∃ c, r.admissionCall = some c ∧ (s.call c).state = .tail) →
      t.calls = s.calls ∧ t.events = s.events ∧ (t.gate g).admissionCall = r.admissionCall) ∧
    (∀ c, r.admissionCall = some c → (s.call c).state = .pending → (s.call c).origin = .gate g →
      t.calls = s.calls.set c {} ∧ (t.gate g).admissionCall = none ∧ t.events = s.eventsWith s.config.eventNode
        (s.admissionEvent g ((s.call c).outcome.getD .cancelled) 0 (s.call c).target)) ∧
    (∀ c, r.admissionCall = some c → (s.call c).state = .waking ∨ (s.call c).state = .playing → s.config.tailTime ≠ 0 →
      t.calls = s.calls.set c ((s.call c).inTail s.config.tailTime (some .cancelled)) ∧ t.events = s.events ∧
      (t.gate g).admissionCall = some c) ∧
    (∀ c, r.admissionCall = some c → (s.call c).state = .waking ∨ (s.call c).state = .playing → s.config.tailTime = 0 →
      t.calls = s.calls.set c {}) ∧
    t.faults = s.faults ∧ t.settled = { s with gates := t.gates }.settled) ∧
  (∀ (src : Node) (req : Byte) (g : GateId) (s u : State) (c : Instr), c = .gateForce src req (BitVec.ofNat 8 g.val) 0 →
    s.commandReady c src → s.service = .service → (s.gate g).state = .closed → u = openGate g (leaveCommand s) →
    exec c s = .next { u with replies := s.replies ++ [s.reply src 0x09 req .ok [1]] }) ∧
  (∀ (src : Node) (code : Byte) (s : State) (c : Instr), c = .marker src code → s.cueQueue.head? = some c →
    s.softResetFlag = false → trusts s.config.cueSources src = true → s.service = .service →
    exec c s = .next (offerMarker 1 code (offerMarker 0 code (leaveCue s)))) ∧
  (∀ (g : GateId) (code : Byte) (s : State) (k : MarkerClass), k = (s.gate g).classify code →
    ((s.gate g).state = .closed → (k = .open_ ∨ k = .any) → (s.gate g).guardPassed s.now = true →
      offerMarker g code s = openGate g s) ∧
    ((s.gate g).state = .open_ → (k = .open_ ∨ k = .any) → offerMarker g code s = { s with
      gates := s.gates.set g { s.gate g with windowDeadline := some (s.now + (s.gate g).windowTime * 1000) } }) ∧
    ((s.gate g).state = .open_ → k = .close → offerMarker g code s = closeGate g .closed s) ∧
    ((s.gate g).state = .open_ → k = .bar → offerMarker g code s = closeGate g .barred s)) ∧
  (∀ (g : GateId) (s : State),
    (∀ d, (s.gate g).state = .open_ → (s.gate g).windowDeadline = some d →
      (d ≤ s.now → exec (.windowExpiry g) s = .next (closeGate g .closed s)) ∧
      (s.now < d → exec (.windowExpiry g) s = .next s)) ∧
    ((s.gate g).state ≠ .open_ → exec (.windowExpiry g) s = .next s)) ∧
  (∀ (c : CallId) (g : GateId) (s : State) (r : Call), s.service = .service → r = s.call c → r.origin = .gate g →
    (r.state = .tail → r.tailRemaining = 0 → ∃ t, exec (.tailEnd c) s = .next t ∧ t.calls = s.calls.set c {} ∧
      t.gates = s.gates.set g { s.gate g with
        admissionCall := if (s.gate g).admissionCall = some c then none else (s.gate g).admissionCall } ∧
      t.events = s.eventsWith s.config.eventNode (s.admissionEvent g
        (r.outcome.getD (if r.delivered = 0 then .notDelivered else if r.missed = 0 then .delivered else .partialDelivery))
        r.delivered r.missed)) ∧
    (r.state = .pending → s.config.pendingMax * 1000 ≤ s.now - r.pendingSince → exec (.pendingExpiry c) s = .next { s with
      calls := s.calls.set c {}
      gates := s.gates.set g { s.gate g with
        admissionCall := if (s.gate g).admissionCall = some c then none else (s.gate g).admissionCall }
      events := s.eventsWith s.config.eventNode (s.admissionEvent g (r.outcome.getD .expired) 0 r.target) }))

/-! ## Messages (section 5.1) -/

/-- R79: MSG_OPEN. An id outside 0 to 63 is BAD_INDEX, an entry that is not FREE BUSY, a length or start page that does not fit memory
BAD_VALUE, and pages that another non-FREE entry occupies DUPLICATE; a refused open changes nothing. An accepted open makes the entry
LOADING with the given start page and length and a write pointer of 0, and the reply is OK. -/
def Obligations.MsgOpenOpensAnEntry : Prop :=
  ∀ (src : Node) (req id : Byte) (startPage : BitVec 16) (length : BitVec 32) (s : State),
    s.commandReady (.msgOpen src req id startPage length) src →
    (64 ≤ id.toNat →
      exec (.msgOpen src req id startPage length) s = .next (s.answered (s.reply src 0x0A req .badIndex []))) ∧
    (∀ i : MessageId, i.val = id.toNat →
      (s.messages[i] ≠ .free →
        exec (.msgOpen src req id startPage length) s = .next (s.answered (s.reply src 0x0A req .busy []))) ∧
      (s.messages[i] = .free →
        (length.toNat = 0 ∨ 4194304 < length.toNat ∨ 1023 < startPage.toNat ∨
            1024 < startPage.toNat + (length.toNat + 4095) / 4096 →
          exec (.msgOpen src req id startPage length) s = .next (s.answered (s.reply src 0x0A req .badValue []))) ∧
        (1 ≤ length.toNat → length.toNat ≤ 4194304 → startPage.toNat ≤ 1023 →
          startPage.toNat + (length.toNat + 4095) / 4096 ≤ 1024 →
          ((∃ j start len pointer page, j ≠ i ∧ s.messages[j].extent = some (start, len, pointer) ∧
              start ≤ page ∧ page < start + (len + 4095) / 4096 ∧
              startPage.toNat ≤ page ∧ page < startPage.toNat + (length.toNat + 4095) / 4096) →
            exec (.msgOpen src req id startPage length) s = .next (s.answered (s.reply src 0x0A req .duplicate []))) ∧
          ((∀ j start len pointer, j ≠ i → s.messages[j].extent = some (start, len, pointer) →
              start + (len + 4095) / 4096 ≤ startPage.toNat ∨ startPage.toNat + (length.toNat + 4095) / 4096 ≤ start) →
            exec (.msgOpen src req id startPage length) s = .next { s.answered (s.reply src 0x0A req .ok []) with
              messages := s.messages.set i (.loading startPage.toNat length.toNat 0) }))))

/-- R80, R163: MSG_DATA. The words from the write pointer on are written to their places in call memory, those beyond the length are
discarded, the pointer advances, and no other byte of call memory and nothing else changes. The spec addresses words alone: that word `w`
stands in the bytes 2w and 2w + 1, which the clause on the other bytes names, is the model's choice (log 12). -/
def Obligations.MsgDataWritesItsWords : Prop :=
  ∀ (src : Node) (id : BitVec 6) (words : List (BitVec 16)) (s : State), s.commandReady (.msgData src id words) src →
    ((s.messages[idOf id] = .free ∨ ∃ start length, s.messages[idOf id] = .valid start length) →
      exec (.msgData src id words) s =
        .next (s.answered (s.reply src (BitVec.ofNat 8 (0x40 + id.toNat)) 0 .wrongState []))) ∧
    (∀ start length pointer newPointer, s.messages[idOf id] = .loading start length pointer → pointer ≤ length → s.mem.wf = true →
      newPointer = min length (pointer + words.length) →
      ∃ mem, exec (.msgData src id words) s = .next {
          s.answered (s.reply src (BitVec.ofNat 8 (0x40 + id.toNat)) 0
            (if length < pointer + words.length then .clamped else .ok) (bigEndian 3 newPointer)) with
          mem := mem
          messages := s.messages.set (idOf id) (.loading start length newPointer) } ∧ mem.wf = true ∧
        (∀ (k : Nat) (w : BitVec 16), words[k]? = some w → pointer + k < length →
          memWord mem (start * 4096 + pointer + k) = w) ∧
        (∀ a, (∀ i, pointer ≤ i → i < newPointer → a ≠ 2 * (start * 4096 + i) ∧ a ≠ 2 * (start * 4096 + i) + 1) →
          memRead mem a = memRead s.mem a))

/-- R81: MSG_CLOSE ends a load. R82: MSG_DELETE frees an entry that no non-FREE call references; that every referenced message is VALID is
kept, and a LOADING entry is then referenced by none. R83: MSG_READ of an offset below the write pointer is answered, in the data form of
R163, with the number of words within the readable part, and six words, 0 at and beyond the write pointer; nothing else changes. -/
def Obligations.MessagesCloseDeleteAndRead : Prop :=
  (∀ (src : Node) (req id : Byte) (s : State), s.commandReady (.msgClose src req id) src →
    (64 ≤ id.toNat → exec (.msgClose src req id) s = .next (s.answered (s.reply src 0x0C req .badIndex []))) ∧
    (∀ i : MessageId, i.val = id.toNat →
      ((s.messages[i] = .free ∨ ∃ start length, s.messages[i] = .valid start length) →
        exec (.msgClose src req id) s = .next (s.answered (s.reply src 0x0C req .wrongState []))) ∧
      (∀ start length pointer, s.messages[i] = .loading start length pointer →
        (pointer = length → exec (.msgClose src req id) s = .next { s.answered (s.reply src 0x0C req .ok (bigEndian 3 pointer)) with
          messages := s.messages.set i (.valid start length) }) ∧
        (pointer < length → exec (.msgClose src req id) s = .next {
          s.answered (s.reply src 0x0C req .badValue (bigEndian 3 pointer)) with messages := s.messages.set i .free })))) ∧
  (∀ (src : Node) (req id : Byte) (s : State), s.commandReady (.msgDelete src req id) src →
    (64 ≤ id.toNat → exec (.msgDelete src req id) s = .next (s.answered (s.reply src 0x0D req .badIndex []))) ∧
    (∀ i : MessageId, i.val = id.toNat →
      (s.messages[i] = .free → exec (.msgDelete src req id) s = .next (s.answered (s.reply src 0x0D req .ok []))) ∧
      (s.messages[i] ≠ .free →
        ((∃ c, (s.call c).state ≠ .free ∧ (s.call c).source.references i = true) →
          exec (.msgDelete src req id) s = .next (s.answered (s.reply src 0x0D req .busy []))) ∧
        ((∀ c, (s.call c).state ≠ .free → (s.call c).source.references i = false) →
          exec (.msgDelete src req id) s = .next { s.answered (s.reply src 0x0D req .ok []) with
            messages := s.messages.set i .free }))) ∧
    (s.ReferencesValid → (∀ t, exec (.msgDelete src req id) s = .next t → t.ReferencesValid) ∧
      ∀ i start length pointer, s.messages[i] = .loading start length pointer →
        ∀ c, (s.call c).state ≠ .free → (s.call c).source.references i = false)) ∧
  (∀ (src : Node) (req : Byte) (id : BitVec 6) (offset : BitVec 24) (s : State), s.commandReady (.msgRead src req id offset) src →
    (s.messages[idOf id] = .free →
      exec (.msgRead src req id offset) s =
        .next (s.answered (s.reply src (BitVec.ofNat 8 (0xC0 + id.toNat)) req .wrongState []))) ∧
    (∀ start length pointer, s.messages[idOf id].extent = some (start, length, pointer) →
      (pointer ≤ offset.toNat →
        exec (.msgRead src req id offset) s =
          .next (s.answered (s.reply src (BitVec.ofNat 8 (0xC0 + id.toNat)) req .badValue []))) ∧
      (offset.toNat < pointer → ∀ n bytes, n = min 6 (pointer - offset.toNat) →
        bytes = (List.range 6).flatMap (fun k => bigEndian 2 (if offset.toNat + k < pointer
          then (memWord s.mem (start * 4096 + (offset.toNat + k))).toNat else 0)) →
        exec (.msgRead src req id offset) s = .next (s.answered
          { dest := src.setWidth 8, src := s.node.setWidth 8, kind := BitVec.ofNat 8 (16 * n + 2)
            code := BitVec.ofNat 8 (0xC0 + id.toNat), payload := bytes }))))

/-! ## Table writes -/

/-- R149, R161, R162: what stands before each table's own checks. A table number that names no table is BAD_TABLE, an index outside the
table BAD_INDEX, a group code outside the table BAD_VALUE, the second-part mark on a group of ten bytes or fewer BAD_VALUE. The first part
of a long group is staged, and a second part that it does not match is BAD_VALUE. Nothing else changes. The place of the second-part check
is log 16, the order of index and group log 29, a second part with a bad index log 49. -/
def Obligations.TableWritesAreCheckedFirst : Prop :=
  (∀ (t : Table) (src : Node) (req : Byte) (w : TableWrite) (s : State) (c : Instr) (refused : Status → Prop), c = tableWriteRow t src req w →
    s.commandReady c src → (refused = fun st => exec c s = .next (s.answered (s.reply src
      (BitVec.ofNat 8 (0x80 + 4 * tableCode t + w.group.toNat)) req st []))) →
    (w.index.toNat < (tableRange t).1 ∨ (tableRange t).2 < w.index.toNat → refused .badIndex) ∧
    ((tableRange t).1 ≤ w.index.toNat → w.index.toNat ≤ (tableRange t).2 →
      (lastGroup t < w.group.toNat → refused .badValue) ∧
      (w.group.toNat ≤ lastGroup t → w.second = true → ¬ ((t = .loop ∨ t = .config) ∧ w.group = 0) → refused .badValue) ∧
      ((t = .loop ∨ t = .config) → w.group = 0 → w.second = true →
        (∀ p, s.staged = some p → ¬ (p.src = src ∧ p.table.toNat = tableCode t ∧ p.group = 0 ∧ p.index = w.index)) →
        refused .badValue))) ∧
  (∀ (src : Node) (req : Byte) (table : BitVec 4) (w : TableWrite) (s : State), s.commandReady (.tableWriteFirstPart src req table w) src →
    (9 ≤ table.toNat → exec (.tableWriteFirstPart src req table w) s = .next (s.answered (s.reply src
      (BitVec.ofNat 8 (0x80 + 4 * table.toNat + w.group.toNat)) req .badTable []))) ∧
    (w.group = 0 → w.second = false →
      (table = 3 ∧ 32 ≤ w.index.toNat ∨ table = 8 ∧ w.index ≠ 0 →
        exec (.tableWriteFirstPart src req table w) s = .next (s.answered (s.reply src
          (BitVec.ofNat 8 (0x80 + 4 * table.toNat)) req .badIndex []))) ∧
      (table = 3 ∧ w.index.toNat < 32 ∨ table = 8 ∧ w.index = 0 →
        exec (.tableWriteFirstPart src req table w) s = .next { s.answered (s.reply src
          (BitVec.ofNat 8 (0x80 + 4 * table.toNat)) req .ok [1]) with
          staged := some { src := src, table := table, group := 0, index := w.index, data := padTo 10 w.data } })))

/-- R9: ROUTE_WRITE in its three forms; R43, R143: SLOTMAP_WRITE, whose only other effect is that in SERVICE LISTEN is issued to each
PRESENT endpoint whose zone is heard in another slot than before, and to no other: every waiting directive keeps its place, with its value
unless it is such a LISTEN (R142). -/
def Obligations.RouteAndSlotmapWrites : Prop :=
  (∀ (src : Node) (req : Byte) (w : TableWrite) (s : State) (i : Fin 128), s.commandReady (.routeWrite src req w) src → w.group = 0 →
    w.second = false → i.val = w.index.toNat →
    (byteAt w.data 0 = 0 → exec (.routeWrite src req w) s = .next { s.answered (s.reply src 0x80 req .ok [BitVec.ofNat 8 i.val]) with
      routes := s.routes.set i { inUse := false, slot := 0, bus := 0, gain := 0 } }) ∧
    (1 < (byteAt w.data 0).toNat ∨ byteAt w.data 0 = 1 ∧ (64 ≤ (byteAt w.data 1).toNat ∨ 32 ≤ (byteAt w.data 2).toNat) →
      exec (.routeWrite src req w) s = .next (s.answered (s.reply src 0x80 req .badValue []))) ∧
    (∀ (slot : Fin 64) (bus : Fin 32), byteAt w.data 0 = 1 → slot.val = (byteAt w.data 1).toNat → bus.val = (byteAt w.data 2).toNat →
      ((∀ j : Fin 128, j ≠ i → ¬ (s.routes[j].inUse = true ∧ s.routes[j].slot = slot ∧ s.routes[j].bus = bus)) →
        exec (.routeWrite src req w) s = .next { s.answered (s.reply src 0x80 req .ok [BitVec.ofNat 8 i.val]) with
          routes := s.routes.set i { inUse := true, slot := slot, bus := bus, gain := (word16 w.data 3).toNat } }) ∧
      (∀ j : Fin 128, s.RoutesDistinct → j ≠ i → s.routes[j].inUse = true → s.routes[j].slot = slot → s.routes[j].bus = bus →
        exec (.routeWrite src req w) s = .next { s.answered (s.reply src 0x80 req .ok [BitVec.ofNat 8 j.val]) with
          routes := s.routes.set j { s.routes[j] with gain := (word16 w.data 3).toNat } }))) ∧
  (∀ (src : Node) (req : Byte) (w : TableWrite) (s : State) (i : Fin 64), s.commandReady (.slotmapWrite src req w) src → w.group = 0 →
    w.second = false → i.val = w.index.toNat →
    (2 < (byteAt w.data 0).toNat ∨ byteAt w.data 0 = 2 ∧ 32 ≤ (byteAt w.data 1).toNat →
      exec (.slotmapWrite src req w) s = .next (s.answered (s.reply src 0x84 req .badValue []))) ∧
    (∀ v : SlotEntry, (byteAt w.data 0 = 0 ∧ v = .pass) ∨ (byteAt w.data 0 = 1 ∧ v = .silence) ∨
        (byteAt w.data 0 = 2 ∧ ∃ z : ZoneId, z.val = (byteAt w.data 1).toNat ∧ v = .zone z) →
      ∃ t, exec (.slotmapWrite src req w) s = .next t ∧
        t = { s.answered (s.reply src 0x84 req .ok [BitVec.ofNat 8 i.val]) with
          slotMap := s.slotMap.set i v, directives := t.directives } ∧
        (s.service = .configuration → t.directives = s.directives) ∧
        (s.service = .service → QueueIssues s t fun d => ∃ e z, (s.endpoint e).presence = .present ∧ s.zoneOfEndpoint e = some z ∧
          s.listenSlot z ≠ t.listenSlot z ∧
          d = { endpoint := e, code := .listen, dest := (s.endpoint e).node, value := optIndexByte (t.listenSlot z) })))

/-- R21, R27, R40: the gains, idle and endpoints groups of ZONE_WRITE. That an endpoints write which removes the standby endpoint leaves the
active side as it is, STANDBY too, is the model's choice (log 43): R45 calls such a zone PRIMARY throughout. -/
def Obligations.ZoneSettingsWrites : Prop :=
  ∀ (src : Node) (req : Byte) (w : TableWrite) (s : State) (z : ZoneId), s.commandReady (.zoneWrite src req w) src → w.second = false →
    z.val = w.index.toNat →
    (w.group = 3 → exec (.zoneWrite src req w) s = .next {
      s.answered (s.reply src 0x8B req (if word16 w.data 6 = 0 then .clamped else .ok) [BitVec.ofNat 8 z.val]) with
      zones := s.zones.set z { s.zone z with
        trim := (word16 w.data 0).toNat, callLevel := (word16 w.data 2).toNat, callDuck := (word16 w.data 4).toNat
        duckStep := max 1 (word16 w.data 6).toNat, reduceGain := (word16 w.data 8).toNat } }) ∧
    (w.group = 2 →
      (1 < (byteAt w.data 0).toNat → exec (.zoneWrite src req w) s = .next (s.answered (s.reply src 0x8A req .badValue []))) ∧
      (∀ p time, idlePolicyOf (byteAt w.data 0) = some p → time = max 1 (min 3600 (word16 w.data 1).toNat) →
        ∃ t, exec (.zoneWrite src req w) s = .next t ∧
          t.replies = s.replies ++ [s.reply src 0x8A req (if time = (word16 w.data 1).toNat then .ok else .clamped)
            [BitVec.ofNat 8 z.val]] ∧
          t.zones = s.zones.set z { s.zone z with
            idlePolicy := p, idleTime := time
            idleDeadline := if p = .alwaysOn then none
              else if (s.zone z).idlePolicy = .alwaysOn then some (s.now + time * 1000) else (s.zone z).idleDeadline } ∧
          (∀ e, (s.zone z).primary = some e ∨ (s.zone z).standby = some e → (s.endpoint e).inUse = true →
            (t.endpoint e).commanded = t.commandedPower e) ∧
          t.calls = s.calls ∧ t.faults = s.faults ∧ t.events = s.events)) ∧
    (w.group = 1 →
      (s.service = .service → exec (.zoneWrite src req w) s = .next (s.answered (s.reply src 0x89 req .wrongState []))) ∧
      (s.service = .configuration →
        (endpointField (byteAt w.data 0) = none ∨ endpointField (byteAt w.data 1) = none →
          exec (.zoneWrite src req w) s = .next (s.answered (s.reply src 0x89 req .badValue []))) ∧
        (∀ p b, endpointField (byteAt w.data 0) = some p → endpointField (byteAt w.data 1) = some b →
          (b ≠ none → p = none ∨ p = b →
            exec (.zoneWrite src req w) s = .next (s.answered (s.reply src 0x89 req .badValue []))) ∧
          (b = none ∨ p ≠ none ∧ p ≠ b →
            exec (.zoneWrite src req w) s = .next { s.answered (s.reply src 0x89 req .ok [BitVec.ofNat 8 z.val]) with
              zones := s.zones.set z { s.zone z with primary := p, standby := b } }))))

/-- R14, R26, R27, R28, R53, R61, R71, R125: the assignment group of ZONE_WRITE. In CONFIGURATION the three fields are written within the
kind limits; a code that names no kind is BAD_VALUE. In SERVICE a change of kind is WRONG_STATE, a disable of a claimed zone BUSY, an enable
that fails the checks of COMMIT BAD_CONFIG and one beyond the limits LIMIT; a disable ends test, suspension and open-loop candidate, an
enable starts on the PRIMARY side with its protection derived anew, the gains at their targets and held for the first block, and its loop or
VOX runtime at the start values; LISTEN follows. That an unknown kind code in SERVICE is WRONG_STATE is the model's choice (log 17). -/
def Obligations.ZoneAssignmentWrites : Prop :=
  ∀ (src : Node) (req : Byte) (w : TableWrite) (s : State) (z : ZoneId), s.commandReady (.zoneWrite src req w) src → w.second = false →
    z.val = w.index.toNat → w.group = 0 →
    (s.service = .service → kindOf (byteAt w.data 1) ≠ some (s.zone z).kind →
      exec (.zoneWrite src req w) s = .next (s.answered (s.reply src 0x88 req .wrongState []))) ∧
    (s.service = .configuration → kindOf (byteAt w.data 1) = none →
      exec (.zoneWrite src req w) s = .next (s.answered (s.reply src 0x88 req .badValue []))) ∧
    (∀ kind, kindOf (byteAt w.data 1) = some kind → s.service = .configuration ∨ kind = (s.zone z).kind →
      (1 < (byteAt w.data 0).toNat ∨ 32 ≤ (byteAt w.data 2).toNat →
        exec (.zoneWrite src req w) s = .next (s.answered (s.reply src 0x88 req .badValue []))) ∧
      (∀ (enabled : Bool) (bus : Fin 32) (new : Zone), flagOf (byteAt w.data 0) = some enabled → bus.val = (byteAt w.data 2).toNat →
        new = { s.zone z with enabled := enabled, kind := kind, bus := bus } →
        (s.service = .configuration →
          ({ s with zones := s.zones.set z new }.KindLimits → exec (.zoneWrite src req w) s = .next {
            s.answered (s.reply src 0x88 req .ok [BitVec.ofNat 8 z.val]) with zones := s.zones.set z new }) ∧
          (¬ { s with zones := s.zones.set z new }.KindLimits →
            exec (.zoneWrite src req w) s = .next (s.answered (s.reply src 0x88 req .limit [])))) ∧
        (s.service = .service →
          (enabled = (s.zone z).enabled → exec (.zoneWrite src req w) s = .next {
            s.answered (s.reply src 0x88 req .ok [BitVec.ofNat 8 z.val]) with zones := s.zones.set z { s.zone z with bus := bus } }) ∧
          (enabled = false → (s.zone z).enabled = true → (s.claimant z).isSome = true →
            exec (.zoneWrite src req w) s = .next (s.answered (s.reply src 0x88 req .busy []))) ∧
          (enabled = false → (s.zone z).enabled = true → s.claimant z = none →
            ∃ t, exec (.zoneWrite src req w) s = .next t ∧
              t.replies = s.replies ++ [s.reply src 0x88 req .ok [BitVec.ofNat 8 z.val]] ∧
              t.zones = s.zones.set z { s.zone z with enabled := false, bus := bus, testMode := .none, suspended := false } ∧
              (∀ l, s.loopOf z = some l → t.loops = s.loops.set l { s.loops[l] with candidate := none, accumulator := 0 }) ∧
              (∀ e, (s.zone z).primary = some e ∨ (s.zone z).standby = some e → (s.endpoint e).inUse = true →
                (s.endpoint e).role ≠ .usherLight → (s.endpoint e).place = z → (t.endpoint e).commanded = .off) ∧
              (∀ e, (s.endpoint e).presence = .present → s.zoneOfEndpoint e = some z → s.listenSlot z ≠ none →
                { endpoint := e, code := .listen, dest := (s.endpoint e).node, value := 0xFF } ∈ t.directives) ∧
              t.calls = s.calls ∧ t.faults = s.faults) ∧
          (enabled = true → (s.zone z).enabled = false →
            (s.zoneReady z = false →
              exec (.zoneWrite src req w) s = .next (s.answered (s.reply src 0x88 req .badConfig [0x02, BitVec.ofNat 8 z.val]))) ∧
            (s.zoneReady z = true → ¬ { s with zones := s.zones.set z new }.KindLimits →
              exec (.zoneWrite src req w) s = .next (s.answered (s.reply src 0x88 req .limit []))) ∧
            (s.zoneReady z = true → { s with zones := s.zones.set z new }.KindLimits →
              ∃ t, exec (.zoneWrite src req w) s = .next t ∧
                t.replies = s.replies ++ [s.reply src 0x88 req .ok [BitVec.ofNat 8 z.val]] ∧
                (∀ voice base, ((s.zone z).kind ≠ .desc ∧ voice = (s.zone z).voiceGain ∨
                    ∃ d, (s.zone z).kind = .desc ∧ s.descOf z = some d ∧ voice = s.descs[d].voiceGain) →
                  ((s.zone z).kind ≠ .loop ∧ base = (s.zone z).trim ∨ ∃ l, (s.zone z).kind = .loop ∧ s.loopOf z = some l ∧
                    base = comp (s.zone z).trim (max s.loops[l].agcMin (min s.loops[l].agcMax 16384))) →
                  t.zone z = { s.zone z with
                    enabled := true, bus := bus, side := .primary, protection := t.protectionOf z
                    idleDeadline := if (s.zone z).idlePolicy = .callsOnly then some (s.now + (s.zone z).idleTime * 1000) else none
                    duckGain := 16384, voiceGain := voice, fresh := true
                    outputGain := match t.protectionOf z with
                      | .normal => base
                      | .reduced => comp base (s.zone z).reduceGain
                      | .muted => 0 }) ∧
                (∀ l, (s.zone z).kind = .loop → s.loopOf z = some l → t.loops = s.loops.set l { s.loops[l] with
                  agc := max s.loops[l].agcMin (min s.loops[l].agcMax 16384), limited := false, saturated := false
                  candidate := none, accumulator := 0 }) ∧
                (∀ d, (s.zone z).kind = .desc → s.descOf z = some d →
                  t.descs = s.descs.set d { s.descs[d] with voxActive := false, holdRemaining := 0 }) ∧
                (∀ e, (s.zone z).primary = some e ∨ (s.zone z).standby = some e → (s.endpoint e).inUse = true →
                  (t.endpoint e).commanded = t.commandedPower e) ∧
                (∀ e, (s.endpoint e).presence = .present → s.zoneOfEndpoint e = some z → t.listenSlot z ≠ none →
                  { endpoint := e, code := .listen, dest := (s.endpoint e).node, value := optIndexByte (t.listenSlot z) } ∈
                    t.directives) ∧
                (∀ y, y ≠ z → (t.zone y).settings = (s.zone y).settings) ∧ t.faults = s.faults)))))

/-- R49 to R51, R53, R118: LOOP_WRITE. A write to a zone without a record binds the free record with the lowest index, at its reset values
with its two fault records, and goes to that; with all eight bound it is FULL. The current and open groups, and the level group in its
second part, write their fields with their clamps; the level group also clamps the AGC gain, and an AGC minimum above the maximum is
BAD_VALUE and binds nothing. The release puts record and fault records at their reset values, but while the zone is an enabled LOOP zone in
SERVICE it is BUSY. -/
def Obligations.LoopWrites : Prop :=
  ∀ (src : Node) (req : Byte) (w : TableWrite) (s : State) (z : ZoneId), s.commandReady (.loopWrite src req w) src →
    z.val = w.index.toNat →
    (∀ (l : ParamId) (r : LoopRecord) (F : FaultTable) (A : Bool) (status : Status) (new : LoopRecord) (staged : Option Staged),
      (s.loopOf z = some l ∧ r = s.loops[l] ∧ F = s.faults ∧ A = s.alert) ∨
        (s.loopOf z = none ∧ s.loops[l].zone = none ∧ (∀ k, k < l → s.loops[k].zone.isSome = true) ∧
          r = { State.reset.loops[l] with zone := some z } ∧
          F = { s.faults with loop := s.faults.loop.set l (Vector.replicate 2 {}) } ∧ A = F.anyActionable) →
      (∃ i st o, w.group = 1 ∧ w.second = false ∧ staged = s.staged ∧
          i = (word16 w.data 0).toNat ∧ st = (word16 w.data 2).toNat ∧ o = (word16 w.data 4).toNat ∧
          status = (if i ≤ 20000 ∧ 1 ≤ st ∧ st ≤ 4096 ∧ o ≤ 20000 then .ok else .clamped) ∧
          new = { r with currentLimit := min 20000 i, limitStep := max 1 (min 4096 st), overcurrent := min 20000 o }) ∨
        (∃ i g t, w.group = 2 ∧ w.second = false ∧ staged = s.staged ∧
          i = (word16 w.data 0).toNat ∧ g = (word24 w.data 2).toNat ∧ t = (word16 w.data 5).toNat ∧
          status = (if i ≤ 20000 ∧ g ≤ 8388608 ∧ 100 ≤ t ∧ t ≤ 5000 then .ok else .clamped) ∧
          new = { r with openCurrent := min 20000 i, openSignal := min 8388608 g, openTime := max 100 (min 5000 t) }) ∨
        (∃ p lo hi target window attack release, w.group = 0 ∧ w.second = true ∧ staged = none ∧ s.staged = some p ∧ p.src = src ∧
          p.table = 3 ∧ p.group = 0 ∧ p.index = w.index ∧ p.data.length = 10 ∧
          target = (word24 p.data 0).toNat ∧ window = (word24 p.data 3).toNat ∧ attack = (word16 p.data 6).toNat ∧
          release = (word16 p.data 8).toNat ∧ lo = (word16 w.data 0).toNat ∧ hi = (word16 w.data 2).toNat ∧ lo ≤ hi ∧
          status = (if target ≤ 8388607 ∧ window ≤ 8388607 ∧ 1 ≤ attack ∧ attack ≤ 4096 ∧ 1 ≤ release ∧ release ≤ 4096
            then .ok else .clamped) ∧
          new = { r with
            target := min 8388607 target, window := min 8388607 window, attack := max 1 (min 4096 attack)
            release := max 1 (min 4096 release), agcMin := lo, agcMax := hi, agc := max lo (min hi r.agc) }) →
      exec (.loopWrite src req w) s = .next {
        s.answered (s.reply src (BitVec.ofNat 8 (0x8C + w.group.toNat)) req status [BitVec.ofNat 8 z.val]) with
        staged := staged, loops := s.loops.set l new, faults := F, alert := A }) ∧
    (s.loopOf z = none → (∀ l : ParamId, s.loops[l].zone.isSome = true) → (w.group = 1 ∨ w.group = 2) → w.second = false →
      exec (.loopWrite src req w) s =
        .next (s.answered (s.reply src (BitVec.ofNat 8 (0x8C + w.group.toNat)) req .full []))) ∧
    (∀ p, w.group = 0 → w.second = true → s.staged = some p → p.src = src → p.table = 3 → p.group = 0 → p.index = w.index →
      p.data.length = 10 →
      (s.loopOf z = none → (∀ l : ParamId, s.loops[l].zone.isSome = true) →
        exec (.loopWrite src req w) s = .next { s.answered (s.reply src 0x8C req .full []) with staged := none }) ∧
      (s.loopOf z ≠ none ∨ (∃ l : ParamId, s.loops[l].zone = none) → (word16 w.data 2).toNat < (word16 w.data 0).toNat →
        exec (.loopWrite src req w) s = .next { s.answered (s.reply src 0x8C req .badValue []) with staged := none })) ∧
    (w.group = 3 → w.second = false →
      (s.loopOf z = none → exec (.loopWrite src req w) s = .next (s.answered (s.reply src 0x8F req .ok [BitVec.ofNat 8 z.val]))) ∧
      (∀ l, s.loopOf z = some l →
        (s.service = .service ∧ (s.zone z).enabled = true ∧ (s.zone z).kind = .loop →
          exec (.loopWrite src req w) s = .next (s.answered (s.reply src 0x8F req .busy []))) ∧
        (¬ (s.service = .service ∧ (s.zone z).enabled = true ∧ (s.zone z).kind = .loop) → ∀ F : FaultTable,
          F = { s.faults with loop := s.faults.loop.set l (Vector.replicate 2 {}) } →
          exec (.loopWrite src req w) s = .next { s.answered (s.reply src 0x8F req .ok [BitVec.ofNat 8 z.val]) with
            loops := s.loops.set l {}, faults := F, alert := F.anyActionable })))

/-- R64 to R67, R76: DESC_WRITE. A write to a zone without a record binds the free record with the lowest index, at its reset values with
the lowest channel that no bound record holds, and goes to that; with all eight bound it is FULL. The voice and vox groups write their
fields with their clamps; a channel must lie within 1 to 16 and be free; a group that is refused binds nothing. Where the zone's channel has
become another, CHANNEL is issued to its PRESENT transmitters in SERVICE, and no other directive (R142). The release puts the record at its
reset values, but while the zone is an enabled DESC zone in SERVICE it is BUSY. -/
def Obligations.DescWrites : Prop :=
  ∀ (src : Node) (req : Byte) (w : TableWrite) (s : State) (z : ZoneId), s.commandReady (.descWrite src req w) src →
    w.second = false → z.val = w.index.toNat →
    (∀ (d : ParamId) (r new : DescRecord) (before : Option Nat) (ch : Nat) (status : Status),
      (s.descOf z = some d ∧ r = s.descs[d] ∧ before = some r.channel) ∨
        (s.descOf z = none ∧ s.descs[d].zone = none ∧ (∀ k, k < d → s.descs[k].zone.isSome = true) ∧ before = none ∧
          r = { State.reset.descs[d] with zone := some z, channel := ch } ∧ 1 ≤ ch ∧ ch ≤ 16 ∧
          (∀ k : ParamId, s.descs[k].zone.isSome = true → s.descs[k].channel ≠ ch) ∧
          ∀ n, 1 ≤ n → n < ch → ∃ k : ParamId, s.descs[k].zone.isSome = true ∧ s.descs[k].channel = n) →
      (∃ slot : Fin 64, w.group = 0 ∧ slot.val = (byteAt w.data 0).toNat ∧ status = .ok ∧
          new = { r with voiceSlot := slot, voiceGain := (word16 w.data 1).toNat, voxDepth := (word16 w.data 3).toNat }) ∨
        (∃ on off hold, w.group = 1 ∧ on = (word24 w.data 0).toNat ∧ off = (word24 w.data 3).toNat ∧ hold = (word16 w.data 6).toNat ∧
          min 8388608 off ≤ min 8388608 on ∧
          status = (if on ≤ 8388608 ∧ off ≤ 8388608 ∧ hold ≤ 5000 then .ok else .clamped) ∧
          new = { r with onThreshold := min 8388608 on, offThreshold := min 8388608 off, holdTime := min 5000 hold
                         holdRemaining := min r.holdRemaining (min 5000 hold) }) ∨
        (∃ c, w.group = 2 ∧ c = (byteAt w.data 0).toNat ∧ 1 ≤ c ∧ c ≤ 16 ∧
          (∀ (k : ParamId) (y : ZoneId), s.descs[k].zone = some y → y ≠ z → s.descs[k].channel ≠ c) ∧ status = .ok ∧
          new = { r with channel := c }) →
      ∃ t, exec (.descWrite src req w) s = .next t ∧
        t = { s.answered (s.reply src (BitVec.ofNat 8 (0x90 + w.group.toNat)) req status [BitVec.ofNat 8 z.val]) with
          descs := s.descs.set d new, directives := t.directives } ∧
        (s.service = .configuration ∨ before = some new.channel → t.directives = s.directives) ∧
        (s.service = .service → before ≠ some new.channel → QueueIssues s t fun x => ∃ e, (s.endpoint e).inUse = true ∧
          (s.endpoint e).role = .descTx ∧ (s.endpoint e).place = z ∧ (s.endpoint e).presence = .present ∧
          x = { endpoint := e, code := .channel, dest := (s.endpoint e).node, value := BitVec.ofNat 8 new.channel })) ∧
    (s.descOf z ≠ none ∨ (∃ d : ParamId, s.descs[d].zone = none) →
      (w.group = 0 → 64 ≤ (byteAt w.data 0).toNat →
        exec (.descWrite src req w) s = .next (s.answered (s.reply src 0x90 req .badValue []))) ∧
      (w.group = 1 → min 8388608 (word24 w.data 0).toNat < min 8388608 (word24 w.data 3).toNat →
        exec (.descWrite src req w) s = .next (s.answered (s.reply src 0x91 req .badValue []))) ∧
      (w.group = 2 → (byteAt w.data 0).toNat = 0 ∨ 16 < (byteAt w.data 0).toNat →
        exec (.descWrite src req w) s = .next (s.answered (s.reply src 0x92 req .badValue []))) ∧
      (w.group = 2 → 1 ≤ (byteAt w.data 0).toNat → (byteAt w.data 0).toNat ≤ 16 →
        (∃ (k : ParamId) (y : ZoneId), s.descs[k].zone = some y ∧ y ≠ z ∧ s.descs[k].channel = (byteAt w.data 0).toNat) →
        exec (.descWrite src req w) s = .next (s.answered (s.reply src 0x92 req .duplicate [])))) ∧
    (w.group ≠ 3 → s.descOf z = none → (∀ d : ParamId, s.descs[d].zone.isSome = true) → exec (.descWrite src req w) s =
      .next (s.answered (s.reply src (BitVec.ofNat 8 (0x90 + w.group.toNat)) req .full []))) ∧
    (w.group = 3 →
      (s.descOf z = none → exec (.descWrite src req w) s = .next (s.answered (s.reply src 0x93 req .ok [BitVec.ofNat 8 z.val]))) ∧
      (∀ d, s.descOf z = some d →
        (s.service = .service ∧ (s.zone z).enabled = true ∧ (s.zone z).kind = .desc →
          exec (.descWrite src req w) s = .next (s.answered (s.reply src 0x93 req .busy []))) ∧
        (¬ (s.service = .service ∧ (s.zone z).enabled = true ∧ (s.zone z).kind = .desc) →
          exec (.descWrite src req w) s = .next { s.answered (s.reply src 0x93 req .ok [BitVec.ofNat 8 z.val]) with
            descs := s.descs.set d {} })))

/-- R33, R118, R142: ENDPOINT_WRITE. A write that passes sets the four fields, puts the index's six fault records at their reset values and
removes its waiting directives. That the runtime fields of the record stay as they are is the model's choice (log 39). -/
def Obligations.EndpointWrites : Prop :=
  ∀ (src : Node) (req : Byte) (w : TableWrite) (s : State) (e : EndpointId), s.commandReady (.endpointWrite src req w) src →
    w.group = 0 → w.second = false → e.val = w.index.toNat →
    (s.service = .service → exec (.endpointWrite src req w) s = .next (s.answered (s.reply src 0x94 req .wrongState []))) ∧
    (s.service = .configuration →
      (1 < (byteAt w.data 0).toNat ∨ byteAt w.data 0 = 1 ∧ ((byteAt w.data 1).toNat = 0 ∨ 127 ≤ (byteAt w.data 1).toNat ∨
          (byteAt w.data 1).toNat = s.node.toNat ∨ 4 < (byteAt w.data 2).toNat ∨
          (byteAt w.data 2).toNat < 4 ∧ 32 ≤ (byteAt w.data 3).toNat ∨ byteAt w.data 2 = 4 ∧ 2 ≤ (byteAt w.data 3).toNat) →
        exec (.endpointWrite src req w) s = .next (s.answered (s.reply src 0x94 req .badValue []))) ∧
      (∀ (inUse : Bool) (node : Node) (role : Role) (place : Fin 32),
        (byteAt w.data 0 = 0 ∧ inUse = false ∧ node = 0 ∧ role = .foyerAmp ∧ place = 0) ∨
        (byteAt w.data 0 = 1 ∧ inUse = true ∧ node.toNat = (byteAt w.data 1).toNat ∧ node ≠ 0 ∧ node ≠ 127 ∧ node ≠ s.node ∧
          roleOf (byteAt w.data 2) = some role ∧ place.val = (byteAt w.data 3).toNat ∧ (role = .usherLight → place.val < 2)) →
        (inUse = true → (∃ x, x ≠ e ∧ (s.endpoint x).inUse = true ∧ (s.endpoint x).node = node) →
          exec (.endpointWrite src req w) s = .next (s.answered (s.reply src 0x94 req .duplicate []))) ∧
        (inUse = false ∨ (∀ x, x ≠ e → (s.endpoint x).inUse = true → (s.endpoint x).node ≠ node) →
          ∃ t, exec (.endpointWrite src req w) s = .next t ∧
            t = { s.answered (s.reply src 0x94 req .ok [BitVec.ofNat 8 e.val]) with
              endpoints := s.endpoints.set e { s.endpoint e with inUse := inUse, node := node, role := role, place := place }
              directives := s.directives.filter fun d => d.endpoint ≠ e
              faults := t.faults, alert := t.alert } ∧
            (∀ k, t.fault (.endpoint e k) = {}) ∧ (∀ f, (∀ k, f ≠ .endpoint e k) → t.fault f = s.fault f) ∧
            t.alert = t.faults.anyActionable)))

/-- R104, R105: GATE_WRITE of its three groups. The gate's state is not changed by a write. -/
def Obligations.GateWrites : Prop :=
  ∀ (src : Node) (req : Byte) (w : TableWrite) (s : State) (g : GateId), s.commandReady (.gateWrite src req w) src → w.second = false →
    g.val = w.index.toNat →
    (w.group = 0 →
      (1 < (byteAt w.data 6).toNat → exec (.gateWrite src req w) s = .next (s.answered (s.reply src 0x98 req .badValue []))) ∧
      (∀ any, flagOf (byteAt w.data 6) = some any →
        ((∃ i j, i < j ∧ j < 6 ∧ byteAt w.data i = byteAt w.data j ∧ byteAt w.data i ≠ 0) →
          exec (.gateWrite src req w) s = .next (s.answered (s.reply src 0x98 req .duplicate []))) ∧
        ((∀ i j, i < j → j < 6 → byteAt w.data i = byteAt w.data j → byteAt w.data i = 0) →
          exec (.gateWrite src req w) s = .next { s.answered (s.reply src 0x98 req .ok [BitVec.ofNat 8 g.val]) with
            gates := s.gates.set g { s.gate g with
              open1 := byteAt w.data 0, open2 := byteAt w.data 1, close1 := byteAt w.data 2, close2 := byteAt w.data 3
              bar := byteAt w.data 4, unbar := byteAt w.data 5, anyOpens := any } }))) ∧
    (w.group = 1 → ∀ window guard_, window = (word16 w.data 0).toNat → guard_ = (word16 w.data 2).toNat →
      exec (.gateWrite src req w) s = .next {
        s.answered (s.reply src 0x99 req (if 5 ≤ window ∧ window ≤ 600 ∧ guard_ ≤ 600 then .ok else .clamped) [BitVec.ofNat 8 g.val]) with
        gates := s.gates.set g { s.gate g with windowTime := max 5 (min 600 window), reopenGuard := min 600 guard_ } }) ∧
    (w.group = 2 →
      (4 < (byteAt w.data 0).toNat ∨ (∃ i, i < (byteAt w.data 0).toNat ∧ 64 ≤ (byteAt w.data (1 + i)).toNat) →
        exec (.gateWrite src req w) s = .next (s.answered (s.reply src 0x9A req .badValue []))) ∧
      (∀ ids : List MessageId, ids.length = (byteAt w.data 0).toNat → ids.length ≤ 4 →
        (∀ (i : Nat) (id : MessageId), ids[i]? = some id → id.val = (byteAt w.data (1 + i)).toNat) →
        (s.service = .service →
          (∃ z : ZoneId, (word32 w.data 6).getLsbD z.val = true ∧ (s.zone z).kind ≠ .lounge ∧ (s.zone z).kind ≠ .foyer) →
          exec (.gateWrite src req w) s = .next (s.answered (s.reply src 0x9A req .badConfig [0x06, BitVec.ofNat 8 g.val]))) ∧
        (s.service = .configuration ∨
            (∀ z : ZoneId, (word32 w.data 6).getLsbD z.val = true → (s.zone z).kind = .lounge ∨ (s.zone z).kind = .foyer) →
          exec (.gateWrite src req w) s = .next {
            s.answered (s.reply src 0x9A req (if (byteAt w.data 5).toNat ≤ 7 then .ok else .clamped) [BitVec.ofNat 8 g.val]) with
            gates := s.gates.set g { s.gate g with
              sequence := ids, priority := min 7 (byteAt w.data 5).toNat, mask := word32 w.data 6 } })))

/-- R117, R124, R127: POLICY_WRITE. A kind outside 1 to 11 is BAD_INDEX, a code that names no mode or no action BAD_VALUE. Otherwise the
entry is written with its clamps, in either service state, and DISABLED acts at once on every record of the kind: it becomes CLEAR, the
protection of the zones that actionable ones concerned is derived anew, and ALERT follows; any other mode changes no record. Which zones an
endpoint's record concerns is log 53. -/
def Obligations.PolicyWrites : Prop :=
  ∀ (src : Node) (req : Byte) (w : TableWrite) (s : State), s.commandReady (.policyWrite src req w) src → w.group = 0 → w.second = false →
    (w.index = 0 ∨ 11 < w.index.toNat →
      exec (.policyWrite src req w) s = .next (s.answered (s.reply src 0x9C req .badIndex []))) ∧
    (∀ k : Fin 11, w.index.toNat = k.val + 1 →
      (3 < (byteAt w.data 0).toNat ∨ 2 < (byteAt w.data 1).toNat →
        exec (.policyWrite src req w) s = .next (s.answered (s.reply src 0x9C req .badValue []))) ∧
      (∀ m a mode new status, policyModeOf (byteAt w.data 0) = some m → policyActionOf (byteAt w.data 1) = some a →
        mode = (if 6 ≤ k.val ∧ (m = .latched ∨ m = .retry) then .report else m) →
        new = { mode := mode, action := a, retryTime := max 1 (byteAt w.data 2).toNat,
                deglitch := max 1 (min 16 (byteAt w.data 3).toNat) } →
        status = (if mode = m ∧ 1 ≤ (byteAt w.data 2).toNat ∧ 1 ≤ (byteAt w.data 3).toNat ∧ (byteAt w.data 3).toNat ≤ 16
          then .ok else .clamped) →
        (mode ≠ .disabled → exec (.policyWrite src req w) s = .next {
          s.answered (s.reply src 0x9C req status [BitVec.ofNat 8 (k.val + 1)]) with policy := s.policy.set k new }) ∧
        (mode = .disabled →
          ∃ t, exec (.policyWrite src req w) s = .next t ∧
            t.replies = s.replies ++ [s.reply src 0x9C req status [BitVec.ofNat 8 (k.val + 1)]] ∧ t.policy = s.policy.set k new ∧
            (∀ f, policyIndex f = k → t.fault f = { s.fault f with
              state := .clear, deglitch := 0, inForce := none, retryRemaining := none, escalation := 0, lastRecovery := none }) ∧
            (∀ f, policyIndex f ≠ k → t.fault f = s.fault f) ∧ t.alert = t.faults.anyActionable ∧
            (∀ z, ((∃ f, policyIndex f = k ∧ (s.fault f).state.actionable = true ∧ s.zoneConcerned f = some z) →
                (t.zone z).protection = t.protectionOf z) ∧
              ((∀ f, policyIndex f = k → (s.fault f).state.actionable = true → s.zoneConcerned f ≠ some z) →
                (t.zone z).protection = (s.zone z).protection)) ∧
            t.still = { s.answered (s.reply src 0x9C req status [BitVec.ofNat 8 (k.val + 1)]) with policy := s.policy.set k new }.still)))

/-- R144, R146, R150, R162: CONFIG_WRITE of its four groups; the timing group comes in its second part. A write that disables flow control
while the part is HELD releases the console. -/
def Obligations.ConfigWrites : Prop :=
  ∀ (src : Node) (req : Byte) (w : TableWrite) (s : State), s.commandReady (.configWrite src req w) src → w.index = 0 →
    (∀ p d, w.group = 0 → w.second = true → s.staged = some p → p.src = src → p.table = 8 → p.group = 0 → p.index = 0 →
      p.data.length = 10 → d = (fun i => (word16 (p.data ++ w.data) (2 * i)).toNat) →
      exec (.configWrite src req w) s = .next {
        s.answered (s.reply src 0xA0 req (if 10 ≤ d 0 ∧ d 0 ≤ 2000 ∧ 20 ≤ d 1 ∧ d 1 ≤ 1000 ∧ 50 ≤ d 2 ∧ d 2 ≤ 2000 ∧ d 3 ≤ 2000 ∧
          1 ≤ d 4 ∧ d 4 ≤ 600 ∧ 1 ≤ d 5 ∧ d 5 ≤ 600 then .ok else .clamped) [0]) with
        staged := none
        config := { s.config with
          debounce := max 10 (min 2000 (d 0)), lost := max 20 (min 1000 (d 1)), wakeTimeout := max 50 (min 2000 (d 2))
          tailTime := min 2000 (d 3), liveMax := max 1 (min 600 (d 4)), pendingMax := max 1 (min 600 (d 5)) } }) ∧
    (w.group = 1 → w.second = false →
      (127 ≤ (byteAt w.data 0).toNat → exec (.configWrite src req w) s = .next (s.answered (s.reply src 0xA1 req .badValue []))) ∧
      (∀ n : Node, n.toNat = (byteAt w.data 0).toNat → n ≠ 127 →
        exec (.configWrite src req w) s = .next { s.answered (s.reply src 0xA1 req .ok [0]) with
          config := { s.config with eventNode := n } })) ∧
    (w.group = 2 → w.second = false →
      ((∃ i, i < 8 ∧ 127 ≤ (byteAt w.data i).toNat) →
        exec (.configWrite src req w) s = .next (s.answered (s.reply src 0xA2 req .badValue []))) ∧
      (∀ mans cues : Vector Node 4, (∀ i : Fin 4, mans[i].toNat = (byteAt w.data i.val).toNat ∧ mans[i] ≠ 127 ∧
          cues[i].toNat = (byteAt w.data (4 + i.val)).toNat ∧ cues[i] ≠ 127) →
        exec (.configWrite src req w) s = .next { s.answered (s.reply src 0xA2 req .ok [0]) with
          config := { s.config with managers := mans, cueSources := cues } })) ∧
    (w.group = 3 → w.second = false → ∀ hold resume, hold = max 1 (min 16 (byteAt w.data 1).toNat) →
      resume = min 15 (byteAt w.data 2).toNat →
      (1 < (byteAt w.data 0).toNat ∨ hold ≤ resume →
        exec (.configWrite src req w) s = .next (s.answered (s.reply src 0xA3 req .badValue []))) ∧
      (∀ on release, flagOf (byteAt w.data 0) = some on → resume < hold →
        release = (on = false ∧ (leaveCommand s).hold = .held) → ∀ _ : Decidable release,
        exec (.configWrite src req w) s = .next {
          s.answered (s.reply src 0xA3 req (if hold = (byteAt w.data 1).toNat ∧ resume = (byteAt w.data 2).toNat then .ok else .clamped)
            [0]) with
          config := { s.config with flowEnabled := on, holdLevel := hold, resumeLevel := resume }
          hold := if release then .running else (leaveCommand s).hold
          holdFlag := if release then some .resume else (leaveCommand s).holdFlag }))

/-! ## Cues (section 5.3) -/

/-- R84, R85, R86: CALL_START. The checks in their order; an accepted cue takes the FREE record with the lowest index. That its tail
remaining and live elapsed are then 0 is the model's choice (log 50). -/
def Obligations.CallStartAcceptsACall : Prop :=
  ∀ (src : Node) (req tag : Byte) (priority : BitVec 3) (retain : Bool) (target : ZoneSet) (source : CallSource) (s : State) (i : Instr)
    (refused : Status → Prop), i = .callStart src req tag priority retain target source → s.cueReady i src →
    (refused = fun st => exec i s = .next (s.answeredCue (s.reply src 0x20 req st []))) →
    (s.service = .configuration → refused .wrongState) ∧
    (s.service = .service →
      ((∃ c n, (s.call c).state ≠ .free ∧ (s.call c).origin = .external n ∧ (s.call c).tag = tag) → refused .duplicate) ∧
      ((∀ c n, (s.call c).state ≠ .free → (s.call c).origin = .external n → (s.call c).tag ≠ tag) →
        ((∀ c, (s.call c).state ≠ .free) → refused .full) ∧
        (∀ c, (s.call c).state = .free → (∀ d, d < c → (s.call d).state ≠ .free) →
          (target = 0 ∨ 2 ≤ source.code.toNat ∨
              source.code = 0 ∧ (source.idCount.toNat = 0 ∨ 4 < source.idCount.toNat ∨
                ∃ k, k < source.idCount.toNat ∧ s.validId (byteAt source.args k) = none) ∨
              source.code = 1 ∧ (64 ≤ (byteAt source.args 0).toNat ∨
                byteAt source.args 1 ≠ 0xFF ∧ s.validId (byteAt source.args 1) = none) →
            refused .badValue) ∧
          (∀ (from_ : Source) (clamped : Bool), target ≠ 0 →
            (source.code = 0 ∧ 1 ≤ source.idCount.toNat ∧ source.idCount.toNat ≤ 4 ∧
              (∃ ids : List MessageId, ids.length = source.idCount.toNat ∧
                (∀ (k : Nat) (id : MessageId), ids[k]? = some id → id.val = (byteAt source.args k).toNat ∧ s.validMessage id = true) ∧
                from_ = .stored ids (max 1 (min 4 source.repeatCount.toNat))) ∧
              (clamped = true ↔ source.repeatCount.toNat = 0 ∨ 4 < source.repeatCount.toNat)) ∨
            (source.code = 1 ∧ clamped = false ∧ ∃ slot : Fin 64, slot.val = (byteAt source.args 0).toNat ∧
              (byteAt source.args 1 = 0xFF ∧ from_ = .live slot none ∨
                ∃ id : MessageId, id.val = (byteAt source.args 1).toNat ∧ s.validMessage id = true ∧ from_ = .live slot (some id))) →
            exec i s = .next {
              s.answeredCue (s.reply src 0x20 req (if clamped then .clamped else .ok) [BitVec.ofNat 8 c.val]) with
              calls := s.calls.set c { state := .pending, origin := .external src, tag := tag, priority := priority.toNat,
                                       target := target, source := from_, retain := retain, requeue := 0,
                                       arrival := s.arrivalCounter, pendingSince := s.now, delivered := 0, missed := 0,
                                       plays := 0, position := 0, offset := 0, player := none, outcome := none }
              arrivalCounter := s.arrivalCounter + 1 }))))

/-- R88, R89, Table 5-4: CALL_CANCEL and CALL_END. In CONFIGURATION they are WRONG_STATE and for a tag that no non-FREE EXTERNAL call holds
UNKNOWN. A CALL_END of a STORED call is BAD_VALUE; in PLAYING it takes a LIVE call to TAIL with no outcome fixed anew (one that stands on
the record stays, log 24). Otherwise both act by the call's state: a PENDING call completes CANCELLED, a WAKING or PLAYING call enters TAIL
CANCELLED, a call in TAIL is TOO_LATE. With a tail time of 0 a call that enters TAIL completes at once (R97), and its zones are released
(R39 to R41). -/
def Obligations.CallCancelAndCallEnd : Prop :=
  ∀ (src : Node) (req tag : Byte) (s : State) (i : Instr) (code : Byte), s.cueReady i src →
    (i = .callCancel src req tag ∧ code = 0x22) ∨ (i = .callEnd src req tag ∧ code = 0x21) →
    (s.service = .configuration → exec i s = .next (s.answeredCue (s.reply src code req .wrongState []))) ∧
    (s.service = .service →
      ((∀ c n, (s.call c).state ≠ .free → (s.call c).origin = .external n → (s.call c).tag ≠ tag) →
        exec i s = .next (s.answeredCue (s.reply src code req .unknown []))) ∧
      (∀ c n, (s.call c).state ≠ .free → (s.call c).origin = .external n → (s.call c).tag = tag →
        (∀ d m, d ≠ c → (s.call d).state ≠ .free → (s.call d).origin = .external m → (s.call d).tag ≠ tag) →
        (i = .callEnd src req tag → (s.call c).source.isStored = true →
          exec i s = .next (s.answeredCue (s.reply src code req .badValue []))) ∧
        (i = .callCancel src req tag ∨ (s.call c).source.isStored = false →
          ((s.call c).state = .tail → exec i s = .next (s.answeredCue (s.reply src code req .tooLate []))) ∧
          ((s.call c).state = .pending → exec i s = .next { s.answeredCue (s.reply src code req .ok []) with
            calls := s.calls.set c {}
            events := s.eventsWith n (s.completionEvent n tag ((s.call c).outcome.getD .cancelled) 0 (s.call c).target) }) ∧
          (∀ fixed, (((s.call c).state = .waking ∨ (s.call c).state = .playing ∧ i = .callCancel src req tag) ∧ fixed = some .cancelled ∨
              (s.call c).state = .playing ∧ i = .callEnd src req tag ∧ fixed = none) →
            (s.config.tailTime ≠ 0 → exec i s = .next { s.answeredCue (s.reply src code req .ok []) with
              calls := s.calls.set c ((s.call c).inTail s.config.tailTime fixed) }) ∧
            (s.config.tailTime = 0 → ∃ t, exec i s = .next t ∧ t.calls = s.calls.set c {} ∧
              t.events = s.eventsWith n (s.completionEvent n tag ((fixed.or (s.call c).outcome).getD
                (if (s.call c).delivered = 0 then .notDelivered else if (s.call c).missed = 0 then .delivered else .partialDelivery))
                (s.call c).delivered (s.call c).missed) ∧
              (∀ z : ZoneId, t.zone z = (if (s.call c).delivered.getLsbD z.val then (s.zone z).released s.now else s.zone z) ∧
                ((s.call c).delivered.getLsbD z.val = true → t.PowerWorkedOut z)) ∧ s.PowerSent t ∧
              t.still = (s.answeredCue (s.reply src code req .ok [])).still)))))

/-! ## Invariants that every step keeps -/

/-- Whatever is commanded, every step keeps: the canonical form of call memory; no two messages on one page (R78); no two in-use routes of
one slot and bus (R8); distinct addresses of in-use endpoints (R33); one record for a zone and distinct channels (R49, R64, R66); the kind
limits (R26); each AGC gain within its range (R53); every gain within 0 to 65535 (R2); the noise register not 0 (R23). -/
def Obligations.StepKeepsTheTables : Prop :=
  ∀ s t : State, step s = .next t →
    (s.mem.wf = true → t.mem.wf = true) ∧ (s.PagesDistinct → t.PagesDistinct) ∧ (s.RoutesDistinct → t.RoutesDistinct) ∧
    (s.NodesDistinct → t.NodesDistinct) ∧ (s.RecordsBoundOnce → t.RecordsBoundOnce) ∧ (s.KindLimits → t.KindLimits) ∧
    (s.GainsInRange → t.GainsInRange) ∧ (s.GainsInRange → s.GainsBounded → t.GainsBounded) ∧ (s.noise ≠ 0 → t.noise ≠ 0)

/-- Whatever is commanded, every step keeps the four bounded queues within their capacities (R141, R145), one waiting directive at most for
each endpoint and code (R142), the hold state RUNNING while flow control is disabled (R146), and ALERT asserted exactly while a record is
LATCHED or RETRY_WAIT (R127). -/
def Obligations.StepKeepsTheQueuesAndAlert : Prop :=
  ∀ s t : State, step s = .next t →
    (s.QueuesFit → t.QueuesFit) ∧ (s.DirectivesDistinct → t.DirectivesDistinct) ∧ (s.HoldNeedsFlow → t.HoldNeedsFlow) ∧
    (s.AlertTrue → t.AlertTrue)

/-- Whatever is commanded, every step keeps the call table sound: players are held exactly by running calls and by one each, no zone is
claimed twice, no tag is carried twice (R84, R101); and every message that a non-FREE call references stays VALID (R82). -/
def Obligations.StepKeepsTheCalls : Prop :=
  ∀ s t : State, step s = .next t → (s.CallsSound → t.CallsSound) ∧ (s.ReferencesValid → t.ReferencesValid)
end

