-- ==== Sys2Proof/Laws/State.lean ====
section
/-! SUPPORT. One lemma for each field and each update of the state, so that no later proof unfolds a record update; and how the tables
read back after an update. -/

namespace Sys2Proof.Machine

variable (s : State)

/-! ### modZone -/

@[simp] theorem modZone_node (z : ZoneId) (f : Zone → Zone) : (modZone z f s).node = s.node := rfl
@[simp] theorem modZone_now (z : ZoneId) (f : Zone → Zone) : (modZone z f s).now = s.now := rfl
@[simp] theorem modZone_frameCounter (z : ZoneId) (f : Zone → Zone) : (modZone z f s).frameCounter = s.frameCounter := rfl
@[simp] theorem modZone_portA (z : ZoneId) (f : Zone → Zone) : (modZone z f s).portA = s.portA := rfl
@[simp] theorem modZone_portB (z : ZoneId) (f : Zone → Zone) : (modZone z f s).portB = s.portB := rfl
@[simp] theorem modZone_replies (z : ZoneId) (f : Zone → Zone) : (modZone z f s).replies = s.replies := rfl
@[simp] theorem modZone_events (z : ZoneId) (f : Zone → Zone) : (modZone z f s).events = s.events := rfl
@[simp] theorem modZone_directives (z : ZoneId) (f : Zone → Zone) : (modZone z f s).directives = s.directives := rfl
@[simp] theorem modZone_holdFlag (z : ZoneId) (f : Zone → Zone) : (modZone z f s).holdFlag = s.holdFlag := rfl
@[simp] theorem modZone_txA (z : ZoneId) (f : Zone → Zone) : (modZone z f s).txA = s.txA := rfl
@[simp] theorem modZone_txB (z : ZoneId) (f : Zone → Zone) : (modZone z f s).txB = s.txB := rfl
@[simp] theorem modZone_cmdQueue (z : ZoneId) (f : Zone → Zone) : (modZone z f s).cmdQueue = s.cmdQueue := rfl
@[simp] theorem modZone_cueQueue (z : ZoneId) (f : Zone → Zone) : (modZone z f s).cueQueue = s.cueQueue := rfl
@[simp] theorem modZone_overrun (z : ZoneId) (f : Zone → Zone) : (modZone z f s).overrun = s.overrun := rfl
@[simp] theorem modZone_service (z : ZoneId) (f : Zone → Zone) : (modZone z f s).service = s.service := rfl
@[simp] theorem modZone_hold (z : ZoneId) (f : Zone → Zone) : (modZone z f s).hold = s.hold := rfl
@[simp] theorem modZone_softResetFlag (z : ZoneId) (f : Zone → Zone) : (modZone z f s).softResetFlag = s.softResetFlag := rfl
@[simp] theorem modZone_staged (z : ZoneId) (f : Zone → Zone) : (modZone z f s).staged = s.staged := rfl
@[simp] theorem modZone_config (z : ZoneId) (f : Zone → Zone) : (modZone z f s).config = s.config := rfl
@[simp] theorem modZone_routes (z : ZoneId) (f : Zone → Zone) : (modZone z f s).routes = s.routes := rfl
@[simp] theorem modZone_slotMap (z : ZoneId) (f : Zone → Zone) : (modZone z f s).slotMap = s.slotMap := rfl
@[simp] theorem modZone_ingressPeaks (z : ZoneId) (f : Zone → Zone) : (modZone z f s).ingressPeaks = s.ingressPeaks := rfl
@[simp] theorem modZone_busPeaks (z : ZoneId) (f : Zone → Zone) : (modZone z f s).busPeaks = s.busPeaks := rfl
@[simp] theorem modZone_busClips (z : ZoneId) (f : Zone → Zone) : (modZone z f s).busClips = s.busClips := rfl
@[simp] theorem modZone_noise (z : ZoneId) (f : Zone → Zone) : (modZone z f s).noise = s.noise := rfl
@[simp] theorem modZone_zones (z : ZoneId) (f : Zone → Zone) : (modZone z f s).zones = s.zones.set z (f s.zones[z]) := rfl
@[simp] theorem modZone_endpoints (z : ZoneId) (f : Zone → Zone) : (modZone z f s).endpoints = s.endpoints := rfl
@[simp] theorem modZone_loops (z : ZoneId) (f : Zone → Zone) : (modZone z f s).loops = s.loops := rfl
@[simp] theorem modZone_descs (z : ZoneId) (f : Zone → Zone) : (modZone z f s).descs = s.descs := rfl
@[simp] theorem modZone_mem (z : ZoneId) (f : Zone → Zone) : (modZone z f s).mem = s.mem := rfl
@[simp] theorem modZone_messages (z : ZoneId) (f : Zone → Zone) : (modZone z f s).messages = s.messages := rfl
@[simp] theorem modZone_calls (z : ZoneId) (f : Zone → Zone) : (modZone z f s).calls = s.calls := rfl
@[simp] theorem modZone_arrivalCounter (z : ZoneId) (f : Zone → Zone) : (modZone z f s).arrivalCounter = s.arrivalCounter := rfl
@[simp] theorem modZone_startCounter (z : ZoneId) (f : Zone → Zone) : (modZone z f s).startCounter = s.startCounter := rfl
@[simp] theorem modZone_gates (z : ZoneId) (f : Zone → Zone) : (modZone z f s).gates = s.gates := rfl
@[simp] theorem modZone_policy (z : ZoneId) (f : Zone → Zone) : (modZone z f s).policy = s.policy := rfl
@[simp] theorem modZone_faults (z : ZoneId) (f : Zone → Zone) : (modZone z f s).faults = s.faults := rfl
@[simp] theorem modZone_alert (z : ZoneId) (f : Zone → Zone) : (modZone z f s).alert = s.alert := rfl
@[simp] theorem modZone_pending (z : ZoneId) (f : Zone → Zone) : (modZone z f s).pending = s.pending := rfl

/-! ### modEndpoint -/

@[simp] theorem modEndpoint_node (e : EndpointId) (f : Endpoint → Endpoint) : (modEndpoint e f s).node = s.node := rfl
@[simp] theorem modEndpoint_now (e : EndpointId) (f : Endpoint → Endpoint) : (modEndpoint e f s).now = s.now := rfl
@[simp] theorem modEndpoint_frameCounter (e : EndpointId) (f : Endpoint → Endpoint) : (modEndpoint e f s).frameCounter = s.frameCounter := rfl
@[simp] theorem modEndpoint_portA (e : EndpointId) (f : Endpoint → Endpoint) : (modEndpoint e f s).portA = s.portA := rfl
@[simp] theorem modEndpoint_portB (e : EndpointId) (f : Endpoint → Endpoint) : (modEndpoint e f s).portB = s.portB := rfl
@[simp] theorem modEndpoint_replies (e : EndpointId) (f : Endpoint → Endpoint) : (modEndpoint e f s).replies = s.replies := rfl
@[simp] theorem modEndpoint_events (e : EndpointId) (f : Endpoint → Endpoint) : (modEndpoint e f s).events = s.events := rfl
@[simp] theorem modEndpoint_directives (e : EndpointId) (f : Endpoint → Endpoint) : (modEndpoint e f s).directives = s.directives := rfl
@[simp] theorem modEndpoint_holdFlag (e : EndpointId) (f : Endpoint → Endpoint) : (modEndpoint e f s).holdFlag = s.holdFlag := rfl
@[simp] theorem modEndpoint_txA (e : EndpointId) (f : Endpoint → Endpoint) : (modEndpoint e f s).txA = s.txA := rfl
@[simp] theorem modEndpoint_txB (e : EndpointId) (f : Endpoint → Endpoint) : (modEndpoint e f s).txB = s.txB := rfl
@[simp] theorem modEndpoint_cmdQueue (e : EndpointId) (f : Endpoint → Endpoint) : (modEndpoint e f s).cmdQueue = s.cmdQueue := rfl
@[simp] theorem modEndpoint_cueQueue (e : EndpointId) (f : Endpoint → Endpoint) : (modEndpoint e f s).cueQueue = s.cueQueue := rfl
@[simp] theorem modEndpoint_overrun (e : EndpointId) (f : Endpoint → Endpoint) : (modEndpoint e f s).overrun = s.overrun := rfl
@[simp] theorem modEndpoint_service (e : EndpointId) (f : Endpoint → Endpoint) : (modEndpoint e f s).service = s.service := rfl
@[simp] theorem modEndpoint_hold (e : EndpointId) (f : Endpoint → Endpoint) : (modEndpoint e f s).hold = s.hold := rfl
@[simp] theorem modEndpoint_softResetFlag (e : EndpointId) (f : Endpoint → Endpoint) : (modEndpoint e f s).softResetFlag = s.softResetFlag := rfl
@[simp] theorem modEndpoint_staged (e : EndpointId) (f : Endpoint → Endpoint) : (modEndpoint e f s).staged = s.staged := rfl
@[simp] theorem modEndpoint_config (e : EndpointId) (f : Endpoint → Endpoint) : (modEndpoint e f s).config = s.config := rfl
@[simp] theorem modEndpoint_routes (e : EndpointId) (f : Endpoint → Endpoint) : (modEndpoint e f s).routes = s.routes := rfl
@[simp] theorem modEndpoint_slotMap (e : EndpointId) (f : Endpoint → Endpoint) : (modEndpoint e f s).slotMap = s.slotMap := rfl
@[simp] theorem modEndpoint_ingressPeaks (e : EndpointId) (f : Endpoint → Endpoint) : (modEndpoint e f s).ingressPeaks = s.ingressPeaks := rfl
@[simp] theorem modEndpoint_busPeaks (e : EndpointId) (f : Endpoint → Endpoint) : (modEndpoint e f s).busPeaks = s.busPeaks := rfl
@[simp] theorem modEndpoint_busClips (e : EndpointId) (f : Endpoint → Endpoint) : (modEndpoint e f s).busClips = s.busClips := rfl
@[simp] theorem modEndpoint_noise (e : EndpointId) (f : Endpoint → Endpoint) : (modEndpoint e f s).noise = s.noise := rfl
@[simp] theorem modEndpoint_zones (e : EndpointId) (f : Endpoint → Endpoint) : (modEndpoint e f s).zones = s.zones := rfl
@[simp] theorem modEndpoint_endpoints (e : EndpointId) (f : Endpoint → Endpoint) : (modEndpoint e f s).endpoints = s.endpoints.set e (f s.endpoints[e]) := rfl
@[simp] theorem modEndpoint_loops (e : EndpointId) (f : Endpoint → Endpoint) : (modEndpoint e f s).loops = s.loops := rfl
@[simp] theorem modEndpoint_descs (e : EndpointId) (f : Endpoint → Endpoint) : (modEndpoint e f s).descs = s.descs := rfl
@[simp] theorem modEndpoint_mem (e : EndpointId) (f : Endpoint → Endpoint) : (modEndpoint e f s).mem = s.mem := rfl
@[simp] theorem modEndpoint_messages (e : EndpointId) (f : Endpoint → Endpoint) : (modEndpoint e f s).messages = s.messages := rfl
@[simp] theorem modEndpoint_calls (e : EndpointId) (f : Endpoint → Endpoint) : (modEndpoint e f s).calls = s.calls := rfl
@[simp] theorem modEndpoint_arrivalCounter (e : EndpointId) (f : Endpoint → Endpoint) : (modEndpoint e f s).arrivalCounter = s.arrivalCounter := rfl
@[simp] theorem modEndpoint_startCounter (e : EndpointId) (f : Endpoint → Endpoint) : (modEndpoint e f s).startCounter = s.startCounter := rfl
@[simp] theorem modEndpoint_gates (e : EndpointId) (f : Endpoint → Endpoint) : (modEndpoint e f s).gates = s.gates := rfl
@[simp] theorem modEndpoint_policy (e : EndpointId) (f : Endpoint → Endpoint) : (modEndpoint e f s).policy = s.policy := rfl
@[simp] theorem modEndpoint_faults (e : EndpointId) (f : Endpoint → Endpoint) : (modEndpoint e f s).faults = s.faults := rfl
@[simp] theorem modEndpoint_alert (e : EndpointId) (f : Endpoint → Endpoint) : (modEndpoint e f s).alert = s.alert := rfl
@[simp] theorem modEndpoint_pending (e : EndpointId) (f : Endpoint → Endpoint) : (modEndpoint e f s).pending = s.pending := rfl

/-! ### modCall -/

@[simp] theorem modCall_node (c : CallId) (f : Call → Call) : (modCall c f s).node = s.node := rfl
@[simp] theorem modCall_now (c : CallId) (f : Call → Call) : (modCall c f s).now = s.now := rfl
@[simp] theorem modCall_frameCounter (c : CallId) (f : Call → Call) : (modCall c f s).frameCounter = s.frameCounter := rfl
@[simp] theorem modCall_portA (c : CallId) (f : Call → Call) : (modCall c f s).portA = s.portA := rfl
@[simp] theorem modCall_portB (c : CallId) (f : Call → Call) : (modCall c f s).portB = s.portB := rfl
@[simp] theorem modCall_replies (c : CallId) (f : Call → Call) : (modCall c f s).replies = s.replies := rfl
@[simp] theorem modCall_events (c : CallId) (f : Call → Call) : (modCall c f s).events = s.events := rfl
@[simp] theorem modCall_directives (c : CallId) (f : Call → Call) : (modCall c f s).directives = s.directives := rfl
@[simp] theorem modCall_holdFlag (c : CallId) (f : Call → Call) : (modCall c f s).holdFlag = s.holdFlag := rfl
@[simp] theorem modCall_txA (c : CallId) (f : Call → Call) : (modCall c f s).txA = s.txA := rfl
@[simp] theorem modCall_txB (c : CallId) (f : Call → Call) : (modCall c f s).txB = s.txB := rfl
@[simp] theorem modCall_cmdQueue (c : CallId) (f : Call → Call) : (modCall c f s).cmdQueue = s.cmdQueue := rfl
@[simp] theorem modCall_cueQueue (c : CallId) (f : Call → Call) : (modCall c f s).cueQueue = s.cueQueue := rfl
@[simp] theorem modCall_overrun (c : CallId) (f : Call → Call) : (modCall c f s).overrun = s.overrun := rfl
@[simp] theorem modCall_service (c : CallId) (f : Call → Call) : (modCall c f s).service = s.service := rfl
@[simp] theorem modCall_hold (c : CallId) (f : Call → Call) : (modCall c f s).hold = s.hold := rfl
@[simp] theorem modCall_softResetFlag (c : CallId) (f : Call → Call) : (modCall c f s).softResetFlag = s.softResetFlag := rfl
@[simp] theorem modCall_staged (c : CallId) (f : Call → Call) : (modCall c f s).staged = s.staged := rfl
@[simp] theorem modCall_config (c : CallId) (f : Call → Call) : (modCall c f s).config = s.config := rfl
@[simp] theorem modCall_routes (c : CallId) (f : Call → Call) : (modCall c f s).routes = s.routes := rfl
@[simp] theorem modCall_slotMap (c : CallId) (f : Call → Call) : (modCall c f s).slotMap = s.slotMap := rfl
@[simp] theorem modCall_ingressPeaks (c : CallId) (f : Call → Call) : (modCall c f s).ingressPeaks = s.ingressPeaks := rfl
@[simp] theorem modCall_busPeaks (c : CallId) (f : Call → Call) : (modCall c f s).busPeaks = s.busPeaks := rfl
@[simp] theorem modCall_busClips (c : CallId) (f : Call → Call) : (modCall c f s).busClips = s.busClips := rfl
@[simp] theorem modCall_noise (c : CallId) (f : Call → Call) : (modCall c f s).noise = s.noise := rfl
@[simp] theorem modCall_zones (c : CallId) (f : Call → Call) : (modCall c f s).zones = s.zones := rfl
@[simp] theorem modCall_endpoints (c : CallId) (f : Call → Call) : (modCall c f s).endpoints = s.endpoints := rfl
@[simp] theorem modCall_loops (c : CallId) (f : Call → Call) : (modCall c f s).loops = s.loops := rfl
@[simp] theorem modCall_descs (c : CallId) (f : Call → Call) : (modCall c f s).descs = s.descs := rfl
@[simp] theorem modCall_mem (c : CallId) (f : Call → Call) : (modCall c f s).mem = s.mem := rfl
@[simp] theorem modCall_messages (c : CallId) (f : Call → Call) : (modCall c f s).messages = s.messages := rfl
@[simp] theorem modCall_calls (c : CallId) (f : Call → Call) : (modCall c f s).calls = s.calls.set c (f s.calls[c]) := rfl
@[simp] theorem modCall_arrivalCounter (c : CallId) (f : Call → Call) : (modCall c f s).arrivalCounter = s.arrivalCounter := rfl
@[simp] theorem modCall_startCounter (c : CallId) (f : Call → Call) : (modCall c f s).startCounter = s.startCounter := rfl
@[simp] theorem modCall_gates (c : CallId) (f : Call → Call) : (modCall c f s).gates = s.gates := rfl
@[simp] theorem modCall_policy (c : CallId) (f : Call → Call) : (modCall c f s).policy = s.policy := rfl
@[simp] theorem modCall_faults (c : CallId) (f : Call → Call) : (modCall c f s).faults = s.faults := rfl
@[simp] theorem modCall_alert (c : CallId) (f : Call → Call) : (modCall c f s).alert = s.alert := rfl
@[simp] theorem modCall_pending (c : CallId) (f : Call → Call) : (modCall c f s).pending = s.pending := rfl

/-! ### modGate -/

@[simp] theorem modGate_node (g : GateId) (f : Gate → Gate) : (modGate g f s).node = s.node := rfl
@[simp] theorem modGate_now (g : GateId) (f : Gate → Gate) : (modGate g f s).now = s.now := rfl
@[simp] theorem modGate_frameCounter (g : GateId) (f : Gate → Gate) : (modGate g f s).frameCounter = s.frameCounter := rfl
@[simp] theorem modGate_portA (g : GateId) (f : Gate → Gate) : (modGate g f s).portA = s.portA := rfl
@[simp] theorem modGate_portB (g : GateId) (f : Gate → Gate) : (modGate g f s).portB = s.portB := rfl
@[simp] theorem modGate_replies (g : GateId) (f : Gate → Gate) : (modGate g f s).replies = s.replies := rfl
@[simp] theorem modGate_events (g : GateId) (f : Gate → Gate) : (modGate g f s).events = s.events := rfl
@[simp] theorem modGate_directives (g : GateId) (f : Gate → Gate) : (modGate g f s).directives = s.directives := rfl
@[simp] theorem modGate_holdFlag (g : GateId) (f : Gate → Gate) : (modGate g f s).holdFlag = s.holdFlag := rfl
@[simp] theorem modGate_txA (g : GateId) (f : Gate → Gate) : (modGate g f s).txA = s.txA := rfl
@[simp] theorem modGate_txB (g : GateId) (f : Gate → Gate) : (modGate g f s).txB = s.txB := rfl
@[simp] theorem modGate_cmdQueue (g : GateId) (f : Gate → Gate) : (modGate g f s).cmdQueue = s.cmdQueue := rfl
@[simp] theorem modGate_cueQueue (g : GateId) (f : Gate → Gate) : (modGate g f s).cueQueue = s.cueQueue := rfl
@[simp] theorem modGate_overrun (g : GateId) (f : Gate → Gate) : (modGate g f s).overrun = s.overrun := rfl
@[simp] theorem modGate_service (g : GateId) (f : Gate → Gate) : (modGate g f s).service = s.service := rfl
@[simp] theorem modGate_hold (g : GateId) (f : Gate → Gate) : (modGate g f s).hold = s.hold := rfl
@[simp] theorem modGate_softResetFlag (g : GateId) (f : Gate → Gate) : (modGate g f s).softResetFlag = s.softResetFlag := rfl
@[simp] theorem modGate_staged (g : GateId) (f : Gate → Gate) : (modGate g f s).staged = s.staged := rfl
@[simp] theorem modGate_config (g : GateId) (f : Gate → Gate) : (modGate g f s).config = s.config := rfl
@[simp] theorem modGate_routes (g : GateId) (f : Gate → Gate) : (modGate g f s).routes = s.routes := rfl
@[simp] theorem modGate_slotMap (g : GateId) (f : Gate → Gate) : (modGate g f s).slotMap = s.slotMap := rfl
@[simp] theorem modGate_ingressPeaks (g : GateId) (f : Gate → Gate) : (modGate g f s).ingressPeaks = s.ingressPeaks := rfl
@[simp] theorem modGate_busPeaks (g : GateId) (f : Gate → Gate) : (modGate g f s).busPeaks = s.busPeaks := rfl
@[simp] theorem modGate_busClips (g : GateId) (f : Gate → Gate) : (modGate g f s).busClips = s.busClips := rfl
@[simp] theorem modGate_noise (g : GateId) (f : Gate → Gate) : (modGate g f s).noise = s.noise := rfl
@[simp] theorem modGate_zones (g : GateId) (f : Gate → Gate) : (modGate g f s).zones = s.zones := rfl
@[simp] theorem modGate_endpoints (g : GateId) (f : Gate → Gate) : (modGate g f s).endpoints = s.endpoints := rfl
@[simp] theorem modGate_loops (g : GateId) (f : Gate → Gate) : (modGate g f s).loops = s.loops := rfl
@[simp] theorem modGate_descs (g : GateId) (f : Gate → Gate) : (modGate g f s).descs = s.descs := rfl
@[simp] theorem modGate_mem (g : GateId) (f : Gate → Gate) : (modGate g f s).mem = s.mem := rfl
@[simp] theorem modGate_messages (g : GateId) (f : Gate → Gate) : (modGate g f s).messages = s.messages := rfl
@[simp] theorem modGate_calls (g : GateId) (f : Gate → Gate) : (modGate g f s).calls = s.calls := rfl
@[simp] theorem modGate_arrivalCounter (g : GateId) (f : Gate → Gate) : (modGate g f s).arrivalCounter = s.arrivalCounter := rfl
@[simp] theorem modGate_startCounter (g : GateId) (f : Gate → Gate) : (modGate g f s).startCounter = s.startCounter := rfl
@[simp] theorem modGate_gates (g : GateId) (f : Gate → Gate) : (modGate g f s).gates = s.gates.set g (f s.gates[g]) := rfl
@[simp] theorem modGate_policy (g : GateId) (f : Gate → Gate) : (modGate g f s).policy = s.policy := rfl
@[simp] theorem modGate_faults (g : GateId) (f : Gate → Gate) : (modGate g f s).faults = s.faults := rfl
@[simp] theorem modGate_alert (g : GateId) (f : Gate → Gate) : (modGate g f s).alert = s.alert := rfl
@[simp] theorem modGate_pending (g : GateId) (f : Gate → Gate) : (modGate g f s).pending = s.pending := rfl

/-! ### modLoop -/

@[simp] theorem modLoop_node (l : ParamId) (f : LoopRecord → LoopRecord) : (modLoop l f s).node = s.node := rfl
@[simp] theorem modLoop_now (l : ParamId) (f : LoopRecord → LoopRecord) : (modLoop l f s).now = s.now := rfl
@[simp] theorem modLoop_frameCounter (l : ParamId) (f : LoopRecord → LoopRecord) : (modLoop l f s).frameCounter = s.frameCounter := rfl
@[simp] theorem modLoop_portA (l : ParamId) (f : LoopRecord → LoopRecord) : (modLoop l f s).portA = s.portA := rfl
@[simp] theorem modLoop_portB (l : ParamId) (f : LoopRecord → LoopRecord) : (modLoop l f s).portB = s.portB := rfl
@[simp] theorem modLoop_replies (l : ParamId) (f : LoopRecord → LoopRecord) : (modLoop l f s).replies = s.replies := rfl
@[simp] theorem modLoop_events (l : ParamId) (f : LoopRecord → LoopRecord) : (modLoop l f s).events = s.events := rfl
@[simp] theorem modLoop_directives (l : ParamId) (f : LoopRecord → LoopRecord) : (modLoop l f s).directives = s.directives := rfl
@[simp] theorem modLoop_holdFlag (l : ParamId) (f : LoopRecord → LoopRecord) : (modLoop l f s).holdFlag = s.holdFlag := rfl
@[simp] theorem modLoop_txA (l : ParamId) (f : LoopRecord → LoopRecord) : (modLoop l f s).txA = s.txA := rfl
@[simp] theorem modLoop_txB (l : ParamId) (f : LoopRecord → LoopRecord) : (modLoop l f s).txB = s.txB := rfl
@[simp] theorem modLoop_cmdQueue (l : ParamId) (f : LoopRecord → LoopRecord) : (modLoop l f s).cmdQueue = s.cmdQueue := rfl
@[simp] theorem modLoop_cueQueue (l : ParamId) (f : LoopRecord → LoopRecord) : (modLoop l f s).cueQueue = s.cueQueue := rfl
@[simp] theorem modLoop_overrun (l : ParamId) (f : LoopRecord → LoopRecord) : (modLoop l f s).overrun = s.overrun := rfl
@[simp] theorem modLoop_service (l : ParamId) (f : LoopRecord → LoopRecord) : (modLoop l f s).service = s.service := rfl
@[simp] theorem modLoop_hold (l : ParamId) (f : LoopRecord → LoopRecord) : (modLoop l f s).hold = s.hold := rfl
@[simp] theorem modLoop_softResetFlag (l : ParamId) (f : LoopRecord → LoopRecord) : (modLoop l f s).softResetFlag = s.softResetFlag := rfl
@[simp] theorem modLoop_staged (l : ParamId) (f : LoopRecord → LoopRecord) : (modLoop l f s).staged = s.staged := rfl
@[simp] theorem modLoop_config (l : ParamId) (f : LoopRecord → LoopRecord) : (modLoop l f s).config = s.config := rfl
@[simp] theorem modLoop_routes (l : ParamId) (f : LoopRecord → LoopRecord) : (modLoop l f s).routes = s.routes := rfl
@[simp] theorem modLoop_slotMap (l : ParamId) (f : LoopRecord → LoopRecord) : (modLoop l f s).slotMap = s.slotMap := rfl
@[simp] theorem modLoop_ingressPeaks (l : ParamId) (f : LoopRecord → LoopRecord) : (modLoop l f s).ingressPeaks = s.ingressPeaks := rfl
@[simp] theorem modLoop_busPeaks (l : ParamId) (f : LoopRecord → LoopRecord) : (modLoop l f s).busPeaks = s.busPeaks := rfl
@[simp] theorem modLoop_busClips (l : ParamId) (f : LoopRecord → LoopRecord) : (modLoop l f s).busClips = s.busClips := rfl
@[simp] theorem modLoop_noise (l : ParamId) (f : LoopRecord → LoopRecord) : (modLoop l f s).noise = s.noise := rfl
@[simp] theorem modLoop_zones (l : ParamId) (f : LoopRecord → LoopRecord) : (modLoop l f s).zones = s.zones := rfl
@[simp] theorem modLoop_endpoints (l : ParamId) (f : LoopRecord → LoopRecord) : (modLoop l f s).endpoints = s.endpoints := rfl
@[simp] theorem modLoop_loops (l : ParamId) (f : LoopRecord → LoopRecord) : (modLoop l f s).loops = s.loops.set l (f s.loops[l]) := rfl
@[simp] theorem modLoop_descs (l : ParamId) (f : LoopRecord → LoopRecord) : (modLoop l f s).descs = s.descs := rfl
@[simp] theorem modLoop_mem (l : ParamId) (f : LoopRecord → LoopRecord) : (modLoop l f s).mem = s.mem := rfl
@[simp] theorem modLoop_messages (l : ParamId) (f : LoopRecord → LoopRecord) : (modLoop l f s).messages = s.messages := rfl
@[simp] theorem modLoop_calls (l : ParamId) (f : LoopRecord → LoopRecord) : (modLoop l f s).calls = s.calls := rfl
@[simp] theorem modLoop_arrivalCounter (l : ParamId) (f : LoopRecord → LoopRecord) : (modLoop l f s).arrivalCounter = s.arrivalCounter := rfl
@[simp] theorem modLoop_startCounter (l : ParamId) (f : LoopRecord → LoopRecord) : (modLoop l f s).startCounter = s.startCounter := rfl
@[simp] theorem modLoop_gates (l : ParamId) (f : LoopRecord → LoopRecord) : (modLoop l f s).gates = s.gates := rfl
@[simp] theorem modLoop_policy (l : ParamId) (f : LoopRecord → LoopRecord) : (modLoop l f s).policy = s.policy := rfl
@[simp] theorem modLoop_faults (l : ParamId) (f : LoopRecord → LoopRecord) : (modLoop l f s).faults = s.faults := rfl
@[simp] theorem modLoop_alert (l : ParamId) (f : LoopRecord → LoopRecord) : (modLoop l f s).alert = s.alert := rfl
@[simp] theorem modLoop_pending (l : ParamId) (f : LoopRecord → LoopRecord) : (modLoop l f s).pending = s.pending := rfl

/-! ### modDesc -/

@[simp] theorem modDesc_node (d : ParamId) (f : DescRecord → DescRecord) : (modDesc d f s).node = s.node := rfl
@[simp] theorem modDesc_now (d : ParamId) (f : DescRecord → DescRecord) : (modDesc d f s).now = s.now := rfl
@[simp] theorem modDesc_frameCounter (d : ParamId) (f : DescRecord → DescRecord) : (modDesc d f s).frameCounter = s.frameCounter := rfl
@[simp] theorem modDesc_portA (d : ParamId) (f : DescRecord → DescRecord) : (modDesc d f s).portA = s.portA := rfl
@[simp] theorem modDesc_portB (d : ParamId) (f : DescRecord → DescRecord) : (modDesc d f s).portB = s.portB := rfl
@[simp] theorem modDesc_replies (d : ParamId) (f : DescRecord → DescRecord) : (modDesc d f s).replies = s.replies := rfl
@[simp] theorem modDesc_events (d : ParamId) (f : DescRecord → DescRecord) : (modDesc d f s).events = s.events := rfl
@[simp] theorem modDesc_directives (d : ParamId) (f : DescRecord → DescRecord) : (modDesc d f s).directives = s.directives := rfl
@[simp] theorem modDesc_holdFlag (d : ParamId) (f : DescRecord → DescRecord) : (modDesc d f s).holdFlag = s.holdFlag := rfl
@[simp] theorem modDesc_txA (d : ParamId) (f : DescRecord → DescRecord) : (modDesc d f s).txA = s.txA := rfl
@[simp] theorem modDesc_txB (d : ParamId) (f : DescRecord → DescRecord) : (modDesc d f s).txB = s.txB := rfl
@[simp] theorem modDesc_cmdQueue (d : ParamId) (f : DescRecord → DescRecord) : (modDesc d f s).cmdQueue = s.cmdQueue := rfl
@[simp] theorem modDesc_cueQueue (d : ParamId) (f : DescRecord → DescRecord) : (modDesc d f s).cueQueue = s.cueQueue := rfl
@[simp] theorem modDesc_overrun (d : ParamId) (f : DescRecord → DescRecord) : (modDesc d f s).overrun = s.overrun := rfl
@[simp] theorem modDesc_service (d : ParamId) (f : DescRecord → DescRecord) : (modDesc d f s).service = s.service := rfl
@[simp] theorem modDesc_hold (d : ParamId) (f : DescRecord → DescRecord) : (modDesc d f s).hold = s.hold := rfl
@[simp] theorem modDesc_softResetFlag (d : ParamId) (f : DescRecord → DescRecord) : (modDesc d f s).softResetFlag = s.softResetFlag := rfl
@[simp] theorem modDesc_staged (d : ParamId) (f : DescRecord → DescRecord) : (modDesc d f s).staged = s.staged := rfl
@[simp] theorem modDesc_config (d : ParamId) (f : DescRecord → DescRecord) : (modDesc d f s).config = s.config := rfl
@[simp] theorem modDesc_routes (d : ParamId) (f : DescRecord → DescRecord) : (modDesc d f s).routes = s.routes := rfl
@[simp] theorem modDesc_slotMap (d : ParamId) (f : DescRecord → DescRecord) : (modDesc d f s).slotMap = s.slotMap := rfl
@[simp] theorem modDesc_ingressPeaks (d : ParamId) (f : DescRecord → DescRecord) : (modDesc d f s).ingressPeaks = s.ingressPeaks := rfl
@[simp] theorem modDesc_busPeaks (d : ParamId) (f : DescRecord → DescRecord) : (modDesc d f s).busPeaks = s.busPeaks := rfl
@[simp] theorem modDesc_busClips (d : ParamId) (f : DescRecord → DescRecord) : (modDesc d f s).busClips = s.busClips := rfl
@[simp] theorem modDesc_noise (d : ParamId) (f : DescRecord → DescRecord) : (modDesc d f s).noise = s.noise := rfl
@[simp] theorem modDesc_zones (d : ParamId) (f : DescRecord → DescRecord) : (modDesc d f s).zones = s.zones := rfl
@[simp] theorem modDesc_endpoints (d : ParamId) (f : DescRecord → DescRecord) : (modDesc d f s).endpoints = s.endpoints := rfl
@[simp] theorem modDesc_loops (d : ParamId) (f : DescRecord → DescRecord) : (modDesc d f s).loops = s.loops := rfl
@[simp] theorem modDesc_descs (d : ParamId) (f : DescRecord → DescRecord) : (modDesc d f s).descs = s.descs.set d (f s.descs[d]) := rfl
@[simp] theorem modDesc_mem (d : ParamId) (f : DescRecord → DescRecord) : (modDesc d f s).mem = s.mem := rfl
@[simp] theorem modDesc_messages (d : ParamId) (f : DescRecord → DescRecord) : (modDesc d f s).messages = s.messages := rfl
@[simp] theorem modDesc_calls (d : ParamId) (f : DescRecord → DescRecord) : (modDesc d f s).calls = s.calls := rfl
@[simp] theorem modDesc_arrivalCounter (d : ParamId) (f : DescRecord → DescRecord) : (modDesc d f s).arrivalCounter = s.arrivalCounter := rfl
@[simp] theorem modDesc_startCounter (d : ParamId) (f : DescRecord → DescRecord) : (modDesc d f s).startCounter = s.startCounter := rfl
@[simp] theorem modDesc_gates (d : ParamId) (f : DescRecord → DescRecord) : (modDesc d f s).gates = s.gates := rfl
@[simp] theorem modDesc_policy (d : ParamId) (f : DescRecord → DescRecord) : (modDesc d f s).policy = s.policy := rfl
@[simp] theorem modDesc_faults (d : ParamId) (f : DescRecord → DescRecord) : (modDesc d f s).faults = s.faults := rfl
@[simp] theorem modDesc_alert (d : ParamId) (f : DescRecord → DescRecord) : (modDesc d f s).alert = s.alert := rfl
@[simp] theorem modDesc_pending (d : ParamId) (f : DescRecord → DescRecord) : (modDesc d f s).pending = s.pending := rfl

/-! ### withFaults -/

@[simp] theorem withFaults_node (t : FaultTable) : (withFaults t s).node = s.node := rfl
@[simp] theorem withFaults_now (t : FaultTable) : (withFaults t s).now = s.now := rfl
@[simp] theorem withFaults_frameCounter (t : FaultTable) : (withFaults t s).frameCounter = s.frameCounter := rfl
@[simp] theorem withFaults_portA (t : FaultTable) : (withFaults t s).portA = s.portA := rfl
@[simp] theorem withFaults_portB (t : FaultTable) : (withFaults t s).portB = s.portB := rfl
@[simp] theorem withFaults_replies (t : FaultTable) : (withFaults t s).replies = s.replies := rfl
@[simp] theorem withFaults_events (t : FaultTable) : (withFaults t s).events = s.events := rfl
@[simp] theorem withFaults_directives (t : FaultTable) : (withFaults t s).directives = s.directives := rfl
@[simp] theorem withFaults_holdFlag (t : FaultTable) : (withFaults t s).holdFlag = s.holdFlag := rfl
@[simp] theorem withFaults_txA (t : FaultTable) : (withFaults t s).txA = s.txA := rfl
@[simp] theorem withFaults_txB (t : FaultTable) : (withFaults t s).txB = s.txB := rfl
@[simp] theorem withFaults_cmdQueue (t : FaultTable) : (withFaults t s).cmdQueue = s.cmdQueue := rfl
@[simp] theorem withFaults_cueQueue (t : FaultTable) : (withFaults t s).cueQueue = s.cueQueue := rfl
@[simp] theorem withFaults_overrun (t : FaultTable) : (withFaults t s).overrun = s.overrun := rfl
@[simp] theorem withFaults_service (t : FaultTable) : (withFaults t s).service = s.service := rfl
@[simp] theorem withFaults_hold (t : FaultTable) : (withFaults t s).hold = s.hold := rfl
@[simp] theorem withFaults_softResetFlag (t : FaultTable) : (withFaults t s).softResetFlag = s.softResetFlag := rfl
@[simp] theorem withFaults_staged (t : FaultTable) : (withFaults t s).staged = s.staged := rfl
@[simp] theorem withFaults_config (t : FaultTable) : (withFaults t s).config = s.config := rfl
@[simp] theorem withFaults_routes (t : FaultTable) : (withFaults t s).routes = s.routes := rfl
@[simp] theorem withFaults_slotMap (t : FaultTable) : (withFaults t s).slotMap = s.slotMap := rfl
@[simp] theorem withFaults_ingressPeaks (t : FaultTable) : (withFaults t s).ingressPeaks = s.ingressPeaks := rfl
@[simp] theorem withFaults_busPeaks (t : FaultTable) : (withFaults t s).busPeaks = s.busPeaks := rfl
@[simp] theorem withFaults_busClips (t : FaultTable) : (withFaults t s).busClips = s.busClips := rfl
@[simp] theorem withFaults_noise (t : FaultTable) : (withFaults t s).noise = s.noise := rfl
@[simp] theorem withFaults_zones (t : FaultTable) : (withFaults t s).zones = s.zones := rfl
@[simp] theorem withFaults_endpoints (t : FaultTable) : (withFaults t s).endpoints = s.endpoints := rfl
@[simp] theorem withFaults_loops (t : FaultTable) : (withFaults t s).loops = s.loops := rfl
@[simp] theorem withFaults_descs (t : FaultTable) : (withFaults t s).descs = s.descs := rfl
@[simp] theorem withFaults_mem (t : FaultTable) : (withFaults t s).mem = s.mem := rfl
@[simp] theorem withFaults_messages (t : FaultTable) : (withFaults t s).messages = s.messages := rfl
@[simp] theorem withFaults_calls (t : FaultTable) : (withFaults t s).calls = s.calls := rfl
@[simp] theorem withFaults_arrivalCounter (t : FaultTable) : (withFaults t s).arrivalCounter = s.arrivalCounter := rfl
@[simp] theorem withFaults_startCounter (t : FaultTable) : (withFaults t s).startCounter = s.startCounter := rfl
@[simp] theorem withFaults_gates (t : FaultTable) : (withFaults t s).gates = s.gates := rfl
@[simp] theorem withFaults_policy (t : FaultTable) : (withFaults t s).policy = s.policy := rfl
@[simp] theorem withFaults_faults (t : FaultTable) : (withFaults t s).faults = t := rfl
@[simp] theorem withFaults_alert (t : FaultTable) : (withFaults t s).alert = t.anyActionable := rfl
@[simp] theorem withFaults_pending (t : FaultTable) : (withFaults t s).pending = s.pending := rfl

/-! ### queueDirective -/

@[simp] theorem queueDirective_node (e : EndpointId) (k : DirectiveCode) (v : Byte) : (queueDirective e k v s).node = s.node := rfl
@[simp] theorem queueDirective_now (e : EndpointId) (k : DirectiveCode) (v : Byte) : (queueDirective e k v s).now = s.now := rfl
@[simp] theorem queueDirective_frameCounter (e : EndpointId) (k : DirectiveCode) (v : Byte) : (queueDirective e k v s).frameCounter = s.frameCounter := rfl
@[simp] theorem queueDirective_portA (e : EndpointId) (k : DirectiveCode) (v : Byte) : (queueDirective e k v s).portA = s.portA := rfl
@[simp] theorem queueDirective_portB (e : EndpointId) (k : DirectiveCode) (v : Byte) : (queueDirective e k v s).portB = s.portB := rfl
@[simp] theorem queueDirective_replies (e : EndpointId) (k : DirectiveCode) (v : Byte) : (queueDirective e k v s).replies = s.replies := rfl
@[simp] theorem queueDirective_events (e : EndpointId) (k : DirectiveCode) (v : Byte) : (queueDirective e k v s).events = s.events := rfl
@[simp] theorem queueDirective_directives (e : EndpointId) (k : DirectiveCode) (v : Byte) : (queueDirective e k v s).directives = joinDirective ⟨e, k, (s.endpoint e).node, v⟩ s.directives := rfl
@[simp] theorem queueDirective_holdFlag (e : EndpointId) (k : DirectiveCode) (v : Byte) : (queueDirective e k v s).holdFlag = s.holdFlag := rfl
@[simp] theorem queueDirective_txA (e : EndpointId) (k : DirectiveCode) (v : Byte) : (queueDirective e k v s).txA = s.txA := rfl
@[simp] theorem queueDirective_txB (e : EndpointId) (k : DirectiveCode) (v : Byte) : (queueDirective e k v s).txB = s.txB := rfl
@[simp] theorem queueDirective_cmdQueue (e : EndpointId) (k : DirectiveCode) (v : Byte) : (queueDirective e k v s).cmdQueue = s.cmdQueue := rfl
@[simp] theorem queueDirective_cueQueue (e : EndpointId) (k : DirectiveCode) (v : Byte) : (queueDirective e k v s).cueQueue = s.cueQueue := rfl
@[simp] theorem queueDirective_overrun (e : EndpointId) (k : DirectiveCode) (v : Byte) : (queueDirective e k v s).overrun = s.overrun := rfl
@[simp] theorem queueDirective_service (e : EndpointId) (k : DirectiveCode) (v : Byte) : (queueDirective e k v s).service = s.service := rfl
@[simp] theorem queueDirective_hold (e : EndpointId) (k : DirectiveCode) (v : Byte) : (queueDirective e k v s).hold = s.hold := rfl
@[simp] theorem queueDirective_softResetFlag (e : EndpointId) (k : DirectiveCode) (v : Byte) : (queueDirective e k v s).softResetFlag = s.softResetFlag := rfl
@[simp] theorem queueDirective_staged (e : EndpointId) (k : DirectiveCode) (v : Byte) : (queueDirective e k v s).staged = s.staged := rfl
@[simp] theorem queueDirective_config (e : EndpointId) (k : DirectiveCode) (v : Byte) : (queueDirective e k v s).config = s.config := rfl
@[simp] theorem queueDirective_routes (e : EndpointId) (k : DirectiveCode) (v : Byte) : (queueDirective e k v s).routes = s.routes := rfl
@[simp] theorem queueDirective_slotMap (e : EndpointId) (k : DirectiveCode) (v : Byte) : (queueDirective e k v s).slotMap = s.slotMap := rfl
@[simp] theorem queueDirective_ingressPeaks (e : EndpointId) (k : DirectiveCode) (v : Byte) : (queueDirective e k v s).ingressPeaks = s.ingressPeaks := rfl
@[simp] theorem queueDirective_busPeaks (e : EndpointId) (k : DirectiveCode) (v : Byte) : (queueDirective e k v s).busPeaks = s.busPeaks := rfl
@[simp] theorem queueDirective_busClips (e : EndpointId) (k : DirectiveCode) (v : Byte) : (queueDirective e k v s).busClips = s.busClips := rfl
@[simp] theorem queueDirective_noise (e : EndpointId) (k : DirectiveCode) (v : Byte) : (queueDirective e k v s).noise = s.noise := rfl
@[simp] theorem queueDirective_zones (e : EndpointId) (k : DirectiveCode) (v : Byte) : (queueDirective e k v s).zones = s.zones := rfl
@[simp] theorem queueDirective_endpoints (e : EndpointId) (k : DirectiveCode) (v : Byte) : (queueDirective e k v s).endpoints = s.endpoints := rfl
@[simp] theorem queueDirective_loops (e : EndpointId) (k : DirectiveCode) (v : Byte) : (queueDirective e k v s).loops = s.loops := rfl
@[simp] theorem queueDirective_descs (e : EndpointId) (k : DirectiveCode) (v : Byte) : (queueDirective e k v s).descs = s.descs := rfl
@[simp] theorem queueDirective_mem (e : EndpointId) (k : DirectiveCode) (v : Byte) : (queueDirective e k v s).mem = s.mem := rfl
@[simp] theorem queueDirective_messages (e : EndpointId) (k : DirectiveCode) (v : Byte) : (queueDirective e k v s).messages = s.messages := rfl
@[simp] theorem queueDirective_calls (e : EndpointId) (k : DirectiveCode) (v : Byte) : (queueDirective e k v s).calls = s.calls := rfl
@[simp] theorem queueDirective_arrivalCounter (e : EndpointId) (k : DirectiveCode) (v : Byte) : (queueDirective e k v s).arrivalCounter = s.arrivalCounter := rfl
@[simp] theorem queueDirective_startCounter (e : EndpointId) (k : DirectiveCode) (v : Byte) : (queueDirective e k v s).startCounter = s.startCounter := rfl
@[simp] theorem queueDirective_gates (e : EndpointId) (k : DirectiveCode) (v : Byte) : (queueDirective e k v s).gates = s.gates := rfl
@[simp] theorem queueDirective_policy (e : EndpointId) (k : DirectiveCode) (v : Byte) : (queueDirective e k v s).policy = s.policy := rfl
@[simp] theorem queueDirective_faults (e : EndpointId) (k : DirectiveCode) (v : Byte) : (queueDirective e k v s).faults = s.faults := rfl
@[simp] theorem queueDirective_alert (e : EndpointId) (k : DirectiveCode) (v : Byte) : (queueDirective e k v s).alert = s.alert := rfl
@[simp] theorem queueDirective_pending (e : EndpointId) (k : DirectiveCode) (v : Byte) : (queueDirective e k v s).pending = s.pending := rfl

/-! ### dropDirectives -/

@[simp] theorem dropDirectives_node (e : EndpointId) : (dropDirectives e s).node = s.node := rfl
@[simp] theorem dropDirectives_now (e : EndpointId) : (dropDirectives e s).now = s.now := rfl
@[simp] theorem dropDirectives_frameCounter (e : EndpointId) : (dropDirectives e s).frameCounter = s.frameCounter := rfl
@[simp] theorem dropDirectives_portA (e : EndpointId) : (dropDirectives e s).portA = s.portA := rfl
@[simp] theorem dropDirectives_portB (e : EndpointId) : (dropDirectives e s).portB = s.portB := rfl
@[simp] theorem dropDirectives_replies (e : EndpointId) : (dropDirectives e s).replies = s.replies := rfl
@[simp] theorem dropDirectives_events (e : EndpointId) : (dropDirectives e s).events = s.events := rfl
@[simp] theorem dropDirectives_directives (e : EndpointId) : (dropDirectives e s).directives = s.directives.filter fun d => d.endpoint != e := rfl
@[simp] theorem dropDirectives_holdFlag (e : EndpointId) : (dropDirectives e s).holdFlag = s.holdFlag := rfl
@[simp] theorem dropDirectives_txA (e : EndpointId) : (dropDirectives e s).txA = s.txA := rfl
@[simp] theorem dropDirectives_txB (e : EndpointId) : (dropDirectives e s).txB = s.txB := rfl
@[simp] theorem dropDirectives_cmdQueue (e : EndpointId) : (dropDirectives e s).cmdQueue = s.cmdQueue := rfl
@[simp] theorem dropDirectives_cueQueue (e : EndpointId) : (dropDirectives e s).cueQueue = s.cueQueue := rfl
@[simp] theorem dropDirectives_overrun (e : EndpointId) : (dropDirectives e s).overrun = s.overrun := rfl
@[simp] theorem dropDirectives_service (e : EndpointId) : (dropDirectives e s).service = s.service := rfl
@[simp] theorem dropDirectives_hold (e : EndpointId) : (dropDirectives e s).hold = s.hold := rfl
@[simp] theorem dropDirectives_softResetFlag (e : EndpointId) : (dropDirectives e s).softResetFlag = s.softResetFlag := rfl
@[simp] theorem dropDirectives_staged (e : EndpointId) : (dropDirectives e s).staged = s.staged := rfl
@[simp] theorem dropDirectives_config (e : EndpointId) : (dropDirectives e s).config = s.config := rfl
@[simp] theorem dropDirectives_routes (e : EndpointId) : (dropDirectives e s).routes = s.routes := rfl
@[simp] theorem dropDirectives_slotMap (e : EndpointId) : (dropDirectives e s).slotMap = s.slotMap := rfl
@[simp] theorem dropDirectives_ingressPeaks (e : EndpointId) : (dropDirectives e s).ingressPeaks = s.ingressPeaks := rfl
@[simp] theorem dropDirectives_busPeaks (e : EndpointId) : (dropDirectives e s).busPeaks = s.busPeaks := rfl
@[simp] theorem dropDirectives_busClips (e : EndpointId) : (dropDirectives e s).busClips = s.busClips := rfl
@[simp] theorem dropDirectives_noise (e : EndpointId) : (dropDirectives e s).noise = s.noise := rfl
@[simp] theorem dropDirectives_zones (e : EndpointId) : (dropDirectives e s).zones = s.zones := rfl
@[simp] theorem dropDirectives_endpoints (e : EndpointId) : (dropDirectives e s).endpoints = s.endpoints := rfl
@[simp] theorem dropDirectives_loops (e : EndpointId) : (dropDirectives e s).loops = s.loops := rfl
@[simp] theorem dropDirectives_descs (e : EndpointId) : (dropDirectives e s).descs = s.descs := rfl
@[simp] theorem dropDirectives_mem (e : EndpointId) : (dropDirectives e s).mem = s.mem := rfl
@[simp] theorem dropDirectives_messages (e : EndpointId) : (dropDirectives e s).messages = s.messages := rfl
@[simp] theorem dropDirectives_calls (e : EndpointId) : (dropDirectives e s).calls = s.calls := rfl
@[simp] theorem dropDirectives_arrivalCounter (e : EndpointId) : (dropDirectives e s).arrivalCounter = s.arrivalCounter := rfl
@[simp] theorem dropDirectives_startCounter (e : EndpointId) : (dropDirectives e s).startCounter = s.startCounter := rfl
@[simp] theorem dropDirectives_gates (e : EndpointId) : (dropDirectives e s).gates = s.gates := rfl
@[simp] theorem dropDirectives_policy (e : EndpointId) : (dropDirectives e s).policy = s.policy := rfl
@[simp] theorem dropDirectives_faults (e : EndpointId) : (dropDirectives e s).faults = s.faults := rfl
@[simp] theorem dropDirectives_alert (e : EndpointId) : (dropDirectives e s).alert = s.alert := rfl
@[simp] theorem dropDirectives_pending (e : EndpointId) : (dropDirectives e s).pending = s.pending := rfl

/-! ### setMessage -/

@[simp] theorem setMessage_node (i : MessageId) (m : Message) : (setMessage i m s).node = s.node := rfl
@[simp] theorem setMessage_now (i : MessageId) (m : Message) : (setMessage i m s).now = s.now := rfl
@[simp] theorem setMessage_frameCounter (i : MessageId) (m : Message) : (setMessage i m s).frameCounter = s.frameCounter := rfl
@[simp] theorem setMessage_portA (i : MessageId) (m : Message) : (setMessage i m s).portA = s.portA := rfl
@[simp] theorem setMessage_portB (i : MessageId) (m : Message) : (setMessage i m s).portB = s.portB := rfl
@[simp] theorem setMessage_replies (i : MessageId) (m : Message) : (setMessage i m s).replies = s.replies := rfl
@[simp] theorem setMessage_events (i : MessageId) (m : Message) : (setMessage i m s).events = s.events := rfl
@[simp] theorem setMessage_directives (i : MessageId) (m : Message) : (setMessage i m s).directives = s.directives := rfl
@[simp] theorem setMessage_holdFlag (i : MessageId) (m : Message) : (setMessage i m s).holdFlag = s.holdFlag := rfl
@[simp] theorem setMessage_txA (i : MessageId) (m : Message) : (setMessage i m s).txA = s.txA := rfl
@[simp] theorem setMessage_txB (i : MessageId) (m : Message) : (setMessage i m s).txB = s.txB := rfl
@[simp] theorem setMessage_cmdQueue (i : MessageId) (m : Message) : (setMessage i m s).cmdQueue = s.cmdQueue := rfl
@[simp] theorem setMessage_cueQueue (i : MessageId) (m : Message) : (setMessage i m s).cueQueue = s.cueQueue := rfl
@[simp] theorem setMessage_overrun (i : MessageId) (m : Message) : (setMessage i m s).overrun = s.overrun := rfl
@[simp] theorem setMessage_service (i : MessageId) (m : Message) : (setMessage i m s).service = s.service := rfl
@[simp] theorem setMessage_hold (i : MessageId) (m : Message) : (setMessage i m s).hold = s.hold := rfl
@[simp] theorem setMessage_softResetFlag (i : MessageId) (m : Message) : (setMessage i m s).softResetFlag = s.softResetFlag := rfl
@[simp] theorem setMessage_staged (i : MessageId) (m : Message) : (setMessage i m s).staged = s.staged := rfl
@[simp] theorem setMessage_config (i : MessageId) (m : Message) : (setMessage i m s).config = s.config := rfl
@[simp] theorem setMessage_routes (i : MessageId) (m : Message) : (setMessage i m s).routes = s.routes := rfl
@[simp] theorem setMessage_slotMap (i : MessageId) (m : Message) : (setMessage i m s).slotMap = s.slotMap := rfl
@[simp] theorem setMessage_ingressPeaks (i : MessageId) (m : Message) : (setMessage i m s).ingressPeaks = s.ingressPeaks := rfl
@[simp] theorem setMessage_busPeaks (i : MessageId) (m : Message) : (setMessage i m s).busPeaks = s.busPeaks := rfl
@[simp] theorem setMessage_busClips (i : MessageId) (m : Message) : (setMessage i m s).busClips = s.busClips := rfl
@[simp] theorem setMessage_noise (i : MessageId) (m : Message) : (setMessage i m s).noise = s.noise := rfl
@[simp] theorem setMessage_zones (i : MessageId) (m : Message) : (setMessage i m s).zones = s.zones := rfl
@[simp] theorem setMessage_endpoints (i : MessageId) (m : Message) : (setMessage i m s).endpoints = s.endpoints := rfl
@[simp] theorem setMessage_loops (i : MessageId) (m : Message) : (setMessage i m s).loops = s.loops := rfl
@[simp] theorem setMessage_descs (i : MessageId) (m : Message) : (setMessage i m s).descs = s.descs := rfl
@[simp] theorem setMessage_mem (i : MessageId) (m : Message) : (setMessage i m s).mem = s.mem := rfl
@[simp] theorem setMessage_messages (i : MessageId) (m : Message) : (setMessage i m s).messages = s.messages.set i m := rfl
@[simp] theorem setMessage_calls (i : MessageId) (m : Message) : (setMessage i m s).calls = s.calls := rfl
@[simp] theorem setMessage_arrivalCounter (i : MessageId) (m : Message) : (setMessage i m s).arrivalCounter = s.arrivalCounter := rfl
@[simp] theorem setMessage_startCounter (i : MessageId) (m : Message) : (setMessage i m s).startCounter = s.startCounter := rfl
@[simp] theorem setMessage_gates (i : MessageId) (m : Message) : (setMessage i m s).gates = s.gates := rfl
@[simp] theorem setMessage_policy (i : MessageId) (m : Message) : (setMessage i m s).policy = s.policy := rfl
@[simp] theorem setMessage_faults (i : MessageId) (m : Message) : (setMessage i m s).faults = s.faults := rfl
@[simp] theorem setMessage_alert (i : MessageId) (m : Message) : (setMessage i m s).alert = s.alert := rfl
@[simp] theorem setMessage_pending (i : MessageId) (m : Message) : (setMessage i m s).pending = s.pending := rfl

/-! ### setRoute -/

@[simp] theorem setRoute_node (i : Fin 128) (r : Route) : (setRoute i r s).node = s.node := rfl
@[simp] theorem setRoute_now (i : Fin 128) (r : Route) : (setRoute i r s).now = s.now := rfl
@[simp] theorem setRoute_frameCounter (i : Fin 128) (r : Route) : (setRoute i r s).frameCounter = s.frameCounter := rfl
@[simp] theorem setRoute_portA (i : Fin 128) (r : Route) : (setRoute i r s).portA = s.portA := rfl
@[simp] theorem setRoute_portB (i : Fin 128) (r : Route) : (setRoute i r s).portB = s.portB := rfl
@[simp] theorem setRoute_replies (i : Fin 128) (r : Route) : (setRoute i r s).replies = s.replies := rfl
@[simp] theorem setRoute_events (i : Fin 128) (r : Route) : (setRoute i r s).events = s.events := rfl
@[simp] theorem setRoute_directives (i : Fin 128) (r : Route) : (setRoute i r s).directives = s.directives := rfl
@[simp] theorem setRoute_holdFlag (i : Fin 128) (r : Route) : (setRoute i r s).holdFlag = s.holdFlag := rfl
@[simp] theorem setRoute_txA (i : Fin 128) (r : Route) : (setRoute i r s).txA = s.txA := rfl
@[simp] theorem setRoute_txB (i : Fin 128) (r : Route) : (setRoute i r s).txB = s.txB := rfl
@[simp] theorem setRoute_cmdQueue (i : Fin 128) (r : Route) : (setRoute i r s).cmdQueue = s.cmdQueue := rfl
@[simp] theorem setRoute_cueQueue (i : Fin 128) (r : Route) : (setRoute i r s).cueQueue = s.cueQueue := rfl
@[simp] theorem setRoute_overrun (i : Fin 128) (r : Route) : (setRoute i r s).overrun = s.overrun := rfl
@[simp] theorem setRoute_service (i : Fin 128) (r : Route) : (setRoute i r s).service = s.service := rfl
@[simp] theorem setRoute_hold (i : Fin 128) (r : Route) : (setRoute i r s).hold = s.hold := rfl
@[simp] theorem setRoute_softResetFlag (i : Fin 128) (r : Route) : (setRoute i r s).softResetFlag = s.softResetFlag := rfl
@[simp] theorem setRoute_staged (i : Fin 128) (r : Route) : (setRoute i r s).staged = s.staged := rfl
@[simp] theorem setRoute_config (i : Fin 128) (r : Route) : (setRoute i r s).config = s.config := rfl
@[simp] theorem setRoute_routes (i : Fin 128) (r : Route) : (setRoute i r s).routes = s.routes.set i r := rfl
@[simp] theorem setRoute_slotMap (i : Fin 128) (r : Route) : (setRoute i r s).slotMap = s.slotMap := rfl
@[simp] theorem setRoute_ingressPeaks (i : Fin 128) (r : Route) : (setRoute i r s).ingressPeaks = s.ingressPeaks := rfl
@[simp] theorem setRoute_busPeaks (i : Fin 128) (r : Route) : (setRoute i r s).busPeaks = s.busPeaks := rfl
@[simp] theorem setRoute_busClips (i : Fin 128) (r : Route) : (setRoute i r s).busClips = s.busClips := rfl
@[simp] theorem setRoute_noise (i : Fin 128) (r : Route) : (setRoute i r s).noise = s.noise := rfl
@[simp] theorem setRoute_zones (i : Fin 128) (r : Route) : (setRoute i r s).zones = s.zones := rfl
@[simp] theorem setRoute_endpoints (i : Fin 128) (r : Route) : (setRoute i r s).endpoints = s.endpoints := rfl
@[simp] theorem setRoute_loops (i : Fin 128) (r : Route) : (setRoute i r s).loops = s.loops := rfl
@[simp] theorem setRoute_descs (i : Fin 128) (r : Route) : (setRoute i r s).descs = s.descs := rfl
@[simp] theorem setRoute_mem (i : Fin 128) (r : Route) : (setRoute i r s).mem = s.mem := rfl
@[simp] theorem setRoute_messages (i : Fin 128) (r : Route) : (setRoute i r s).messages = s.messages := rfl
@[simp] theorem setRoute_calls (i : Fin 128) (r : Route) : (setRoute i r s).calls = s.calls := rfl
@[simp] theorem setRoute_arrivalCounter (i : Fin 128) (r : Route) : (setRoute i r s).arrivalCounter = s.arrivalCounter := rfl
@[simp] theorem setRoute_startCounter (i : Fin 128) (r : Route) : (setRoute i r s).startCounter = s.startCounter := rfl
@[simp] theorem setRoute_gates (i : Fin 128) (r : Route) : (setRoute i r s).gates = s.gates := rfl
@[simp] theorem setRoute_policy (i : Fin 128) (r : Route) : (setRoute i r s).policy = s.policy := rfl
@[simp] theorem setRoute_faults (i : Fin 128) (r : Route) : (setRoute i r s).faults = s.faults := rfl
@[simp] theorem setRoute_alert (i : Fin 128) (r : Route) : (setRoute i r s).alert = s.alert := rfl
@[simp] theorem setRoute_pending (i : Fin 128) (r : Route) : (setRoute i r s).pending = s.pending := rfl

/-! ### leaveCue -/

@[simp] theorem leaveCue_node : (leaveCue s).node = s.node := rfl
@[simp] theorem leaveCue_now : (leaveCue s).now = s.now := rfl
@[simp] theorem leaveCue_frameCounter : (leaveCue s).frameCounter = s.frameCounter := rfl
@[simp] theorem leaveCue_portA : (leaveCue s).portA = s.portA := rfl
@[simp] theorem leaveCue_portB : (leaveCue s).portB = s.portB := rfl
@[simp] theorem leaveCue_replies : (leaveCue s).replies = s.replies := rfl
@[simp] theorem leaveCue_events : (leaveCue s).events = s.events := rfl
@[simp] theorem leaveCue_directives : (leaveCue s).directives = s.directives := rfl
@[simp] theorem leaveCue_holdFlag : (leaveCue s).holdFlag = s.holdFlag := rfl
@[simp] theorem leaveCue_txA : (leaveCue s).txA = s.txA := rfl
@[simp] theorem leaveCue_txB : (leaveCue s).txB = s.txB := rfl
@[simp] theorem leaveCue_cmdQueue : (leaveCue s).cmdQueue = s.cmdQueue := rfl
@[simp] theorem leaveCue_cueQueue : (leaveCue s).cueQueue = s.cueQueue.tail := rfl
@[simp] theorem leaveCue_overrun : (leaveCue s).overrun = s.overrun := rfl
@[simp] theorem leaveCue_service : (leaveCue s).service = s.service := rfl
@[simp] theorem leaveCue_hold : (leaveCue s).hold = s.hold := rfl
@[simp] theorem leaveCue_softResetFlag : (leaveCue s).softResetFlag = s.softResetFlag := rfl
@[simp] theorem leaveCue_staged : (leaveCue s).staged = s.staged := rfl
@[simp] theorem leaveCue_config : (leaveCue s).config = s.config := rfl
@[simp] theorem leaveCue_routes : (leaveCue s).routes = s.routes := rfl
@[simp] theorem leaveCue_slotMap : (leaveCue s).slotMap = s.slotMap := rfl
@[simp] theorem leaveCue_ingressPeaks : (leaveCue s).ingressPeaks = s.ingressPeaks := rfl
@[simp] theorem leaveCue_busPeaks : (leaveCue s).busPeaks = s.busPeaks := rfl
@[simp] theorem leaveCue_busClips : (leaveCue s).busClips = s.busClips := rfl
@[simp] theorem leaveCue_noise : (leaveCue s).noise = s.noise := rfl
@[simp] theorem leaveCue_zones : (leaveCue s).zones = s.zones := rfl
@[simp] theorem leaveCue_endpoints : (leaveCue s).endpoints = s.endpoints := rfl
@[simp] theorem leaveCue_loops : (leaveCue s).loops = s.loops := rfl
@[simp] theorem leaveCue_descs : (leaveCue s).descs = s.descs := rfl
@[simp] theorem leaveCue_mem : (leaveCue s).mem = s.mem := rfl
@[simp] theorem leaveCue_messages : (leaveCue s).messages = s.messages := rfl
@[simp] theorem leaveCue_calls : (leaveCue s).calls = s.calls := rfl
@[simp] theorem leaveCue_arrivalCounter : (leaveCue s).arrivalCounter = s.arrivalCounter := rfl
@[simp] theorem leaveCue_startCounter : (leaveCue s).startCounter = s.startCounter := rfl
@[simp] theorem leaveCue_gates : (leaveCue s).gates = s.gates := rfl
@[simp] theorem leaveCue_policy : (leaveCue s).policy = s.policy := rfl
@[simp] theorem leaveCue_faults : (leaveCue s).faults = s.faults := rfl
@[simp] theorem leaveCue_alert : (leaveCue s).alert = s.alert := rfl
@[simp] theorem leaveCue_pending : (leaveCue s).pending = s.pending := rfl

/-! ### pushEvent -/

@[simp] theorem pushEvent_node (n : Node) (k : Byte) (p : List Byte) : (pushEvent n k p s).node = s.node := by unfold pushEvent; split <;> [rfl; (split <;> rfl)]
@[simp] theorem pushEvent_now (n : Node) (k : Byte) (p : List Byte) : (pushEvent n k p s).now = s.now := by unfold pushEvent; split <;> [rfl; (split <;> rfl)]
@[simp] theorem pushEvent_frameCounter (n : Node) (k : Byte) (p : List Byte) : (pushEvent n k p s).frameCounter = s.frameCounter := by unfold pushEvent; split <;> [rfl; (split <;> rfl)]
@[simp] theorem pushEvent_portA (n : Node) (k : Byte) (p : List Byte) : (pushEvent n k p s).portA = s.portA := by unfold pushEvent; split <;> [rfl; (split <;> rfl)]
@[simp] theorem pushEvent_portB (n : Node) (k : Byte) (p : List Byte) : (pushEvent n k p s).portB = s.portB := by unfold pushEvent; split <;> [rfl; (split <;> rfl)]
@[simp] theorem pushEvent_replies (n : Node) (k : Byte) (p : List Byte) : (pushEvent n k p s).replies = s.replies := by unfold pushEvent; split <;> [rfl; (split <;> rfl)]
@[simp] theorem pushEvent_directives (n : Node) (k : Byte) (p : List Byte) : (pushEvent n k p s).directives = s.directives := by unfold pushEvent; split <;> [rfl; (split <;> rfl)]
@[simp] theorem pushEvent_holdFlag (n : Node) (k : Byte) (p : List Byte) : (pushEvent n k p s).holdFlag = s.holdFlag := by unfold pushEvent; split <;> [rfl; (split <;> rfl)]
@[simp] theorem pushEvent_txA (n : Node) (k : Byte) (p : List Byte) : (pushEvent n k p s).txA = s.txA := by unfold pushEvent; split <;> [rfl; (split <;> rfl)]
@[simp] theorem pushEvent_txB (n : Node) (k : Byte) (p : List Byte) : (pushEvent n k p s).txB = s.txB := by unfold pushEvent; split <;> [rfl; (split <;> rfl)]
@[simp] theorem pushEvent_cmdQueue (n : Node) (k : Byte) (p : List Byte) : (pushEvent n k p s).cmdQueue = s.cmdQueue := by unfold pushEvent; split <;> [rfl; (split <;> rfl)]
@[simp] theorem pushEvent_cueQueue (n : Node) (k : Byte) (p : List Byte) : (pushEvent n k p s).cueQueue = s.cueQueue := by unfold pushEvent; split <;> [rfl; (split <;> rfl)]
@[simp] theorem pushEvent_overrun (n : Node) (k : Byte) (p : List Byte) : (pushEvent n k p s).overrun = s.overrun := by unfold pushEvent; split <;> [rfl; (split <;> rfl)]
@[simp] theorem pushEvent_service (n : Node) (k : Byte) (p : List Byte) : (pushEvent n k p s).service = s.service := by unfold pushEvent; split <;> [rfl; (split <;> rfl)]
@[simp] theorem pushEvent_hold (n : Node) (k : Byte) (p : List Byte) : (pushEvent n k p s).hold = s.hold := by unfold pushEvent; split <;> [rfl; (split <;> rfl)]
@[simp] theorem pushEvent_softResetFlag (n : Node) (k : Byte) (p : List Byte) : (pushEvent n k p s).softResetFlag = s.softResetFlag := by unfold pushEvent; split <;> [rfl; (split <;> rfl)]
@[simp] theorem pushEvent_staged (n : Node) (k : Byte) (p : List Byte) : (pushEvent n k p s).staged = s.staged := by unfold pushEvent; split <;> [rfl; (split <;> rfl)]
@[simp] theorem pushEvent_config (n : Node) (k : Byte) (p : List Byte) : (pushEvent n k p s).config = s.config := by unfold pushEvent; split <;> [rfl; (split <;> rfl)]
@[simp] theorem pushEvent_routes (n : Node) (k : Byte) (p : List Byte) : (pushEvent n k p s).routes = s.routes := by unfold pushEvent; split <;> [rfl; (split <;> rfl)]
@[simp] theorem pushEvent_slotMap (n : Node) (k : Byte) (p : List Byte) : (pushEvent n k p s).slotMap = s.slotMap := by unfold pushEvent; split <;> [rfl; (split <;> rfl)]
@[simp] theorem pushEvent_ingressPeaks (n : Node) (k : Byte) (p : List Byte) : (pushEvent n k p s).ingressPeaks = s.ingressPeaks := by unfold pushEvent; split <;> [rfl; (split <;> rfl)]
@[simp] theorem pushEvent_busPeaks (n : Node) (k : Byte) (p : List Byte) : (pushEvent n k p s).busPeaks = s.busPeaks := by unfold pushEvent; split <;> [rfl; (split <;> rfl)]
@[simp] theorem pushEvent_busClips (n : Node) (k : Byte) (p : List Byte) : (pushEvent n k p s).busClips = s.busClips := by unfold pushEvent; split <;> [rfl; (split <;> rfl)]
@[simp] theorem pushEvent_noise (n : Node) (k : Byte) (p : List Byte) : (pushEvent n k p s).noise = s.noise := by unfold pushEvent; split <;> [rfl; (split <;> rfl)]
@[simp] theorem pushEvent_zones (n : Node) (k : Byte) (p : List Byte) : (pushEvent n k p s).zones = s.zones := by unfold pushEvent; split <;> [rfl; (split <;> rfl)]
@[simp] theorem pushEvent_endpoints (n : Node) (k : Byte) (p : List Byte) : (pushEvent n k p s).endpoints = s.endpoints := by unfold pushEvent; split <;> [rfl; (split <;> rfl)]
@[simp] theorem pushEvent_loops (n : Node) (k : Byte) (p : List Byte) : (pushEvent n k p s).loops = s.loops := by unfold pushEvent; split <;> [rfl; (split <;> rfl)]
@[simp] theorem pushEvent_descs (n : Node) (k : Byte) (p : List Byte) : (pushEvent n k p s).descs = s.descs := by unfold pushEvent; split <;> [rfl; (split <;> rfl)]
@[simp] theorem pushEvent_mem (n : Node) (k : Byte) (p : List Byte) : (pushEvent n k p s).mem = s.mem := by unfold pushEvent; split <;> [rfl; (split <;> rfl)]
@[simp] theorem pushEvent_messages (n : Node) (k : Byte) (p : List Byte) : (pushEvent n k p s).messages = s.messages := by unfold pushEvent; split <;> [rfl; (split <;> rfl)]
@[simp] theorem pushEvent_calls (n : Node) (k : Byte) (p : List Byte) : (pushEvent n k p s).calls = s.calls := by unfold pushEvent; split <;> [rfl; (split <;> rfl)]
@[simp] theorem pushEvent_arrivalCounter (n : Node) (k : Byte) (p : List Byte) : (pushEvent n k p s).arrivalCounter = s.arrivalCounter := by unfold pushEvent; split <;> [rfl; (split <;> rfl)]
@[simp] theorem pushEvent_startCounter (n : Node) (k : Byte) (p : List Byte) : (pushEvent n k p s).startCounter = s.startCounter := by unfold pushEvent; split <;> [rfl; (split <;> rfl)]
@[simp] theorem pushEvent_gates (n : Node) (k : Byte) (p : List Byte) : (pushEvent n k p s).gates = s.gates := by unfold pushEvent; split <;> [rfl; (split <;> rfl)]
@[simp] theorem pushEvent_policy (n : Node) (k : Byte) (p : List Byte) : (pushEvent n k p s).policy = s.policy := by unfold pushEvent; split <;> [rfl; (split <;> rfl)]
@[simp] theorem pushEvent_faults (n : Node) (k : Byte) (p : List Byte) : (pushEvent n k p s).faults = s.faults := by unfold pushEvent; split <;> [rfl; (split <;> rfl)]
@[simp] theorem pushEvent_alert (n : Node) (k : Byte) (p : List Byte) : (pushEvent n k p s).alert = s.alert := by unfold pushEvent; split <;> [rfl; (split <;> rfl)]
@[simp] theorem pushEvent_pending (n : Node) (k : Byte) (p : List Byte) : (pushEvent n k p s).pending = s.pending := by unfold pushEvent; split <;> [rfl; (split <;> rfl)]

/-! ### leaveCommand -/

@[simp] theorem leaveCommand_node : (leaveCommand s).node = s.node := by unfold leaveCommand flowOnLeave; split <;> rfl
@[simp] theorem leaveCommand_now : (leaveCommand s).now = s.now := by unfold leaveCommand flowOnLeave; split <;> rfl
@[simp] theorem leaveCommand_frameCounter : (leaveCommand s).frameCounter = s.frameCounter := by unfold leaveCommand flowOnLeave; split <;> rfl
@[simp] theorem leaveCommand_portA : (leaveCommand s).portA = s.portA := by unfold leaveCommand flowOnLeave; split <;> rfl
@[simp] theorem leaveCommand_portB : (leaveCommand s).portB = s.portB := by unfold leaveCommand flowOnLeave; split <;> rfl
@[simp] theorem leaveCommand_replies : (leaveCommand s).replies = s.replies := by unfold leaveCommand flowOnLeave; split <;> rfl
@[simp] theorem leaveCommand_events : (leaveCommand s).events = s.events := by unfold leaveCommand flowOnLeave; split <;> rfl
@[simp] theorem leaveCommand_directives : (leaveCommand s).directives = s.directives := by unfold leaveCommand flowOnLeave; split <;> rfl
@[simp] theorem leaveCommand_txA : (leaveCommand s).txA = s.txA := by unfold leaveCommand flowOnLeave; split <;> rfl
@[simp] theorem leaveCommand_txB : (leaveCommand s).txB = s.txB := by unfold leaveCommand flowOnLeave; split <;> rfl
@[simp] theorem leaveCommand_cueQueue : (leaveCommand s).cueQueue = s.cueQueue := by unfold leaveCommand flowOnLeave; split <;> rfl
@[simp] theorem leaveCommand_overrun : (leaveCommand s).overrun = s.overrun := by unfold leaveCommand flowOnLeave; split <;> rfl
@[simp] theorem leaveCommand_service : (leaveCommand s).service = s.service := by unfold leaveCommand flowOnLeave; split <;> rfl
@[simp] theorem leaveCommand_softResetFlag : (leaveCommand s).softResetFlag = s.softResetFlag := by unfold leaveCommand flowOnLeave; split <;> rfl
@[simp] theorem leaveCommand_staged : (leaveCommand s).staged = s.staged := by unfold leaveCommand flowOnLeave; split <;> rfl
@[simp] theorem leaveCommand_config : (leaveCommand s).config = s.config := by unfold leaveCommand flowOnLeave; split <;> rfl
@[simp] theorem leaveCommand_routes : (leaveCommand s).routes = s.routes := by unfold leaveCommand flowOnLeave; split <;> rfl
@[simp] theorem leaveCommand_slotMap : (leaveCommand s).slotMap = s.slotMap := by unfold leaveCommand flowOnLeave; split <;> rfl
@[simp] theorem leaveCommand_ingressPeaks : (leaveCommand s).ingressPeaks = s.ingressPeaks := by unfold leaveCommand flowOnLeave; split <;> rfl
@[simp] theorem leaveCommand_busPeaks : (leaveCommand s).busPeaks = s.busPeaks := by unfold leaveCommand flowOnLeave; split <;> rfl
@[simp] theorem leaveCommand_busClips : (leaveCommand s).busClips = s.busClips := by unfold leaveCommand flowOnLeave; split <;> rfl
@[simp] theorem leaveCommand_noise : (leaveCommand s).noise = s.noise := by unfold leaveCommand flowOnLeave; split <;> rfl
@[simp] theorem leaveCommand_zones : (leaveCommand s).zones = s.zones := by unfold leaveCommand flowOnLeave; split <;> rfl
@[simp] theorem leaveCommand_endpoints : (leaveCommand s).endpoints = s.endpoints := by unfold leaveCommand flowOnLeave; split <;> rfl
@[simp] theorem leaveCommand_loops : (leaveCommand s).loops = s.loops := by unfold leaveCommand flowOnLeave; split <;> rfl
@[simp] theorem leaveCommand_descs : (leaveCommand s).descs = s.descs := by unfold leaveCommand flowOnLeave; split <;> rfl
@[simp] theorem leaveCommand_mem : (leaveCommand s).mem = s.mem := by unfold leaveCommand flowOnLeave; split <;> rfl
@[simp] theorem leaveCommand_messages : (leaveCommand s).messages = s.messages := by unfold leaveCommand flowOnLeave; split <;> rfl
@[simp] theorem leaveCommand_calls : (leaveCommand s).calls = s.calls := by unfold leaveCommand flowOnLeave; split <;> rfl
@[simp] theorem leaveCommand_arrivalCounter : (leaveCommand s).arrivalCounter = s.arrivalCounter := by unfold leaveCommand flowOnLeave; split <;> rfl
@[simp] theorem leaveCommand_startCounter : (leaveCommand s).startCounter = s.startCounter := by unfold leaveCommand flowOnLeave; split <;> rfl
@[simp] theorem leaveCommand_gates : (leaveCommand s).gates = s.gates := by unfold leaveCommand flowOnLeave; split <;> rfl
@[simp] theorem leaveCommand_policy : (leaveCommand s).policy = s.policy := by unfold leaveCommand flowOnLeave; split <;> rfl
@[simp] theorem leaveCommand_faults : (leaveCommand s).faults = s.faults := by unfold leaveCommand flowOnLeave; split <;> rfl
@[simp] theorem leaveCommand_alert : (leaveCommand s).alert = s.alert := by unfold leaveCommand flowOnLeave; split <;> rfl
@[simp] theorem leaveCommand_pending : (leaveCommand s).pending = s.pending := by unfold leaveCommand flowOnLeave; split <;> rfl

@[simp] theorem leaveCommand_cmdQueue : (leaveCommand s).cmdQueue = s.cmdQueue.tail := by
  unfold leaveCommand flowOnLeave; split <;> rfl

/-! ### How the tables read back -/

/-- A table entry after an update of one entry. -/
theorem vector_set_get {α : Type} {n : Nat} (v : Vector α n) (i j : Fin n) (x : α) :
    (v.set i x)[j] = if j = i then x else v[j] := by
  rcases eq_or_ne j i with h | h
  · subst h; simp
  · have h' : i.val ≠ j.val := fun e => h (Fin.ext e.symm)
    simp [h, h']

@[simp] theorem modZone_zone (z y : ZoneId) (f : Zone → Zone) :
    (modZone z f s).zone y = if y = z then f (s.zone z) else s.zone y := vector_set_get _ _ _ _

@[simp] theorem modEndpoint_endpoint (e x : EndpointId) (f : Endpoint → Endpoint) :
    (modEndpoint e f s).endpoint x = if x = e then f (s.endpoint e) else s.endpoint x := vector_set_get _ _ _ _

@[simp] theorem modCall_call (c x : CallId) (f : Call → Call) :
    (modCall c f s).call x = if x = c then f (s.call c) else s.call x := vector_set_get _ _ _ _

@[simp] theorem modGate_gate (g x : GateId) (f : Gate → Gate) :
    (modGate g f s).gate x = if x = g then f (s.gate g) else s.gate x := vector_set_get _ _ _ _

/-- A loop record after an update of one record. -/
theorem modLoop_get (l x : ParamId) (f : LoopRecord → LoopRecord) :
    (modLoop l f s).loops[x] = if x = l then f s.loops[l] else s.loops[x] := vector_set_get _ _ _ _

/-- A description record after an update of one record. -/
theorem modDesc_get (d x : ParamId) (f : DescRecord → DescRecord) :
    (modDesc d f s).descs[x] = if x = d then f s.descs[d] else s.descs[x] := vector_set_get _ _ _ _

/-- An entry of a table after a function has been applied to every entry. -/
@[simp] theorem vmap_get {α β : Type} {n : Nat} (f : α → β) (v : Vector α n) (i : Fin n) : (vmap f v)[i] = f v[i] := by
  simp [vmap]

end Sys2Proof.Machine
end

