-- ==== Sys2Proof/Laws/Frames.lean ====
section
/-! SUPPORT. The frame of every shared operation, said once. An operation of a chain of faults, claims, power changes and call endings
leaves `State.still` as it was: whatever it does, it touches nothing else. -/

namespace Sys2Proof.Machine

variable (s : State)

/-! ### Runs over lists -/

/-- What every single change keeps, a run over a list keeps. -/
theorem forEach_keeps {α β : Type} (g : State → β) {f : α → State → State} (h : ∀ a s, g (f a s) = g s) (l : List α) :
    g (forEach l f s) = g s := by
  unfold forEach
  induction l generalizing s with
  | nil => rfl
  | cons a rest ih => rw [List.foldl_cons, ih, h]

/-- An invariant of every single change is an invariant of a run over a list. -/
theorem forEach_invariant {α : Type} {P : State → Prop} {f : α → State → State} (h : ∀ a s, P s → P (f a s)) (l : List α)
    (hs : P s) : P (forEach l f s) := by
  unfold forEach
  induction l generalizing s with
  | nil => exact hs
  | cons a rest ih => exact ih _ (h a s hs)

/-- A run over a list that is split. -/
theorem forEach_cons {α : Type} (f : α → State → State) (a : α) (l : List α) : forEach (a :: l) f s = forEach l f (f a s) := rfl

/-- A change for a subject that may be none keeps what the change for a subject keeps. -/
theorem whenSome_keeps {α β : Type} (g : State → β) {f : α → State → State} (h : ∀ a s, g (f a s) = g s) (o : Option α) :
    g (whenSome o f s) = g s := by
  cases o with
  | none => rfl
  | some a => exact h a s

/-! ### Updates of one record -/

/-- A change of one entry that a view does not see leaves the view of the table as it was. -/
theorem map_set_same {α β : Type} {n : Nat} (v : Vector α n) (i : Fin n) (x : α) (g : α → β) (h : g x = g v[i]) :
    (v.set i x).map g = v.map g := by
  ext k hk
  rw [Vector.getElem_map, Vector.getElem_map, Vector.getElem_set]
  split
  · subst k; exact h
  · rfl

theorem modZone_still (z : ZoneId) {f : Zone → Zone} (h : ∀ r, (f r).still = r.still) : (modZone z f s).still = s.still := by
  simp only [State.still, modZone, map_set_same _ _ _ _ (h _)]

theorem modEndpoint_still (e : EndpointId) {f : Endpoint → Endpoint} (h : ∀ r, (f r).still = r.still) :
    (modEndpoint e f s).still = s.still := by
  simp only [State.still, modEndpoint, map_set_same _ _ _ _ (h _)]

theorem modLoop_still (l : ParamId) {f : LoopRecord → LoopRecord} (h : ∀ r, (f r).still = r.still) :
    (modLoop l f s).still = s.still := by
  simp only [State.still, modLoop, map_set_same _ _ _ _ (h _)]

theorem modGate_still (g : GateId) {f : Gate → Gate} (h : ∀ r, (f r).still = r.still) : (modGate g f s).still = s.still := by
  simp only [State.still, modGate, map_set_same _ _ _ _ (h _)]

@[simp] theorem modCall_still (c : CallId) (f : Call → Call) : (modCall c f s).still = s.still := rfl

@[simp] theorem withFaults_still (t : FaultTable) : (withFaults t s).still = s.still := rfl

@[simp] theorem setFault_still (f : FaultRef) (r : FaultRecord) : (setFault f r s).still = s.still := rfl

@[simp] theorem pushEvent_still (n : Node) (k : Byte) (p : List Byte) : (pushEvent n k p s).still = s.still := by
  unfold pushEvent; split
  · rfl
  · split <;> rfl

@[simp] theorem queueDirective_still (e : EndpointId) (k : DirectiveCode) (v : Byte) : (queueDirective e k v s).still = s.still := rfl

@[simp] theorem issue_still (e : EndpointId) (k : DirectiveCode) (v : Byte) : (issue e k v s).still = s.still := by
  unfold issue; split <;> simp

@[simp] theorem dropDirectives_still (e : EndpointId) : (dropDirectives e s).still = s.still := rfl

/-! ### Power and claims -/

@[simp] theorem issuePower_still (e : EndpointId) : (issuePower e s).still = s.still := by
  unfold issuePower; split
  · rw [modEndpoint_still _ _ (by intro r; rfl), queueDirective_still]
  · rfl

@[simp] theorem recommand_still (e : EndpointId) : (recommand e s).still = s.still := by
  unfold recommand; split
  · rw [issuePower_still, modEndpoint_still _ _ (by intro r; rfl)]
  · rfl

@[simp] theorem recommandZone_still (z : ZoneId) : (recommandZone z s).still = s.still := by
  unfold recommandZone
  rw [whenSome_keeps _ _ (fun e s => recommand_still s e), whenSome_keeps _ _ (fun e s => recommand_still s e)]

@[simp] theorem afterRelease_still (z : ZoneId) : (afterRelease z s).still = s.still := by
  unfold afterRelease
  rw [recommandZone_still, modZone_still]
  intro r; split <;> rfl

@[simp] theorem endCandidate_still (z : ZoneId) : (endCandidate z s).still = s.still := by
  unfold endCandidate
  exact whenSome_keeps _ _ (fun l s => modLoop_still s l (by intro r; rfl)) _

@[simp] theorem relisten_still (b : State) : (relisten b s).still = s.still := by
  unfold relisten
  refine forEach_keeps _ _ (fun e s => ?_) _
  split
  · split <;> simp
  · rfl

@[simp] theorem issueChannels_still (z : ZoneId) : (issueChannels z s).still = s.still := by
  unfold issueChannels
  split
  · refine forEach_keeps _ _ (fun e s => ?_) _
    split <;> simp
  · rfl

@[simp] theorem issueLights_still (g : GateId) (on : Bool) : (issueLights g on s).still = s.still := by
  unfold issueLights
  refine forEach_keeps _ _ (fun e s => ?_) _
  split <;> simp

@[simp] theorem queueLightsOff_still (g : GateId) : (queueLightsOff g s).still = s.still := by
  unfold queueLightsOff
  refine forEach_keeps _ _ (fun e s => ?_) _
  split <;> simp

/-! ### The endings of calls -/

@[simp] theorem reportAdmission_still (g : GateId) (c : CallId) (o : CallOutcome) (d m : ZoneSet) :
    (reportAdmission g c o d m s).still = s.still := by
  unfold reportAdmission
  rw [modGate_still, pushEvent_still]
  intro r; split <;> rfl

@[simp] theorem reportCompletion_still (r : Call) (c : CallId) (o : CallOutcome) (d m : ZoneSet) :
    (reportCompletion r c o d m s).still = s.still := by
  unfold reportCompletion; split <;> simp

@[simp] theorem completeCall_still (c : CallId) (why : Ending) : (completeCall c why s).still = s.still := by
  unfold completeCall
  rw [reportCompletion_still, forEach_keeps _ _ (fun z s => afterRelease_still s z), modCall_still]

@[simp] theorem dropZone_still (z : ZoneId) : (dropZone z s).still = s.still := by
  unfold dropZone
  split
  · rfl
  · simp only; split <;> simp

@[simp] theorem checkDrop_still (z : ZoneId) : (checkDrop z s).still = s.still := by
  unfold checkDrop
  split
  · rfl
  · split <;> simp

@[simp] theorem enterTail_still (c : CallId) (o : Option CallOutcome) : (enterTail c o s).still = s.still := by
  unfold enterTail
  simp only; split <;> simp

@[simp] theorem cancelCall_still (c : CallId) : (cancelCall c s).still = s.still := by
  unfold cancelCall; split <;> simp

@[simp] theorem preempt_still (c : CallId) : (preempt c s).still = s.still := by
  unfold preempt
  simp only
  split
  · rw [forEach_keeps _ _ (fun z s => afterRelease_still s z), modCall_still]
  · split <;> simp

/-! ### Faults, protection and swaps -/

@[simp] theorem faultEvent_still (f : FaultRef) (k : Byte) (st : FaultState) (a : PolicyAction) (n : Nat) :
    (faultEvent f k st a n s).still = s.still := by
  unfold faultEvent; simp

@[simp] theorem deriveProtection_still (z : ZoneId) : (deriveProtection z s).still = s.still := by
  unfold deriveProtection
  simp only
  split
  · rfl
  · split
    · rw [dropZone_still, endCandidate_still, modZone_still _ _ (by intro r; rfl)]
    · exact modZone_still _ _ (by intro r; rfl)

@[simp] theorem rewake_still (z : ZoneId) : (rewake z s).still = s.still := by
  unfold rewake
  split
  · rfl
  · split <;> simp

@[simp] theorem swapZone_still (z : ZoneId) : (swapZone z s).still = s.still := by
  unfold swapZone
  rw [deriveProtection_still, rewake_still, checkDrop_still, recommandZone_still, endCandidate_still, modZone_still _ _ (by intro r; rfl)]

@[simp] theorem raise_still (f : FaultRef) : (raise f s).still = s.still := by
  unfold raise
  simp only
  split <;> simp [whenSome_keeps _ _ (fun z s => deriveProtection_still s z), whenSome_keeps _ _ (fun z s => swapZone_still s z)]

@[simp] theorem observe_still (f : FaultRef) (b : Bool) : (observe f b s).still = s.still := by
  unfold observe
  simp only
  split
  · rfl
  · split
    · simp
    · split
      · split <;> simp
      · simp

@[simp] theorem expireRetry_still (f : FaultRef) : (expireRetry f s).still = s.still := by
  unfold expireRetry
  simp only
  split
  · simp
  · rw [whenSome_keeps _ _ (fun z s => deriveProtection_still s z)]; simp

/-! ### The call unit between dispatches -/

@[simp] theorem observeWake_still (z : ZoneId) (b : Bool) : (observeWake z b s).still = s.still := by
  unfold observeWake
  exact whenSome_keeps _ _ (fun e s => observe_still s _ b) _

@[simp] theorem enterPlaying_still (c : CallId) : (enterPlaying c s).still = s.still := by
  unfold enterPlaying
  rw [forEach_keeps _ _ (fun z s => observeWake_still s z false), modCall_still]

@[simp] theorem examineWakeZone_still (c : CallId) (z : ZoneId) : (examineWakeZone c z s).still = s.still := by
  unfold examineWakeZone
  split
  · split
    · split <;> simp
    · simp
  · rfl

@[simp] theorem wakingTest_still (c : CallId) : (wakingTest c s).still = s.still := by
  have h : ∀ l : List ZoneId, (forEach l (examineWakeZone c) s).still = s.still :=
    forEach_keeps _ _ (fun z s => examineWakeZone_still s c z)
  unfold wakingTest
  simp only
  repeat' split
  all_goals simp [h]

@[simp] theorem tailTest_still (c : CallId) : (tailTest c s).still = s.still := by
  unfold tailTest; split <;> simp

@[simp] theorem liveMaximumTest_still (c : CallId) : (liveMaximumTest c s).still = s.still := by
  unfold liveMaximumTest; split <;> simp

@[simp] theorem endOfAudioTest_still (c : CallId) : (endOfAudioTest c s).still = s.still := by
  unfold endOfAudioTest; split <;> simp

@[simp] theorem pendingTest_still (c : CallId) : (pendingTest c s).still = s.still := by
  unfold pendingTest; split <;> simp

@[simp] theorem liveStartTest_still (c : CallId) : (liveStartTest c s).still = s.still := by
  unfold liveStartTest
  split
  · split <;> simp
  · rfl
  · rfl

@[simp] theorem sourceLoss_still : (sourceLoss s).still = s.still := by
  unfold sourceLoss
  refine forEach_keeps _ _ (fun c s => ?_) _
  split <;> simp

/-! ### Zone commands -/

@[simp] theorem cancelAdmission_still (g : GateId) : (cancelAdmission g s).still = s.still := by
  unfold cancelAdmission
  exact whenSome_keeps _ _ (fun c s => cancelCall_still s c) _

/-! ### What two states with the same `still` share -/

/-- The fields that every operation above leaves as they were. -/
theorem still_shares {s t : State} (h : t.still = s.still) :
    t.node = s.node ∧ t.now = s.now ∧ t.frameCounter = s.frameCounter ∧ t.portA = s.portA ∧ t.portB = s.portB ∧
    t.replies = s.replies ∧ t.holdFlag = s.holdFlag ∧ t.txA = s.txA ∧ t.txB = s.txB ∧ t.cmdQueue = s.cmdQueue ∧
    t.cueQueue = s.cueQueue ∧ t.overrun = s.overrun ∧ t.service = s.service ∧ t.hold = s.hold ∧
    t.softResetFlag = s.softResetFlag ∧ t.staged = s.staged ∧ t.config = s.config ∧ t.routes = s.routes ∧
    t.slotMap = s.slotMap ∧ t.ingressPeaks = s.ingressPeaks ∧ t.busPeaks = s.busPeaks ∧ t.busClips = s.busClips ∧
    t.noise = s.noise ∧ t.descs = s.descs ∧ t.mem = s.mem ∧ t.messages = s.messages ∧
    t.arrivalCounter = s.arrivalCounter ∧ t.startCounter = s.startCounter ∧ t.policy = s.policy ∧ t.pending = s.pending := by
  simp only [State.still, State.mk.injEq] at h
  tauto

end Sys2Proof.Machine
end

