-- ==== Sys2Proof/Laws/FrameRuns.lean ====
section
/-! SUPPORT. The frame of a whole downstream frame, of the dispatch walk and of the millisecond event: whatever they do, they leave
`State.settled` (configuration, messages and call memory, the command unit) as it was. -/

namespace Sys2Proof.Machine

variable (s : State)

/-! ### From `still` to `settled` -/

theorem settled_still : s.still.settled = s.settled := by
  simp only [State.settled, State.still, Vector.map_map]
  congr 1

/-- What leaves `still` as it was leaves `settled` as it was. -/
theorem settled_of_still {s t : State} (h : t.still = s.still) : t.settled = s.settled := by
  rw [← settled_still t, ← settled_still s, h]

/-- The fields that a frame leaves as they were. -/
theorem settled_shares {s t : State} (h : t.settled = s.settled) :
    t.node = s.node ∧ t.portA = s.portA ∧ t.portB = s.portB ∧ t.cmdQueue = s.cmdQueue ∧ t.cueQueue = s.cueQueue ∧
    t.overrun = s.overrun ∧ t.service = s.service ∧ t.hold = s.hold ∧ t.softResetFlag = s.softResetFlag ∧
    t.staged = s.staged ∧ t.config = s.config ∧ t.routes = s.routes ∧ t.slotMap = s.slotMap ∧ t.mem = s.mem ∧
    t.messages = s.messages ∧ t.arrivalCounter = s.arrivalCounter ∧ t.policy = s.policy ∧ t.pending = s.pending := by
  simp only [State.settled, State.mk.injEq] at h
  tauto

/-! ### Updates of one record -/

theorem modZone_settled (z : ZoneId) {f : Zone → Zone} (h : ∀ r, (f r).settings = r.settings) :
    (modZone z f s).settled = s.settled := by
  simp only [State.settled, modZone, map_set_same _ _ _ _ (h _)]

theorem modEndpoint_settled (e : EndpointId) {f : Endpoint → Endpoint} (h : ∀ r, (f r).settings = r.settings) :
    (modEndpoint e f s).settled = s.settled := by
  simp only [State.settled, modEndpoint, map_set_same _ _ _ _ (h _)]

theorem modLoop_settled (l : ParamId) {f : LoopRecord → LoopRecord} (h : (f s.loops[l]).settings = s.loops[l].settings) :
    (modLoop l f s).settled = s.settled := by
  simp only [State.settled, modLoop, map_set_same _ _ _ _ h]

theorem modDesc_settled (d : ParamId) {f : DescRecord → DescRecord} (h : ∀ r, (f r).settings = r.settings) :
    (modDesc d f s).settled = s.settled := by
  simp only [State.settled, modDesc, map_set_same _ _ _ _ (h _)]

theorem modGate_settled (g : GateId) {f : Gate → Gate} (h : ∀ r, (f r).settings = r.settings) :
    (modGate g f s).settled = s.settled := by
  simp only [State.settled, modGate, map_set_same _ _ _ _ (h _)]

/-! ### The dispatch walk and the frame boundary -/

@[simp] theorem preemptByZone_still (p : Nat) (d : ZoneSet) : (preemptByZone p d s).still = s.still := by
  unfold preemptByZone
  refine forEach_keeps _ _ (fun c s => ?_) _
  split <;> simp

@[simp] theorem countStart_settled : (countStart s).settled = s.settled := rfl

@[simp] theorem mapCalls_settled (f : Call → Call) : (mapCalls f s).settled = s.settled := rfl

theorem recommandAll_settled (l : List ZoneId) : (forEach l recommandZone s).settled = s.settled :=
  settled_of_still (forEach_keeps (s := s) State.still (fun z s => recommandZone_still s z) l)

@[simp] theorem startCall_settled (c : CallId) (d : ZoneSet) (p : PlayerId) : (startCall c d p s).settled = s.settled := by
  unfold startCall
  simp only
  split
  · rw [settled_of_still (enterPlaying_still _ _), recommandAll_settled, countStart_settled, settled_of_still (modCall_still _ _ _),
      settled_of_still (preemptByZone_still _ _ _)]
  · rw [recommandAll_settled, countStart_settled, settled_of_still (modCall_still _ _ _),
      settled_of_still (preemptByZone_still _ _ _)]

@[simp] theorem dispatchCall_settled (c : CallId) (w : ZoneSet) : (dispatchCall c w s).1.settled = s.settled := by
  unfold dispatchCall
  simp only
  split
  · exact settled_of_still (completeCall_still _ _ _)
  · split
    · rfl
    · split
      · simp
      · split
        · rfl
        · split
          · rw [startCall_settled]; exact settled_of_still (preempt_still _ _)
          · rfl

@[simp] theorem walk_settled : ∀ (n : Nat) (l : List CallId) (w : ZoneSet) (s : State), (walk n l w s).settled = s.settled
  | 0, _, _, _ => rfl
  | n + 1, l, w, s => by
    unfold walk
    split
    · rfl
    · simp only; rw [walk_settled n, dispatchCall_settled]

@[simp] theorem examine_settled : (examine s).settled = s.settled := by
  unfold examine
  rw [walk_settled, settled_of_still (forEach_keeps _ _ (fun c s => pendingTest_still s c) _),
    settled_of_still (forEach_keeps _ _ (fun c s => wakingTest_still s c) _),
    settled_of_still (forEach_keeps _ _ (fun c s => endOfAudioTest_still s c) _),
    settled_of_still (forEach_keeps _ _ (fun c s => tailTest_still s c) _)]

@[simp] theorem handOff_settled (ing : List (List Int)) : (handOff ing s).1.settled = s.settled := by
  unfold handOff
  simp only
  rw [mapCalls_settled, settled_of_still (forEach_keeps (s := s) State.still (fun c s => liveStartTest_still s c) _)]

@[simp] theorem frameBoundary_settled (ing : List (List Int)) : (frameBoundary ing s).1.settled = s.settled := by
  unfold frameBoundary; split
  · rw [handOff_settled, examine_settled]
  · rfl

/-! ### The millisecond event -/

@[simp] theorem loseEndpoint_still (e : EndpointId) : (loseEndpoint e s).still = s.still := by
  unfold loseEndpoint
  split
  · split <;> simp
  · simp

@[simp] theorem presenceTest_settled (e : EndpointId) : (presenceTest e s).settled = s.settled := by
  unfold presenceTest
  split
  · simp only
    split
    · rw [settled_of_still (loseEndpoint_still _ _), modEndpoint_settled _ _ (by intro r; rfl)]
    · exact modEndpoint_settled _ _ (by intro r; rfl)
  · rfl

@[simp] theorem idleTest_still (z : ZoneId) : (idleTest z s).still = s.still := by
  unfold idleTest
  split
  · split
    · split
      · rw [recommandZone_still, modZone_still _ _ (by intro r; rfl)]
      · rfl
    · rfl
  · rfl

@[simp] theorem closeGate_settled (g : GateId) (d : GateState) : (closeGate g d s).settled = s.settled := by
  unfold closeGate
  rw [settled_of_still (cancelAdmission_still _ _), settled_of_still (issueLights_still _ _ _), modGate_settled _ _ (by intro r; rfl)]

@[simp] theorem windowTest_settled (g : GateId) : (windowTest g s).settled = s.settled := by
  unfold windowTest
  split
  · split
    · split <;> simp
    · rfl
  · rfl

@[simp] theorem escalationTests_still : (escalationTests s).still = s.still := rfl

@[simp] theorem tickRetries_still : (tickRetries s).still = s.still := rfl

@[simp] theorem retryTests_still : (retryTests s).still = s.still :=
  forEach_keeps _ _ (fun f s => expireRetry_still s f) _

@[simp] theorem sendReturn_settled (h : Header) (a : List Record) : (sendReturn h a s).settled = s.settled := rfl

@[simp] theorem sendBuiltReturn_settled : (sendBuiltReturn s).settled = s.settled := rfl

@[simp] theorem beginFrame_settled (n : BitVec 16) : (beginFrame n s).settled = s.settled := rfl

@[simp] theorem runTask_settled (ing : List (List Int)) (t : MsTask) (p : State × HandOff) :
    (runTask ing t p).1.settled = p.1.settled := by
  cases t <;> simp only [runTask]
  case presence => exact forEach_keeps (s := p.1) State.settled (fun e s => presenceTest_settled s e) _
  case idle => exact settled_of_still (forEach_keeps (s := p.1) State.still (fun z s => idleTest_still s z) _)
  case windows => exact forEach_keeps (s := p.1) State.settled (fun g s => windowTest_settled s g) _
  case escalation => exact settled_of_still (escalationTests_still _)
  case retry => exact settled_of_still (retryTests_still _)
  case boundary => exact frameBoundary_settled _ _
  case returnFrame => split <;> simp

@[simp] theorem millisecond_settled (n : BitVec 16) (ing : List (List Int)) (order : List MsTask) :
    (millisecond n ing order s).1.settled = s.settled := by
  have h : ∀ (l : List MsTask) (p : State × HandOff), (l.foldl (fun p t => runTask ing t p) p).1.settled = p.1.settled := by
    intro l
    induction l with
    | nil => intro p; rfl
    | cons t rest ih => intro p; rw [List.foldl_cons, ih, runTask_settled]
  unfold millisecond
  rw [h, settled_of_still (tickRetries_still _), beginFrame_settled]

/-! ### The mix event and the sending -/

theorem afterMix_settings (r : Zone) (m : ZoneMix) : (r.afterMix m).settings = r.settings := rfl

@[simp] theorem mixEvent_settled (ing : List (List Int)) (mixes : List (Option ZoneMix)) :
    (mixEvent ing mixes s).settled = s.settled := by
  have h : (mixEvent ing mixes s).zones.map Zone.settings = s.zones.map Zone.settings := by
    ext k hk
    simp only [mixEvent, Vector.getElem_map, allZones]
    simp only [Vector.getElem_mk, List.getElem_toArray, List.getElem_map, List.getElem_finRange]
    split <;> rfl
  simp only [State.settled, h]
  rfl

theorem afterStep_settings (l : LoopRecord) (k : AgcCase) (p : Nat) : (l.afterStep k p).settings = l.settings := rfl

@[simp] theorem agcStep_settled (h : HandOff) (z : ZoneId) : (agcStep h z s).settled = s.settled := by
  unfold agcStep
  split
  · split
    · simp only
      rw [settled_of_still (observe_still _ _ _), settled_of_still (observe_still _ _ _)]
      exact modLoop_settled _ _ (afterStep_settings _ _ _)
    · rfl
  · rfl

theorem voxStep_settings (d : DescRecord) (v : Nat) : (d.voxStep v).settings = d.settings := by
  unfold DescRecord.voxStep
  split
  · rfl
  · split
    · split <;> rfl
    · rfl

@[simp] theorem voxTest_settled (z : ZoneId) : (voxTest z s).settled = s.settled := by
  unfold voxTest
  split
  · exact whenSome_keeps _ _ (fun d t => modDesc_settled t d (fun r => voxStep_settings r _)) _
  · rfl

@[simp] theorem afterMixSteps_settled (h : HandOff) (mixes : List (Option ZoneMix)) : (afterMixSteps h mixes s).settled = s.settled := by
  unfold afterMixSteps
  refine forEach_keeps _ _ (fun z s => ?_) _
  split <;> simp

@[simp] theorem sendDown_settled (h : Header) (sl : List (List WireSample)) (a : List Record) : (sendDown h sl a s).settled = s.settled :=
  rfl

/-- A whole downstream frame leaves the configuration, the messages, the call memory and the command unit as they were. -/
@[simp] theorem downstream_settled (h : Header) (arr : Option (List (List WireSample))) (a : List Record) (order : List MsTask) :
    (downstream h arr a order s).settled = s.settled := by
  unfold downstream
  simp only [sendDown_settled, afterMixSteps_settled, mixEvent_settled, millisecond_settled]

@[simp] theorem generatedFrame_settled (order : List MsTask) : (generatedFrame order s).settled = s.settled := by
  unfold generatedFrame; simp

end Sys2Proof.Machine
end

