-- ==== Sys2Proof/Laws/Memory.lean ====
section
/-! SUPPORT. Call memory: every operation keeps the canonical form, a read after a write gives what was written, and a write leaves
every other byte as it was. -/

namespace Sys2Proof.Machine

/-! ### Bounds of the canonical form -/

/-- A memory in canonical form above a bound is in canonical form above any lower bound. -/
theorem memWfFrom_mono {m : Memory} {lo hi : Nat} (h : lo ≤ hi) (w : memWfFrom (some hi) m = true) :
    memWfFrom (some lo) m = true := by
  cases m with
  | nil => rfl
  | cons p rest =>
    obtain ⟨a, b⟩ := p
    simp only [memWfFrom, Bool.and_eq_true, decide_eq_true_eq] at w ⊢
    exact ⟨⟨by omega, w.1.2⟩, w.2⟩

/-- A memory in canonical form above a bound is in canonical form. -/
theorem memWfFrom_none {m : Memory} {lo : Nat} (w : memWfFrom (some lo) m = true) : memWfFrom none m = true := by
  cases m with
  | nil => rfl
  | cons p rest =>
    obtain ⟨a, b⟩ := p
    simp only [memWfFrom, Bool.and_eq_true, decide_eq_true_eq] at w ⊢
    exact ⟨⟨trivial, w.1.2⟩, w.2⟩

/-! ### Keeping the canonical form -/

theorem memErase_wf_above {x lo : Nat} : ∀ {m : Memory}, memWfFrom (some lo) m = true → memWfFrom (some lo) (memErase x m) = true
  | [], _ => rfl
  | (a, b) :: rest, w => by
    simp only [memWfFrom, Bool.and_eq_true, decide_eq_true_eq] at w
    unfold memErase
    split
    · exact memWfFrom_mono (by omega) w.2
    · simp only [memWfFrom, Bool.and_eq_true, decide_eq_true_eq]
      exact ⟨w.1, memErase_wf_above w.2⟩

theorem memInsert_wf_above {x lo : Nat} {v : Byte} (hv : v ≠ memDefault) (hx : lo < x) :
    ∀ {m : Memory}, memWfFrom (some lo) m = true → memWfFrom (some lo) (memInsert x v m) = true
  | [], _ => by simp [memInsert, memWfFrom, hv, hx]
  | (a, b) :: rest, w => by
    simp only [memWfFrom, Bool.and_eq_true, decide_eq_true_eq] at w
    unfold memInsert
    split
    · simp only [memWfFrom, Bool.and_eq_true, decide_eq_true_eq]
      exact ⟨⟨hx, hv⟩, ⟨by assumption, w.1.2⟩, w.2⟩
    · split
      · simp only [memWfFrom, Bool.and_eq_true, decide_eq_true_eq]
        exact ⟨⟨w.1.1, hv⟩, w.2⟩
      · simp only [memWfFrom, Bool.and_eq_true, decide_eq_true_eq]
        exact ⟨w.1, memInsert_wf_above hv (by omega) w.2⟩

/-- Erasing an address keeps the canonical form. -/
theorem memErase_wf {x : Nat} {m : Memory} (w : Memory.wf m = true) : Memory.wf (memErase x m) = true := by
  cases m with
  | nil => rfl
  | cons p rest =>
    obtain ⟨a, b⟩ := p
    simp only [Memory.wf, memWfFrom, Bool.and_eq_true, decide_eq_true_eq] at w ⊢
    unfold memErase
    split
    · exact memWfFrom_none w.2
    · simp only [memWfFrom, Bool.and_eq_true, decide_eq_true_eq]
      exact ⟨w.1, memErase_wf_above w.2⟩

/-- Inserting a byte that is not the default keeps the canonical form. -/
theorem memInsert_wf {x : Nat} {v : Byte} (hv : v ≠ memDefault) {m : Memory} (w : Memory.wf m = true) :
    Memory.wf (memInsert x v m) = true := by
  cases m with
  | nil => simp [Memory.wf, memInsert, memWfFrom, hv]
  | cons p rest =>
    obtain ⟨a, b⟩ := p
    simp only [Memory.wf, memWfFrom, Bool.and_eq_true, decide_eq_true_eq] at w ⊢
    unfold memInsert
    split
    · simp only [memWfFrom, Bool.and_eq_true, decide_eq_true_eq]
      exact ⟨⟨trivial, hv⟩, ⟨by assumption, w.1.2⟩, w.2⟩
    · split
      · simp only [memWfFrom, Bool.and_eq_true, decide_eq_true_eq]
        exact ⟨⟨trivial, hv⟩, w.2⟩
      · simp only [memWfFrom, Bool.and_eq_true, decide_eq_true_eq]
        exact ⟨w.1, memInsert_wf_above hv (by omega) w.2⟩

/-- A byte write keeps the canonical form. -/
theorem memWrite_wf {m : Memory} (x : Nat) (v : Byte) (w : Memory.wf m = true) : Memory.wf (memWrite m x v) = true := by
  unfold memWrite
  split
  · exact memErase_wf w
  · exact memInsert_wf (by assumption) w

/-- A word write keeps the canonical form. -/
theorem memWriteWord_wf {m : Memory} (x : Nat) (v : BitVec 16) (w : Memory.wf m = true) :
    Memory.wf (memWriteWord m x v) = true := memWrite_wf _ _ (memWrite_wf _ _ w)

/-- The loading of words keeps the canonical form. -/
theorem loadWords_wf (start length : Nat) :
    ∀ (ws : List (BitVec 16)) (p : Nat) {m : Memory}, Memory.wf m = true → Memory.wf (loadWords start length ws p m).1 = true
  | [], _, _, w => w
  | v :: ws, p, m, w => by
    unfold loadWords
    split
    · exact loadWords_wf start length ws _ (memWriteWord_wf _ _ w)
    · exact loadWords_wf start length ws _ w

/-! ### Reading after writing -/

theorem memRead_below {m : Memory} {lo x : Nat} (w : memWfFrom (some lo) m = true) (hx : x ≤ lo) : memRead m x = memDefault := by
  induction m generalizing lo with
  | nil => rfl
  | cons p rest ih =>
    obtain ⟨a, b⟩ := p
    simp only [memWfFrom, Bool.and_eq_true, decide_eq_true_eq] at w
    unfold memRead
    rw [if_neg (by omega)]
    exact ih w.2 (by omega)

/-- A read after an insertion, whatever the memory. -/
theorem memRead_memInsert (x y : Nat) (v : Byte) : ∀ m : Memory, memRead (memInsert x v m) y = if y = x then v else memRead m y
  | [] => by simp [memInsert, memRead]
  | (a, b) :: rest => by
    unfold memInsert
    split
    · simp [memRead]
    · split
      · subst x; by_cases h : y = a <;> simp [memRead, h]
      · simp only [memRead, memRead_memInsert x y v rest]
        by_cases h : y = a
        · subst h; simp; intro h'; omega
        · simp [h]

/-- A read after an erasure of a canonical memory. -/
theorem memRead_memErase (x y : Nat) :
    ∀ {m : Memory} {lo : Option Nat}, memWfFrom lo m = true → memRead (memErase x m) y = if y = x then memDefault else memRead m y
  | [], _, _ => by simp [memErase, memRead]
  | (a, b) :: rest, lo, w => by
    simp only [memWfFrom, Bool.and_eq_true, decide_eq_true_eq] at w
    unfold memErase
    split
    · subst x
      by_cases h : y = a
      · subst h; simpa using memRead_below w.2 (le_refl _)
      · simp [memRead, h]
    · simp only [memRead, memRead_memErase x y w.2]
      by_cases h : y = a
      · subst h; simp; intro h'; omega
      · simp [h]

/-- A read after a byte write: the byte written at its address, what was there before at every other. -/
theorem memRead_memWrite {m : Memory} (w : Memory.wf m = true) (x y : Nat) (v : Byte) :
    memRead (memWrite m x v) y = if y = x then v else memRead m y := by
  unfold memWrite
  split
  · rename_i h; rw [memRead_memErase x y w, h]
  · exact memRead_memInsert x y v m

/-- The word written is the word read. -/
theorem memWord_memWriteWord {m : Memory} (w : Memory.wf m = true) (x : Nat) (v : BitVec 16) : memWord (memWriteWord m x v) x = v := by
  unfold memWord memWriteWord
  rw [memRead_memWrite (memWrite_wf _ _ w), memRead_memWrite w, memRead_memWrite (memWrite_wf _ _ w)]
  rw [if_neg (by omega), if_pos rfl, if_pos rfl]
  apply BitVec.eq_of_getLsbD_eq
  intro i hi
  rw [BitVec.getLsbD_append]
  by_cases h : i < 8
  · simp [h]
  · simp [h, show i - 8 < 8 by omega, show 8 + (i - 8) = i by omega]

/-- A word write leaves every byte outside its word as it was. -/
theorem memRead_memWriteWord {m : Memory} (w : Memory.wf m = true) (x y : Nat) (v : BitVec 16)
    (h : y ≠ 2 * x ∧ y ≠ 2 * x + 1) : memRead (memWriteWord m x v) y = memRead m y := by
  unfold memWriteWord
  rw [memRead_memWrite (memWrite_wf _ _ w), if_neg h.2, memRead_memWrite w, if_neg h.1]

end Sys2Proof.Machine
end

