-- ==== Sys2Proof/Laws/PerInstr.lean ====
section
/-! SUPPORT. One family over all commands: the record that spells a command carries the command's own code and goes to the node it is
spelled for (Table 11-3). One lemma for each constructor of `Instr`. -/

namespace Sys2Proof.Laws.RecordHeader

open Sys2Proof.Machine

/-- The record of a command, where it has one, carries its code, is addressed to the node, and is a COMMAND or a CUE. -/
def Statement (i : Instr) : Prop :=
  ∀ (node : Node) (r : Record), recordOf node i = some r →
    r.code = codeOf i ∧ recordDest r = node ∧ (recordKind r = 1 ∨ recordKind r = 3)

/-- A node address reads back from the byte that carries it. -/
theorem node_reads_back (n : Node) : (n.setWidth 8).extractLsb' 0 7 = n := by
  apply BitVec.eq_of_getLsbD_eq
  intro i hi
  simp [hi]; omega

theorem commandRecord_header {node src : Node} {code : Byte} {p : List Byte} {r : Record}
    (h : some (commandRecord node src code p) = some r) :
    r.code = code ∧ recordDest r = node ∧ (recordKind r = 1 ∨ recordKind r = 3) := by
  cases h
  exact ⟨rfl, node_reads_back node, .inl rfl⟩

theorem cueRecord_header {node src : Node} {code : Byte} {p : List Byte} {r : Record}
    (h : some (cueRecord node src code p) = some r) :
    r.code = code ∧ recordDest r = node ∧ (recordKind r = 1 ∨ recordKind r = 3) := by
  cases h
  exact ⟨rfl, node_reads_back node, .inr rfl⟩

theorem powerOnReset : ∀ straps, Statement (.powerOnReset straps) := fun _ _ _ h => nomatch h
theorem softReset : ∀ src req, Statement (.softReset src req) := fun _ _ _ _ h => commandRecord_header h
theorem softResetEffect : ∀ at_, Statement (.softResetEffect at_) := fun _ _ _ h => nomatch h
theorem downstreamFrameArrival : ∀ f order, Statement (.downstreamFrameArrival f order) := fun _ _ _ _ h => nomatch h
theorem badFrame : ∀ order, Statement (.badFrame order) := fun _ _ _ h => nomatch h
theorem portASilence : ∀ order, Statement (.portASilence order) := fun _ _ _ h => nomatch h
theorem localTimingFrame : ∀ order, Statement (.localTimingFrame order) := fun _ _ _ h => nomatch h
theorem returnFrameArrival : ∀ f, Statement (.returnFrameArrival f) := fun _ _ _ h => nomatch h
theorem badReturnFrame : Statement (.badReturnFrame) := fun _ _ h => nomatch h
theorem portBSilence : Statement (.portBSilence) := fun _ _ h => nomatch h
theorem endpointLost : ∀ e, Statement (.endpointLost e) := fun _ _ _ h => nomatch h
theorem idleDeadlineExpiry : ∀ z, Statement (.idleDeadlineExpiry z) := fun _ _ _ h => nomatch h
theorem wakeDeadlineExpiry : ∀ c, Statement (.wakeDeadlineExpiry c) := fun _ _ _ h => nomatch h
theorem tailEnd : ∀ c, Statement (.tailEnd c) := fun _ _ _ h => nomatch h
theorem pendingExpiry : ∀ c, Statement (.pendingExpiry c) := fun _ _ _ h => nomatch h
theorem liveMaximum : ∀ c, Statement (.liveMaximum c) := fun _ _ _ h => nomatch h
theorem windowExpiry : ∀ g, Statement (.windowExpiry g) := fun _ _ _ h => nomatch h
theorem escalationReset : ∀ f, Statement (.escalationReset f) := fun _ _ _ h => nomatch h
theorem retryExpiry : ∀ f, Statement (.retryExpiry f) := fun _ _ _ h => nomatch h
theorem commit : ∀ src req, Statement (.commit src req) := fun _ _ _ _ h => commandRecord_header h
theorem reconfigure : ∀ src req, Statement (.reconfigure src req) := fun _ _ _ _ h => commandRecord_header h
theorem statusRead : ∀ src req cls index kind part, Statement (.statusRead src req cls index kind part) := fun _ _ _ _ _ _ _ _ h => commandRecord_header h
theorem clearFaults : ∀ src req selector index mask, Statement (.clearFaults src req selector index mask) := fun _ _ _ _ _ _ _ h => commandRecord_header h
theorem test : ∀ src req mode level mask, Statement (.test src req mode level mask) := fun _ _ _ _ _ _ _ h => commandRecord_header h
theorem suspend : ∀ src req zone setting, Statement (.suspend src req zone setting) := fun _ _ _ _ _ _ h => commandRecord_header h
theorem swap : ∀ src req zone, Statement (.swap src req zone) := fun _ _ _ _ _ h => commandRecord_header h
theorem gateForce : ∀ src req gate action, Statement (.gateForce src req gate action) := fun _ _ _ _ _ _ h => commandRecord_header h
theorem msgOpen : ∀ src req id startPage length, Statement (.msgOpen src req id startPage length) := fun _ _ _ _ _ _ _ h => commandRecord_header h
theorem msgData : ∀ src id words, Statement (.msgData src id words) := fun _ _ _ _ _ h => commandRecord_header h
theorem msgClose : ∀ src req id, Statement (.msgClose src req id) := fun _ _ _ _ _ h => commandRecord_header h
theorem msgDelete : ∀ src req id, Statement (.msgDelete src req id) := fun _ _ _ _ _ h => commandRecord_header h
theorem msgRead : ∀ src req id offset, Statement (.msgRead src req id offset) := fun _ _ _ _ _ _ h => commandRecord_header h
theorem tableRead : ∀ src req table index group part, Statement (.tableRead src req table index group part) := fun _ _ _ _ _ _ _ _ h => commandRecord_header h
theorem tableWriteFirstPart : ∀ src req table w, Statement (.tableWriteFirstPart src req table w) := fun _ _ _ _ _ _ h => commandRecord_header h
theorem routeWrite : ∀ src req w, Statement (.routeWrite src req w) := fun _ _ _ _ _ h => commandRecord_header h
theorem slotmapWrite : ∀ src req w, Statement (.slotmapWrite src req w) := fun _ _ _ _ _ h => commandRecord_header h
theorem zoneWrite : ∀ src req w, Statement (.zoneWrite src req w) := fun _ _ _ _ _ h => commandRecord_header h
theorem loopWrite : ∀ src req w, Statement (.loopWrite src req w) := fun _ _ _ _ _ h => commandRecord_header h
theorem descWrite : ∀ src req w, Statement (.descWrite src req w) := fun _ _ _ _ _ h => commandRecord_header h
theorem endpointWrite : ∀ src req w, Statement (.endpointWrite src req w) := fun _ _ _ _ _ h => commandRecord_header h
theorem gateWrite : ∀ src req w, Statement (.gateWrite src req w) := fun _ _ _ _ _ h => commandRecord_header h
theorem policyWrite : ∀ src req w, Statement (.policyWrite src req w) := fun _ _ _ _ _ h => commandRecord_header h
theorem configWrite : ∀ src req w, Statement (.configWrite src req w) := fun _ _ _ _ _ h => commandRecord_header h
theorem callStart : ∀ src req tag priority retain target source, Statement (.callStart src req tag priority retain target source) := fun _ _ _ _ _ _ _ _ _ h => cueRecord_header h
theorem callEnd : ∀ src req tag, Statement (.callEnd src req tag) := fun _ _ _ _ _ h => cueRecord_header h
theorem callCancel : ∀ src req tag, Statement (.callCancel src req tag) := fun _ _ _ _ _ h => cueRecord_header h
theorem marker : ∀ src code, Statement (.marker src code) := fun _ _ _ _ h => cueRecord_header h
theorem unknownCommandCode : ∀ src req code, Statement (.unknownCommandCode src req code) := fun _ _ _ _ _ h => commandRecord_header h
theorem unknownCueCode : ∀ src req code, Statement (.unknownCueCode src req code) := fun _ _ _ _ _ h => cueRecord_header h

end Sys2Proof.Laws.RecordHeader
end

