-- ==== Sys2Proof/Laws/Queues.lean ====
section
/-! SUPPORT. The outbound queues: what a directive's joining, an event and the filling of a message area do, said once each. -/

namespace Sys2Proof.Machine

/-! ### Directives (R42, R142) -/

/-- A directive joins a queue that holds none of its endpoint and code at the tail. -/
theorem joinDirective_new (d : Directive) :
    ∀ l : List Directive, (∀ x ∈ l, ¬ (x.endpoint = d.endpoint ∧ x.code = d.code)) → joinDirective d l = l ++ [d]
  | [], _ => rfl
  | x :: rest, h => by
    have hx := h x (by simp)
    simp only [joinDirective, if_neg hx, List.cons_append, List.cons.injEq, true_and]
    exact joinDirective_new d rest (fun y hy => h y (by simp [hy]))

/-- The length of the queue after a directive joined grows by at most one. -/
theorem joinDirective_length (d : Directive) : ∀ l : List Directive, (joinDirective d l).length ≤ l.length + 1
  | [] => by simp [joinDirective]
  | x :: rest => by
    unfold joinDirective
    split
    · simp
    · simpa using joinDirective_length d rest

/-- Every directive that waits after a joining waited before or is the one that joined. -/
theorem mem_joinDirective {d x : Directive} : ∀ {l : List Directive}, x ∈ joinDirective d l → x = d ∨ x ∈ l
  | [], h => by simpa [joinDirective] using h
  | y :: rest, h => by
    unfold joinDirective at h
    split at h
    · rcases List.mem_cons.mp h with h | h
      · exact .inl h
      · exact .inr (List.mem_cons_of_mem _ h)
    · rcases List.mem_cons.mp h with h | h
      · exact .inr (by simp [h])
      · rcases mem_joinDirective h with h | h
        · exact .inl h
        · exact .inr (List.mem_cons_of_mem _ h)

/-- A directive is issued exactly in SERVICE to a PRESENT endpoint. -/
theorem issue_cases (e : EndpointId) (k : DirectiveCode) (v : Byte) (s : State) :
    (s.service = .service ∧ (s.endpoint e).presence = .present ∧ issue e k v s = queueDirective e k v s) ∨
    (¬ (s.service = .service ∧ (s.endpoint e).presence = .present) ∧ issue e k v s = s) := by
  unfold issue
  split
  · rename_i h; exact .inl ⟨h.1, h.2, rfl⟩
  · rename_i h; exact .inr ⟨h, rfl⟩

/-! ### Events (R141) -/

/-- An event joins the queue, or it is not made or lost and nothing changes. -/
theorem pushEvent_cases (n : Node) (k : Byte) (p : List Byte) (s : State) :
    (n ≠ 0 ∧ s.events.length < 32 ∧ pushEvent n k p s = { s with events := s.events ++ [ownRecord s n 0x04 k p] }) ∨
    ((n = 0 ∨ 32 ≤ s.events.length) ∧ pushEvent n k p s = s) := by
  unfold pushEvent
  split
  · exact .inr ⟨.inl (by assumption), rfl⟩
  · split
    · exact .inl ⟨by assumption, by simpa [Config.eventQueueCapacity] using ‹_›, rfl⟩
    · refine .inr ⟨.inr ?_, rfl⟩
      have h : ¬ s.events.length < Config.eventQueueCapacity := ‹_›
      simp only [Config.eventQueueCapacity] at h
      omega

/-- An event leaves the queue within its capacity. -/
theorem pushEvent_length (n : Node) (k : Byte) (p : List Byte) (s : State) (h : s.events.length ≤ 32) :
    (pushEvent n k p s).events.length ≤ 32 := by
  rcases pushEvent_cases n k p s with ⟨_, h1, h2⟩ | ⟨_, h2⟩
  · rw [h2]; simpa using h1
  · rw [h2]; exact h

/-! ### Message areas (R140) -/

/-- A filled area has as many places as it had. -/
theorem fillPlaces_length : ∀ (rs q : List Record), (fillPlaces rs q).1.length = rs.length
  | [], _ => rfl
  | r :: rs, q => by
    unfold fillPlaces
    split
    · split <;> simp [fillPlaces_length rs]
    · simp [fillPlaces_length rs]

/-- What waits after the filling are the records beyond the free places. -/
theorem fillPlaces_left : ∀ (rs q : List Record), (fillPlaces rs q).2 = q.drop (freePlaces rs)
  | [], q => by simp [fillPlaces, freePlaces]
  | r :: rs, q => by
    unfold fillPlaces
    split
    · rename_i h
      cases q with
      | nil => simp [fillPlaces_left rs]
      | cons d q' => simp [fillPlaces_left rs, freePlaces, h]
    · rename_i h
      simp [fillPlaces_left rs, freePlaces, h]

end Sys2Proof.Machine
end

