-- ==== Sys2Proof/Laws/Taking.lean ====
section
/-! SUPPORT. What the taking of a command or cue can do, said once: executed with its reply, refused for want of trust, left waiting, or
joined to its queue. -/

namespace Sys2Proof.Machine

variable {s : State} {c : Instr} {src : Node} {req : Byte} {body : State → State × Answer}

/-! ### Commands -/

/-- A command that is ready is executed on the state it has left the queue of, and its reply is placed. -/
theorem takeCommand_ready (h : s.commandReady c src) :
    takeCommand c src req body s = placeReply src (codeOf c) req (body (leaveCommand s)) := by
  obtain ⟨hd, may, ok⟩ := h
  simp [takeCommand, hd, may, answerCommand, ok]

/-- A command at the head that may be taken, from a source that is not trusted, is answered NOT_PERMITTED. -/
theorem takeCommand_untrusted (hd : s.cmdQueue.head? = some c) (may : s.mayTake = true)
    (no : trusts s.config.managers src = false) :
    takeCommand c src req body s = placeReply src (codeOf c) req (refuse .notPermitted (leaveCommand s)) := by
  simp [takeCommand, hd, may, answerCommand, no]

/-- A command at the head that may not be taken waits. -/
theorem takeCommand_waits (hd : s.cmdQueue.head? = some c) (may : s.mayTake = false) : takeCommand c src req body s = s := by
  simp [takeCommand, hd, may]

/-- A command that is not at the head joins the queue, and it goes no further where another stands at the head. -/
theorem takeCommand_behind {d : Instr} (hd : s.cmdQueue.head? = some d) (ne : d ≠ c)
    (hj : (joinCommand c s).cmdQueue.head? = some d) : takeCommand c src req body s = joinCommand c s := by
  simp [takeCommand, hd, hj, ne]

/-! ### Cues -/

/-- A cue that is ready is executed on the state it has left the queue of, and its reply is placed. -/
theorem takeCue_ready (h : s.cueReady c src) :
    takeCue c src req body s = placeReply src (codeOf c) req (body (leaveCue s)) := by
  obtain ⟨hd, may, ok⟩ := h
  simp [takeCue, hd, may, answerCue, ok]

/-- A cue at the head that may be taken, from a source that is not trusted, is answered NOT_PERMITTED. -/
theorem takeCue_untrusted (hd : s.cueQueue.head? = some c) (may : s.mayTake = true)
    (no : trusts s.config.cueSources src = false) :
    takeCue c src req body s = placeReply src (codeOf c) req (refuse .notPermitted (leaveCue s)) := by
  simp [takeCue, hd, may, answerCue, no]

/-- A cue at the head that may not be taken waits. -/
theorem takeCue_waits (hd : s.cueQueue.head? = some c) (may : s.mayTake = false) : takeCue c src req body s = s := by
  simp [takeCue, hd, may]

/-- A marker at the head of the cue queue, while no soft reset is pending: executed where its source is trusted, else dropped. -/
theorem takeMarker_head {f : State → State} (hd : s.cueQueue.head? = some c) (open_ : s.softResetFlag = false) :
    takeMarker c src f s = if trusts s.config.cueSources src then f (leaveCue s) else leaveCue s := by
  simp [takeMarker, hd, open_]

/-! ### Replies -/

/-- A reply in normal form is one record at the tail of the reply queue. -/
theorem placeReply_normal (t : State) (code : Byte) (st : Status) (result : List Byte) :
    placeReply src code req (t, .normal st result) = { t with replies := t.replies ++ [t.reply src code req st result] } := rfl

/-- A refused command has left its queue and has its reply; nothing else is touched. -/
theorem placeReply_refuse (code : Byte) (st : Status) :
    placeReply src code req (refuse st (leaveCommand s)) = s.answered (s.reply src code req st []) := by
  simp [placeReply, refuse, State.answered, State.reply, replyRecord, ownRecord]

/-- A refused cue has left its queue and has its reply; nothing else is touched. -/
theorem placeReply_refuse_cue (code : Byte) (st : Status) :
    placeReply src code req (refuse st (leaveCue s)) = s.answeredCue (s.reply src code req st []) := rfl

/-- The reply record is the same whatever the state, as long as the node address is. -/
theorem reply_node {s t : State} (h : t.node = s.node) (code : Byte) (st : Status) (result : List Byte) :
    t.reply src code req st result = s.reply src code req st result := by
  simp [State.reply, h]

/-! ### Leaving the command queue (R146) -/

/-- What leaving the command queue does to the hold state and the flag. -/
theorem leaveCommand_hold (s : State) :
    ((leaveCommand s).hold, (leaveCommand s).holdFlag) =
      if s.config.flowEnabled = true ∧ s.hold = .held ∧
          (s.cmdQueue.tail.length < s.config.resumeLevel ∨ s.cmdQueue.tail.length = 0)
      then (.running, some .resume) else (s.hold, s.holdFlag) := by
  unfold leaveCommand flowOnLeave
  simp only
  split <;> rfl

/-- A RUNNING part that lets a command go changes nothing but the queue. -/
theorem leaveCommand_running (h : s.hold = .running) : leaveCommand s = { s with cmdQueue := s.cmdQueue.tail } := by
  simp [leaveCommand, flowOnLeave, h]

/-! ### Joining the command queue (R145, R146) -/

/-- A command that finds room joins the tail; beyond the queue, the hold state, its flag and the overrun mark, only an observation of
COMMAND_OVERRUN absent can follow. -/
theorem joinCommand_room (h : s.cmdQueue.length < 16) :
    joinCommand c s = overrunOver (flowOnJoin { s with cmdQueue := s.cmdQueue ++ [c] }) := by
  simp [joinCommand, Config.commandQueueCapacity, h]

/-- A command that finds the queue full is discarded: COMMAND_OVERRUN is observed present. -/
theorem joinCommand_full (h : 16 ≤ s.cmdQueue.length) :
    joinCommand c s = observe commandOverrunRef true { s with overrun := true } := by
  simp [joinCommand, Config.commandQueueCapacity, show ¬ s.cmdQueue.length < 16 by omega, overrunNow]

end Sys2Proof.Machine
end

