-- ==== Sys2Proof/Tests/Slice0.lean ====
section
/-! SUPPORT. Tests: ill-formed terms refused, the worked examples of the spec, one or two small tests for each command, and for every
statement with hypotheses a concrete state and operands that meet them. -/

namespace Sys2Proof.Tests
open Sys2Proof Sys2Proof.Machine

set_option Elab.async false

/-! ## Helpers -/

/-- The state after a command; every command of the part completes. -/
def after (c : Instr) (s : State) : State :=
  match exec c s with
  | .next t => t
  | .fault _ => s
  | .refused _ => s

/-- The part in SERVICE with nothing configured. -/
def inService : State := { State.reset with service := .service }

/-- A state with a command at the head of the command queue. -/
def taking (c : Instr) (s : State) : State := { s with cmdQueue := [c] }

/-- A state with a cue at the head of the cue queue. -/
def takingCue (c : Instr) (s : State) : State := { s with cueQueue := [c] }

/-- The state after a command is taken. -/
def took (c : Instr) (s : State) : State := after c (taking c s)

/-- The state after a cue is taken. -/
def tookCue (c : Instr) (s : State) : State := after c (takingCue c s)

/-- The first three payload bytes of the last reply. -/
def answer (s : State) : List Byte := ((s.replies.getLast?.map Record.payload).getD []).take 3

/-- A table write of one group. -/
def tw (group : BitVec 2) (index : BitVec 7) (data : List Byte) : TableWrite :=
  { group := group, second := false, index := index, data := padTo 10 data }

/-- The second part of a long group. -/
def second (index : BitVec 7) (data : List Byte) : TableWrite := { tw 0 index data with second := true }

/-- A silent slot area. -/
def silentSlots : List (List WireSample) := List.replicate 64 (List.replicate 48 0)

/-- A frame header. -/
def head5 : Header := { number := 5, timingSource := 1, flags := 0, reserved := 0 }

/-- A downstream frame with some records and silent slots. -/
def down (rs : List Record) : DownFrame :=
  { header := head5, slots := silentSlots, records := rs ++ List.replicate (24 - rs.length) emptyRecord }

/-- A return frame with some records. -/
def ret (rs : List Record) : RetFrame := { header := head5, records := rs ++ List.replicate (24 - rs.length) emptyRecord }

/-- Endpoint 0 at node 9 in zone 0, PRESENT and reporting ACTIVE. -/
def amp : Endpoint :=
  { inUse := true, node := 9, role := .foyerAmp, place := 0, presence := .present, reported := .active, commanded := .active,
    lastTelemetry := some 0 }

/-- Endpoint 1 at node 10 in zone 0, PRESENT and reporting STANDBY. -/
def spare : Endpoint := { amp with node := 10, reported := .standby, commanded := .standby }

/-- The part in SERVICE with foyer zone 0 enabled, primary endpoint 0 and standby endpoint 1. -/
def foyer : State :=
  modEndpoint 1 (fun _ => spare) (modEndpoint 0 (fun _ => amp)
    (modZone 0 (fun r => { r with enabled := true, primary := some 0, standby := some 1 }) inService))

/-- A PENDING stored call to zone 0. -/
def waitingCall : Call := { state := .pending, origin := .external 2, tag := 40, priority := 5, target := 1, source := .stored [3] 1 }

/-- The same call PLAYING on player 0. -/
def playingCall : Call := { waitingCall with state := .playing, delivered := 1, player := some 0, startOrder := some 0 }

/-- A live call PLAYING on player 0. -/
def liveCall : Call := { playingCall with source := .live 50 none, liveBegun := true }

/-- A state with call record 0 as given. -/
def calling (c : Call) (s : State) : State := modCall 0 (fun _ => c) s

/-- A LATCHED record that mutes. -/
def latched : FaultRecord :=
  { state := .latched, lastPresent := false, sticky := true, inForce := some { mode := .latched, action := .mute, retryTime := 10 } }

/-- A RETRY_WAIT record. -/
def retrying (n : Nat) (isPresent : Bool) : FaultRecord :=
  { state := .retryWait, lastPresent := isPresent, sticky := true, inForce := some { mode := .retry, action := .mute, retryTime := 10 },
    retryRemaining := some n }

/-- A record for another node. -/
def anyRecord : Record := commandRecord 5 2 1 [7]

/-- A TELEMETRY record of node 9: STANDBY, current 20001 mA, both flags. -/
def report : Record := { dest := 126, src := 9, kind := 0x05, code := 0x10, payload := padTo 12 [1, 0x4E, 0x21, 3] }

/-- The part in CONFIGURATION with zone 0 and its two endpoints, which passes the checks of COMMIT. -/
def checked : State := { foyer with service := .configuration }

/-- A loop record of zone 0 with the reset parameters. -/
def boundLoop : LoopRecord := { zone := some 0 }

/-! ## WellFormed refuses ill-formed terms -/

theorem test_wf_frame : (Instr.downstreamFrameArrival (down []) allTasks).wf = true := by decide +kernel
theorem test_wf_slotCount : (Instr.downstreamFrameArrival { down [] with slots := silentSlots.tail } allTasks).wf = false := by
  decide +kernel
theorem test_wf_slotLength :
    (Instr.downstreamFrameArrival { down [] with slots := [0] :: silentSlots.tail } allTasks).wf = false := by decide +kernel
theorem test_wf_places : (Instr.downstreamFrameArrival { down [] with records := [] } allTasks).wf = false := by decide +kernel
theorem test_wf_payload :
    (Instr.returnFrameArrival (ret [{ emptyRecord with payload := [0] }])).wf = false := by decide +kernel
theorem test_wf_returnPlaces : (Instr.returnFrameArrival { header := head5, records := [] }).wf = false := by decide +kernel
theorem test_wf_orderShort : (Instr.badFrame [.idle]).wf = false := by decide +kernel
theorem test_wf_orderRepeats : (Instr.badFrame (.idle :: allTasks.tail)).wf = false := by decide +kernel
theorem test_wf_source0 : (Instr.commit 0 1).wf = false := by decide +kernel
theorem test_wf_source127 : (Instr.callEnd 127 1 1).wf = false := by decide +kernel
theorem test_wf_data : (Instr.routeWrite 1 1 { tw 0 0 [] with data := [1] }).wf = false := by decide +kernel
theorem test_wf_second : (Instr.loopWrite 1 1 (tw 0 0 [])).wf = false := by decide +kernel
theorem test_wf_firstPart : (Instr.tableWriteFirstPart 1 1 0 (tw 0 0 [])).wf = false := by decide +kernel
theorem test_wf_words : (Instr.msgData 1 0 [1]).wf = false := by decide +kernel
theorem test_wf_args : (Instr.callStart 1 1 1 0 false 1 { code := 0, idCount := 1, repeatCount := 1, args := [] }).wf = false := by
  decide +kernel
theorem test_wf_knownCommand : (Instr.unknownCommandCode 1 1 0x04).wf = false := by decide +kernel
theorem test_wf_commandRange : (Instr.unknownCommandCode 1 1 0x40).wf = false := by decide +kernel
theorem test_wf_unknownCommand : (Instr.unknownCommandCode 1 1 0x0B).wf = true := by decide +kernel
theorem test_wf_knownCue : (Instr.unknownCueCode 1 1 0x23).wf = false := by decide +kernel

/-! ## Worked examples of the spec -/

/-- R4. -/
theorem test_comp : comp 20000 14000 = 17090 ∧ comp 16384 16384 = 16384 ∧ comp 65535 65535 = 65535 := by decide +kernel
/-- Table 1-5. -/
theorem test_rounding :
    [24576, -24576, 8192, -8192, 8191, -8193].map rnd = [2, -1, 1, 0, 0, -1] := by decide +kernel
/-- Table 1-7. -/
theorem test_ramp : [0, 1, 2, 23, 47].map (ramp 4096 5120) = [4117, 4138, 4160, 4608, 5120] ∧
    [0, 1, 2, 23, 47].map (ramp 5120 4096) = [5099, 5078, 5056, 4608, 4096] := by decide +kernel
/-- The check value of the CRC with this polynomial, preset and complement. -/
theorem test_crc : crc32 [0x31, 0x32, 0x33, 0x34, 0x35, 0x36, 0x37, 0x38, 0x39] = 0xFC891918 := by decide +kernel
/-- Table 11-4: TABLE_WRITE of ZONE, group 3, index 5, byte by byte. -/
theorem test_tableWriteRecord :
    commandOf { dest := 126, src := 2, kind := 1, code := 0x8B, payload := [7, 5, 0x40, 0, 1, 2, 3, 4, 5, 6, 7, 8] } =
      .zoneWrite 2 7 { group := 3, second := false, index := 5, data := [0x40, 0, 1, 2, 3, 4, 5, 6, 7, 8] } := by decide +kernel
/-- Table 11-7: CALL_START, STORED message 3 three times, priority 5, retain, zones 4 and 10. -/
theorem test_callStartRecord :
    cueOf { dest := 126, src := 1, kind := 3, code := 0x20, payload := [9, 40, 0x0D, 0, 0, 4, 0x10, 0x31, 3, 0, 0, 0] } =
      .callStart 1 9 40 5 true 0x410 { code := 0, idCount := 1, repeatCount := 3, args := [3, 0, 0, 0] } := by decide +kernel
/-- R163: MSG_READ of id 5 at offset 66051. -/
theorem test_msgReadRecord :
    commandOf { dest := 126, src := 2, kind := 1, code := 0xC5, payload := [7, 1, 2, 3, 0, 0, 0, 0, 0, 0, 0, 0] } =
      .msgRead 2 7 5 66051 := by decide +kernel
/-- Section 9.7, first event: of twenty commands of a frame four are taken as they join, and at length 12 the part is HELD. -/
theorem test_burst :
    let s : State := { inService with replies := List.replicate 12 emptyRecord }
    let t := intakeA (List.replicate 20 (commandRecord 126 2 0x40 [0, 1])) s
    t.cmdQueue.length = 16 ∧ t.replies.length = 16 ∧ t.hold = .held ∧ t.holdFlag = some .hold := by decide +kernel

/-! ## Commands -/

/-- R132: straps of 127 give 126. -/
theorem test_powerOnReset : (after (.powerOnReset 127) foyer).node = 126 ∧ (after (.powerOnReset 5) foyer).node = 5 ∧
    (after (.powerOnReset 5) foyer).service = .configuration := by decide +kernel
theorem test_softReset : (took (.softReset 2 7) foyer).softResetFlag = true ∧ answer (took (.softReset 2 7) foyer) = [7, 0, 0] := by
  decide +kernel
/-- R157: node address and call memory are kept, a HELD console is released. -/
theorem test_softResetEffect :
    let s : State := { foyer with softResetFlag := true, portA := .lost, node := 5, mem := [(4, 1)], hold := .held }
    let t := after (.softResetEffect .localTiming) s
    t.node = 5 ∧ t.mem = [(4, 1)] ∧ t.holdFlag = some .resume ∧ t.portA = .unlocked ∧ t.service = .configuration := by decide +kernel
theorem test_downstreamFrame :
    let t := after (.downstreamFrameArrival (down []) allTasks) State.reset
    t.portA = .locked ∧ t.frameCounter = 5 ∧ t.now = 1 := by decide +kernel
/-- R134: a bad frame on a port that is not LOCKED is only discarded. -/
theorem test_badFrame : after (.badFrame allTasks) State.reset = State.reset ∧
    (after (.badFrame allTasks) { State.reset with portA := .locked, frameCounter := 0xFFFF }).frameCounter = 0 := by decide +kernel
theorem test_portASilence :
    let t := after (.portASilence allTasks) { inService with frameCounter := 8 }
    t.portA = .lost ∧ t.frameCounter = 9 ∧ (t.fault consoleLinkLostRef).state = .reported := by decide +kernel
theorem test_localTimingFrame :
    (after (.localTimingFrame allTasks) { State.reset with portA := .lost }).now = 1 ∧
    after (.localTimingFrame allTasks) State.reset = State.reset := by decide +kernel
/-- R140: the hold and resume flag goes first, to all nodes, then the replies. -/
theorem test_returnFrame :
    let s : State := { State.reset with holdFlag := some .hold, replies := [commandRecord 2 126 1 [7]] }
    let t := after (.returnFrameArrival (ret [])) s
    t.portB = .locked ∧ t.holdFlag = none ∧ t.replies = [] ∧
    (t.txA.map fun f => (f.records.take 3).map Record.dest) = some [127, 2, 0] := by decide +kernel
theorem test_badReturnFrame :
    (after .badReturnFrame { State.reset with portB := .locked }).txA.isSome = true ∧
    after .badReturnFrame State.reset = State.reset := by decide +kernel
theorem test_portBSilence : (after .portBSilence State.reset).portB = .lost ∧
    ((after .portBSilence State.reset).fault houseLinkLostRef).sticky = true := by decide +kernel
/-- R37: more than the lost time, 50 ms, not exactly it. -/
theorem test_endpointLost : ((after (.endpointLost 0) { foyer with now := 51 }).endpoint 0).presence = .absent ∧
    after (.endpointLost 0) { foyer with now := 50 } = { foyer with now := 50 } := by decide +kernel
theorem test_idleDeadline :
    let s := modZone 0 (fun r => { r with idlePolicy := .callsOnly, idleDeadline := some 100 }) foyer
    ((after (.idleDeadlineExpiry 0) { s with now := 100 }).endpoint 0).commanded = .standby ∧
    after (.idleDeadlineExpiry 0) { s with now := 99 } = { s with now := 99 } := by decide +kernel
theorem test_wakeDeadline :
    let s := calling { playingCall with state := .waking, wake := Vector.replicate 32 (some 400) }
      (modEndpoint 0 (fun r => { r with reported := .standby }) foyer)
    ((after (.wakeDeadlineExpiry 0) { s with now := 400 }).call 0).state = .free ∧
    ((after (.wakeDeadlineExpiry 0) { s with now := 400 }).fault (wakeFailedRef 0)).state = .reported ∧
    after (.wakeDeadlineExpiry 0) { s with now := 399 } = { s with now := 399 } := by decide +kernel
theorem test_tailEnd :
    let t := after (.tailEnd 0) (calling { playingCall with state := .tail } foyer)
    (t.call 0).state = .free ∧ (t.events.map fun r => r.payload.take 2) = [[40, 0]] := by decide +kernel
theorem test_pendingExpiry :
    let t := after (.pendingExpiry 0) { calling waitingCall foyer with now := 30000 }
    (t.call 0).state = .free ∧ (t.events.map fun r => r.payload.take 2) = [[40, 4]] := by decide +kernel
theorem test_liveMaximum :
    ((after (.liveMaximum 0) (calling { liveCall with liveElapsed := 60000 } foyer)).call 0).state = .tail ∧
    ((after (.liveMaximum 0) (calling { liveCall with liveElapsed := 59999 } foyer)).call 0).state = .playing := by decide +kernel
theorem test_windowExpiry :
    let s := modGate 1 (fun r => { r with state := .open_, windowDeadline := some 90000 }) { inService with now := 90000 }
    ((after (.windowExpiry 1) s).gate 1).state = .closed ∧ ((after (.windowExpiry 1) s).gate 1).lastClose = some 90000 := by
  decide +kernel
theorem test_escalationReset :
    let s := setFault (openLoopRef 0) { escalation := 2, lastRecovery := some 0 } foyer
    ((after (.escalationReset (openLoopRef 0)) { s with now := 10000 }).fault (openLoopRef 0)).escalation = 0 ∧
    ((after (.escalationReset (openLoopRef 0)) { s with now := 9999 }).fault (openLoopRef 0)).escalation = 2 := by decide +kernel
/-- R123: a condition that is still present restarts the timer. -/
theorem test_retryExpiry :
    ((after (.retryExpiry (ampThermalRef 0)) (setFault (ampThermalRef 0) (retrying 0 false) foyer)).fault (ampThermalRef 0)).state =
      .clear ∧
    ((after (.retryExpiry (ampThermalRef 0)) (setFault (ampThermalRef 0) (retrying 0 true) foyer)).fault
      (ampThermalRef 0)).retryRemaining = some 1000 := by decide +kernel
/-- R154: a zone without a primary endpoint fails the first check, in table 2. -/
theorem test_commit : (took (.commit 2 7) State.reset).service = .service ∧
    answer (took (.commit 2 7) (modZone 3 (fun r => { r with enabled := true }) State.reset)) = [7, 0x0D, 2] := by decide +kernel
theorem test_reconfigure : (took (.reconfigure 2 7) (calling playingCall foyer)).service = .configuration ∧
    ((took (.reconfigure 2 7) (calling playingCall foyer)).call 0).state = .free := by decide +kernel
theorem test_statusRead :
    answer (took (.statusRead 2 7 0 0 0 0) State.reset) = [7, 0, 0x40] ∧
    answer (took (.statusRead 2 7 8 0 0 0) State.reset) = [7, 4, 0] := by decide +kernel
theorem test_clearFaults :
    let t := took (.clearFaults 2 7 5 0 0x7FF) (setFault (supplyLowRef 0) latched foyer)
    (t.fault (supplyLowRef 0)).state = .clear ∧ t.alert = false ∧ answer t = [7, 0, 0] := by decide +kernel
theorem test_test : ((took (.test 2 7 2 0x4000 1) foyer).zone 0).testMode = .tone ∧
    ((took (.test 2 7 2 0x4000 1) (calling playingCall foyer)).call 0).state = .free := by decide +kernel
theorem test_suspend : ((took (.suspend 2 7 0 1) foyer).endpoint 0).commanded = .suspended ∧
    answer (took (.suspend 2 7 5 1) foyer) = [7, 3, 0] := by decide +kernel
theorem test_swap : ((took (.swap 2 7 0) foyer).zone 0).side = .standby ∧
    answer (took (.swap 2 7 0) (setFault (supplyLowRef 1) latched foyer)) = [7, 7, 0] := by decide +kernel
theorem test_gateForce : ((took (.gateForce 2 7 1 0) inService).gate 1).state = .open_ ∧
    answer (took (.gateForce 2 7 1 2) inService) = [7, 0, 2] := by decide +kernel
theorem test_msgOpen : (took (.msgOpen 2 7 3 10 5000) State.reset).messages[3] = .loading 10 5000 0 ∧
    answer (took (.msgOpen 2 7 3 1023 4097) State.reset) = [7, 4, 0] := by decide +kernel
/-- R77, R80: word 10 x 4096 is at bytes 81920 and 81921; the sixth word finds the pointer at the length. -/
theorem test_msgData :
    let t := took (.msgData 2 3 [0x1234, 2, 3, 4, 5, 6]) (setMessage 3 (.loading 10 5 0) State.reset)
    t.messages[3] = .loading 10 5 5 ∧ t.mem.take 2 = [(81920, 0x12), (81921, 0x34)] ∧ memWord t.mem 40965 = 0 ∧
    answer t = [0, 1, 0] := by decide +kernel
theorem test_msgClose : (took (.msgClose 2 7 3) (setMessage 3 (.loading 10 5 5) State.reset)).messages[3] = .valid 10 5 ∧
    (took (.msgClose 2 7 3) (setMessage 3 (.loading 10 5 4) State.reset)).messages[3] = .free := by decide +kernel
theorem test_msgDelete : (took (.msgDelete 2 7 3) (setMessage 3 (.valid 10 5) State.reset)).messages[3] = .free ∧
    (took (.msgDelete 2 7 3) (setMessage 3 (.valid 10 5) (calling waitingCall inService))).messages[3] = .valid 10 5 := by
  decide +kernel
/-- R163: two words read, so bits 7 to 4 of byte 2 are 2. -/
theorem test_msgRead :
    let t := took (.msgRead 2 7 3 1) (setMessage 3 (.valid 0 3) { State.reset with mem := [(3, 9), (5, 8)] })
    t.replies.map (fun r => (r.kind, r.payload.take 5)) = [(0x22, [0, 9, 0, 8, 0])] := by decide +kernel
theorem test_tableRead : answer (took (.tableRead 2 7 8 0 0 0) State.reset) = [7, 0, 0x20] ∧
    answer (took (.tableRead 2 7 9 0 0 0) State.reset) = [7, 2, 0] := by decide +kernel
theorem test_firstPart : (took (.tableWriteFirstPart 2 7 3 (tw 0 4 [1])) State.reset).staged.map Staged.index = some 4 ∧
    answer (took (.tableWriteFirstPart 2 7 9 (tw 0 4 [1])) State.reset) = [7, 2, 0] := by decide +kernel
/-- R9: the third form changes the gain of the entry that holds the pair. -/
theorem test_routeWrite :
    let s := setRoute 2 { inUse := true, slot := 1, bus := 3, gain := 0 } State.reset
    (took (.routeWrite 2 7 (tw 0 9 [1, 1, 3, 0x40, 0])) s).routes[2].gain = 16384 ∧
    (took (.routeWrite 2 7 (tw 0 9 [1, 1, 3, 0x40, 0])) s).routes[9].inUse = false := by decide +kernel
theorem test_slotmapWrite : (took (.slotmapWrite 2 7 (tw 0 63 [2, 31])) State.reset).slotMap[63] = .zone 31 ∧
    answer (took (.slotmapWrite 2 7 (tw 0 64 [0])) State.reset) = [7, 3, 0] := by decide +kernel
theorem test_zoneWrite : ((took (.zoneWrite 2 7 (tw 0 5 [1, 3, 9])) State.reset).zone 5).kind = .lounge ∧
    answer (took (.zoneWrite 2 7 (tw 3 5 [])) State.reset) = [7, 1, 5] := by decide +kernel
theorem test_loopWrite : (took (.loopWrite 2 7 (tw 1 5 [0x20, 0, 0, 1, 0, 0])) State.reset).loops[0].zone = some 5 ∧
    (took (.loopWrite 2 7 (tw 1 5 [0x20, 0, 0, 1, 0, 0])) State.reset).loops[0].currentLimit = 8192 := by decide +kernel
/-- R51: a level write clamps the AGC gain. -/
theorem test_loopLevel :
    let s := took (.tableWriteFirstPart 2 7 3 (tw 0 5 [0, 0, 9, 0, 0, 8, 0, 7, 0, 6])) State.reset
    let t := after (.loopWrite 2 8 (second 5 [0, 1, 0, 2])) (taking (.loopWrite 2 8 (second 5 [0, 1, 0, 2])) s)
    t.loops[0].agc = 2 ∧ t.loops[0].target = 9 ∧ t.staged = none := by decide +kernel
theorem test_descWrite : (took (.descWrite 2 7 (tw 2 5 [4])) State.reset).descs[0].channel = 4 ∧
    answer (took (.descWrite 2 7 (tw 2 5 [17])) State.reset) = [7, 4, 0] := by decide +kernel
theorem test_endpointWrite : ((took (.endpointWrite 2 7 (tw 0 47 [1, 9, 4, 1])) State.reset).endpoint 47).role = .usherLight ∧
    answer (took (.endpointWrite 2 7 (tw 0 47 [1, 9, 4, 2])) State.reset) = [7, 4, 0] := by decide +kernel
theorem test_gateWrite : ((took (.gateWrite 2 7 (tw 0 1 [21, 22, 0, 0, 0, 0, 0])) State.reset).gate 1).open2 = 22 ∧
    answer (took (.gateWrite 2 7 (tw 0 1 [21, 21, 0, 0, 0, 0, 0])) State.reset) = [7, 6, 0] := by decide +kernel
/-- R117: for kind 7 RETRY is clamped to REPORT. -/
theorem test_policyWrite : (took (.policyWrite 2 7 (tw 0 7 [1, 0, 5, 5])) State.reset).policy[6].mode = .report ∧
    answer (took (.policyWrite 2 7 (tw 0 7 [1, 0, 5, 5])) State.reset) = [7, 1, 7] := by decide +kernel
theorem test_configWrite : (took (.configWrite 2 7 (tw 1 0 [9])) State.reset).config.eventNode = 9 ∧
    answer (took (.configWrite 2 7 (tw 3 0 [1, 4, 4])) State.reset) = [7, 4, 0] := by decide +kernel
theorem test_callStart :
    let c : Instr := .callStart 1 9 40 5 true 0x410 { code := 0, idCount := 1, repeatCount := 3, args := [3, 0, 0, 0] }
    let s := setMessage 3 (.valid 0 5) inService
    ((tookCue c s).call 0).target = 0x410 ∧ ((tookCue c s).call 0).source = .stored [3] 3 ∧ answer (tookCue c inService) = [9, 4, 0] := by
  decide +kernel
theorem test_callEnd : ((tookCue (.callEnd 1 9 40) (calling liveCall foyer)).call 0).state = .tail ∧
    answer (tookCue (.callEnd 1 9 40) (calling playingCall foyer)) = [9, 4, 0] := by decide +kernel
theorem test_callCancel : ((tookCue (.callCancel 1 9 40) (calling playingCall foyer)).call 0).outcome = some .cancelled ∧
    ((tookCue (.callCancel 1 9 40) (calling waitingCall foyer)).call 0).state = .free := by decide +kernel
theorem test_marker :
    let s := modGate 1 (fun r => { r with open1 := 21, close1 := 23 }) inService
    ((tookCue (.marker 1 21) s).gate 1).state = .open_ ∧ ((tookCue (.marker 1 23) s).gate 1).state = .closed ∧
    (tookCue (.marker 1 21) s).replies = [] := by decide +kernel
theorem test_unknownCommandCode : answer (took (.unknownCommandCode 2 7 0x0B) State.reset) = [7, 0x0E, 0] := by decide +kernel
theorem test_unknownCueCode : answer (tookCue (.unknownCueCode 2 7 0x24) State.reset) = [7, 0x0E, 0] := by decide +kernel

/-! ## Witnesses: for each statement with hypotheses, a state and operands that meet them, clause by clause -/

/-- A command that any list of eight unused places lets through. -/
def anyCommand : Instr := .commit 2 7

/-- A cue that any list of unused places lets through. -/
def anyCue : Instr := .callEnd 2 7 40

/-- A state whose reply queue is full. -/
def replyFull (s : State) : State := { s with replies := List.replicate 16 emptyRecord }

theorem witness_QueuesAreServedInOrder :
    ((taking anyCommand State.reset).pending = [] ∧ (taking anyCommand State.reset).cmdQueue.head? = some anyCommand ∧
      (taking anyCommand State.reset).mayTake = true) ∧
    ((takingCue anyCue State.reset).cmdQueue = [] ∧ (takingCue anyCue State.reset).cueQueue.head? = some anyCue ∧
      (takingCue anyCue State.reset).mayTake = true) ∧
    ((replyFull (takingCue (.marker 2 21) (taking anyCommand State.reset))).mayTake = false ∧
      (takingCue (.marker 2 21) (taking anyCommand State.reset)).cueQueue.head? = some (.marker 2 21) ∧
      (takingCue (.marker 2 21) (taking anyCommand State.reset)).softResetFlag = false) ∧
    (commandSender anyCommand = some (2, 7) ∧ (replyFull (taking anyCommand State.reset)).mayTake = false) ∧
    (cueSender anyCue = some (2, 7) ∧ (replyFull (takingCue anyCue State.reset)).mayTake = false) := by decide +kernel

theorem witness_SoftResetTakesEffect :
    let s : State := { foyer with softResetFlag := true, portA := .lost, hold := .held }
    (taking (.softReset 2 7) foyer).commandReady (.softReset 2 7) 2 ∧ s.softResetFlag = true ∧ s.replies = [] ∧ s.portA = .lost ∧
    (replyFull s).replies ≠ [] := by decide +kernel

/-- A part that trusts node 3 alone. -/
def strict (s : State) : State := { s with config := { s.config with managers := #v[3, 0, 0, 0], cueSources := #v[0, 0, 0, 3] } }

theorem witness_RecordsJoinAndLeaveTheirQueues :
    let c : Instr := .swap 2 8 0
    let s := fun n => ({ State.reset with cmdQueue := List.replicate n anyCommand, cueQueue := List.replicate n anyCue } : State)
    (commandSender c = some (2, 8) ∧ cueSender anyCue = some (2, 7) ∧ anyCommand ≠ c) ∧
    ((s 0).cmdQueue = [] ∧ (s 0).cmdQueue.head? ≠ some c) ∧ ((s 15).cmdQueue.length < 16 ∧ (s 15).cmdQueue.head? ≠ some c) ∧
    (16 ≤ (s 16).cmdQueue.length ∧ (s 16).cmdQueue.head? ≠ some c) ∧
    ((s 0).cueQueue = [] ∧ (s 0).cueQueue.head? ≠ some (.marker 2 21)) ∧
    ((s 7).cueQueue.length < 8 ∧ (s 7).cueQueue.head? ≠ some (.marker 2 21)) ∧
    (8 ≤ (s 8).cueQueue.length ∧ (s 8).cueQueue.head? ≠ some (.marker 2 21)) ∧ (s 16).policy[10].mode ≠ .disabled ∧
    ((s 4).cmdQueue.head? = some anyCommand ∧ (s 4).mayTake = true ∧ ({ s 4 with hold := .held } : State).config.flowEnabled = true ∧
      (s 4).cmdQueue.tail.length < (s 4).config.resumeLevel) := by decide +kernel

theorem witness_TakenRecordsAreAnsweredOnce :
    (commandSender (.msgData 2 3 [1, 2, 3, 4, 5, 6]) = some (2, 0) ∧
      (taking (.msgData 2 3 [1, 2, 3, 4, 5, 6]) State.reset).commandReady (.msgData 2 3 [1, 2, 3, 4, 5, 6]) 2) ∧
    (cueSender anyCue = some (2, 7) ∧ (takingCue anyCue State.reset).cueReady anyCue 2) ∧
    ((takingCue (.marker 2 21) State.reset).cueQueue.head? = some (.marker 2 21)) ∧
    (taking (.unknownCommandCode 2 7 0x0B) State.reset).commandReady (.unknownCommandCode 2 7 0x0B) 2 ∧
    (takingCue (.unknownCueCode 2 7 0x24) State.reset).cueReady (.unknownCueCode 2 7 0x24) 2 ∧
    let s := strict (takingCue anyCue (taking anyCommand State.reset))
    commandSender anyCommand = some (2, 7) ∧ s.cmdQueue.head? = some anyCommand ∧ s.cueQueue.head? = some anyCue ∧ s.mayTake = true ∧
    s.config.managers[(0 : Fin 4)] ≠ 0 ∧ s.config.cueSources[(3 : Fin 4)] ≠ 0 ∧
    (∀ j : Fin 4, s.config.managers[j] ≠ 2 ∧ s.config.cueSources[j] ≠ 2) ∧
    (strict (takingCue (.marker 2 21) State.reset)).cueQueue.head? = some (.marker 2 21) := by decide +kernel

theorem witness_FramesReadBackFromTheirBytes : (down []).wf = true ∧ (ret []).wf = true := by decide +kernel

theorem witness_RecordsSpellTheirCommands :
    ([anyCommand, .msgRead 126 255 63 0xFFFFFF, .zoneWrite 1 0 (tw 3 31 []), anyCue, .marker 2 21].all fun c =>
      c.wf && (recordOf 126 c).isSome) = true ∧
    commandSender anyCommand = some (2, 7) ∧ cueSender anyCue = some (2, 7) := by decide +kernel

theorem witness_WellFormedFrameIsForwarded :
    let s := { foyer with portA := .lost }
    s.softResetFlag = false ∧ s.cmdQueue = [] ∧ s.cueQueue = [] ∧
    (∀ r ∈ (down [commandRecord 5 2 1 [7]]).records, recordFor s.node r = false) := by decide +kernel

theorem witness_FramesBringCommandsAndCues :
    let r := commandRecord 126 2 1 [7]
    let q := cueRecord 126 2 0x23 [21]
    let f : DownFrame := { down [] with records := [r, q, commandRecord 126 0 1 [7], anyRecord] }
    let s0 : State := { inService with portA := .locked }
    let u : Nat → State := fun i => match i with
      | 0 => s0
      | 1 => after (commandOf r) s0
      | _ => after (cueOf q) (after (commandOf r) s0)
    (inService.softResetFlag = false ∧ inService.cmdQueue = [] ∧ inService.cueQueue = [] ∧ inService.portA ≠ .lost) ∧
    (recordFor inService.node r = true ∧ recordSource r ≠ 0 ∧ recordSource r ≠ 127 ∧ recordKind r = 1 ∧ (u 0).mayTake = true ∧
      exec (commandOf r) (u 0) = .next (u 1)) ∧
    (recordFor inService.node q = true ∧ recordSource q ≠ 0 ∧ recordSource q ≠ 127 ∧ recordKind q = 3 ∧ (u 1).mayTake = true ∧
      exec (cueOf q) (u 1) = .next (u 2)) ∧
    (recordSource (commandRecord 126 0 1 [7]) = 0 ∧ u 3 = u 2) ∧ (recordFor inService.node anyRecord = false ∧ u 4 = u 3) ∧
    f.records.length = 4 ∧ (u 4).softResetFlag = false ∧ recordSource (commandRecord 126 127 1 [7]) = 127 ∧
    recordKind { r with kind := 0x05 } = 5 := by
  refine ⟨?_, ⟨?_, ?_, ?_, ?_, ?_, rfl⟩, ⟨?_, ?_, ?_, ?_, ?_, rfl⟩, ⟨?_, rfl⟩, ⟨?_, rfl⟩, ?_, ?_, ?_, ?_⟩
  all_goals decide +kernel

/-- The foyer with each sort of entry in its slot map. -/
def mapped : State :=
  { foyer with slotMap := (((foyer.slotMap.set 1 .silence).set 2 (.zone 0)).set 63 (.zone 1)), portB := .locked }

theorem witness_EgressSlotsFollowTheSlotMap :
    (∀ f order, exec (.downstreamFrameArrival f order) mapped = .next (after (.downstreamFrameArrival f order) mapped)) ∧
    (∀ order, exec (.badFrame order) { mapped with portA := .locked } = .next (after (.badFrame order) { mapped with portA := .locked })) ∧
    (∀ order, exec (.localTimingFrame order) { mapped with portA := .lost } =
      .next (after (.localTimingFrame order) { mapped with portA := .lost })) ∧
    (∀ r ∈ (down []).records, recordFor mapped.node r = false) ∧ mapped.cmdQueue = [] ∧ mapped.cueQueue = [] ∧
    mapped.softResetFlag = false ∧ (after (.downstreamFrameArrival (down []) allTasks) mapped).txB.isSome = true ∧
    mapped.service = .service ∧ State.reset.service = .configuration ∧
    mapped.slotMap[(0 : Fin 64)] = .pass ∧ mapped.slotMap[(1 : Fin 64)] = .silence ∧
    mapped.slotMap[(2 : Fin 64)] = .zone 0 ∧ (mapped.zone 0).enabled = true ∧
    mapped.slotMap[(63 : Fin 64)] = .zone 1 ∧ (mapped.zone 1).enabled = false :=
  ⟨fun _ _ => rfl, fun _ => rfl, fun _ => rfl, by decide +kernel, rfl, rfl, rfl, by decide +kernel, rfl, rfl, by decide +kernel,
    by decide +kernel, by decide +kernel, by decide +kernel, by decide +kernel, by decide +kernel⟩

theorem witness_GeneratedFramesAreBuilt (order : List MsTask) :
    exec (.badFrame order) { mapped with portA := .locked } = .next (after (.badFrame order) { mapped with portA := .locked }) ∧
    exec (.localTimingFrame order) { mapped with portA := .lost } =
      .next (after (.localTimingFrame order) { mapped with portA := .lost }) ∧
    ({ mapped with portA := .locked } : State).portA ≠ .lost ∧ ({ mapped with portA := .lost } : State).portA ≠ .locked ∧
    mapped.cmdQueue = [] ∧ mapped.cueQueue = [] ∧ mapped.softResetFlag = false ∧ mapped.portB = .locked ∧ inService.portB ≠ .locked ∧
    inService.portA ≠ .lost ∧ inService.policy[8].mode ≠ .disabled ∧ inService.portB ≠ .lost :=
  ⟨rfl, rfl, by decide +kernel, by decide +kernel, rfl, rfl, rfl, rfl, by decide +kernel, by decide +kernel, by decide +kernel,
    by decide +kernel⟩

theorem witness_ReturnFramesCarryTheQueues :
    let s : State := replyFull { foyer with holdFlag := some .hold }
    (ret [anyRecord]).records[0]? = some anyRecord ∧ recordEmpty anyRecord = false ∧
    (ret [anyRecord]).records[23]? = some emptyRecord ∧ recordEmpty emptyRecord = true ∧
    s.cmdQueue = [] ∧ s.cueQueue = [] ∧ s.portB ≠ .lost ∧ s.portB ≠ .locked ∧ mapped.portB = .locked ∧
    (∀ r ∈ (ret [anyRecord]).records, recordFor s.node r = false) := by decide +kernel

/-- A call table with at most one call that is not FREE is sound. -/
theorem sound_of_one {s : State} (only : ∀ c, (s.call c).state ≠ .free → c = 0)
    (players : ∀ c, (s.call c).running = (s.call c).player.isSome) : s.CallsSound := by
  have busy : ∀ c, (s.call c).running = true → (s.call c).state ≠ .free := by
    intro c h e
    simp [Call.running, e] at h
  refine ⟨players, ?_, ?_⟩
  · intro c d ne hc hd
    exact absurd ((only c (busy c hc)).trans (only d (busy d hd)).symm) ne
  · intro c d _ _ ne hc hd _ _
    exact absurd ((only c hc).trans (only d hd).symm) ne

/-- An endpoint of another role at node 9 that a telemetry record at 100 ms makes PRESENT. -/
def joining (role : Role) : State :=
  modEndpoint 0 (fun r => { r with role := role, presence := .debouncing, debounceStart := some 0 }) { foyer with now := 100 }

/-- A report of STANDBY drops zone 0 from the PLAYING call that claims it alone, and the call completes; a report of OFF drops it from a
WAKING call, which goes on in zone 1. -/
theorem witness_TelemetrySetsTheEndpoint_drop :
    let s := calling playingCall foyer
    let w := calling { playingCall with state := .waking, target := 3, delivered := 3 } foyer
    let off : Record := { report with payload := padTo 12 [3] }
    (s.CallsSound ∧ s.zoneOfEndpoint 0 = some 0 ∧ (s.zone 0).active = some 0 ∧ s.claimant 0 = some 0 ∧
      powerOf (byteAt report.payload 0) = some .standby ∧ (s.call 0).state = .playing ∧
      (after (.returnFrameArrival (ret [report])) s).call 0 = {}) ∧
    (w.CallsSound ∧ w.claimant 0 = some 0 ∧ powerOf (byteAt off.payload 0) = some .off ∧
      (after (.returnFrameArrival (ret [off])) w).call 0 = (w.call 0).without 0) :=
  ⟨⟨sound_of_one (by decide +kernel) (by decide +kernel), by decide +kernel⟩,
    sound_of_one (by decide +kernel) (by decide +kernel), by decide +kernel⟩

theorem witness_TelemetrySetsTheEndpoint :
    (foyer.service = .service ∧ foyer.portB ≠ .lost ∧ foyer.cmdQueue = [] ∧ foyer.cueQueue = [] ∧
    (ret [report]).records = [] ++ report :: List.replicate 23 emptyRecord ∧
    (∀ x ∈ [] ++ List.replicate 23 emptyRecord, recordFor foyer.node x = false) ∧ recordFor foyer.node report = true ∧
    recordKind report = 5 ∧ (foyer.endpoint 0).inUse = true ∧ (foyer.endpoint 0).node = recordSource report ∧
    (∀ x, (foyer.endpoint x).inUse = true → (foyer.endpoint x).node = recordSource report → x = 0) ∧
    powerOf (byteAt report.payload 0) = some .standby ∧
    (powerOf (byteAt { report with payload := padTo 12 [4] }.payload 0) = none ∧ inService.service = .service ∧
      (∀ x, (inService.endpoint x).inUse = true → (inService.endpoint x).node ≠ recordSource report)) ∧
    (let s := joining .descTx
      let d := modDesc 0 (fun _ => { zone := some 0 }) s
      (s.endpoint 0).presence = .debouncing ∧ s.config.debounce ≤ s.now - 0 ∧ s.directives = [] ∧ s.claimant 0 = none ∧
      d.descOf 0 = some 0 ∧ (joining .usherLight |>.endpoint 0).role = .usherLight ∧ (0 : GateId).val = (s.endpoint 0).place.val) ∧
    (foyer.endpoint 0).presence = .present ∧ Power.standby ≠ ((after (.returnFrameArrival (ret [report])) foyer).endpoint 0).commanded ∧
    (foyer.endpoint 0).lastPower = none ∧
    ((modEndpoint 0 (fun r => { r with lastPower := some 0 }) { foyer with now := 100 }).endpoint 0).lastPower = some 0) ∧
    ((ret [report, { report with src := 10 }]).records[1]? = some { report with src := 10 } ∧
      recordFor foyer.node { report with src := 10 } = true ∧ recordKind { report with src := 10 } = 5) ∧
    (∀ (f : RetFrame) (s : State), ∃ u : Nat → State, u 0 = s ∧ ∀ (i : Nat) (r : Record), f.records[i]? = some r →
      u (i + 1) = if recordFor s.node r = true ∧ recordKind r = 5 then telemetry r (u i) else u i) := by
  refine ⟨by decide +kernel, by decide +kernel, fun f s => ⟨fun n => n.rec s fun k x => match f.records[k]? with
    | some r => if recordFor s.node r = true ∧ recordKind r = 5 then telemetry r x else x
    | none => x, rfl, fun i r h => ?_⟩⟩
  simp only [h]

theorem witness_EndpointTimersRunOut :
    let s : State := { foyer with now := 51 }
    let d := modEndpoint 0 (fun r => { r with presence := .debouncing }) s
    let i := modZone 0 (fun r => { r with idlePolicy := .callsOnly, idleDeadline := some 100 }) { foyer with now := 100 }
    (s.service = .service ∧ (s.endpoint 0).inUse = true ∧ (s.endpoint 0).presence = .present ∧
      (s.endpoint 0).lastTelemetry = some 0 ∧ s.config.lost < s.now - 0 ∧ s.policy[0].mode ≠ .disabled ∧
      (d.endpoint 0).presence = .debouncing ∧ ({ s with now := 50 } : State).now - 0 ≤ s.config.lost ∧
      (s.endpoint 2).inUse = false ∧ s.zoneOfEndpoint 0 = some 0 ∧ (s.zone 0).active = some 0 ∧
      (modLoop 0 (fun _ => boundLoop) s).loopOf 0 = some 0) ∧
    (i.zone 0).idleDeadline = some 100 ∧ i.service = .service ∧ 100 ≤ i.now ∧ ({ i with now := 99 } : State).now < 100 ∧
    (i.zone 0).enabled = true ∧ (i.zone 0).idlePolicy = .callsOnly ∧ (i.zone 0).suspended = false ∧ (i.zone 0).testMode = .none ∧
    i.claimant 0 = none ∧ (i.zone 0).active = some 0 ∧ (i.endpoint 0).inUse = true ∧ (i.endpoint 0).role ≠ .usherLight ∧
    (i.endpoint 0).place = 0 := by decide +kernel

/-- The foyer with a WAKING call on zone 0, whose amplifier reports STANDBY, and the wake deadline 400. -/
def waking : State :=
  calling { playingCall with state := .waking, wake := Vector.replicate 32 (some 400) }
    (modEndpoint 0 (fun r => { r with reported := .standby }) foyer)

theorem witness_WakingCallIsExamined :
    let s : State := { waking with now := 400 }
    (s.service = .service ∧ (s.call 0).state = .waking ∧ (s.call 0).delivered = BitVec.twoPow 32 (0 : ZoneId).val ∧
      s.awake 0 = false ∧ (s.call 0).wake[(0 : ZoneId)] = some 400 ∧ 400 ≤ s.now ∧ ({ s with now := 399 } : State).now < 400 ∧
      (s.zone 0).active = some 0 ∧ s.policy[1].mode = .report ∧ (∀ e, (s.fault (wakeFailedRef e)).lastRecovery = none)) ∧
    ((calling { playingCall with state := .waking } foyer).awake 0 = true ∧ playingCall.delivered ≠ 0 ∧
      (∀ z : ZoneId, playingCall.delivered.getLsbD z.val = true → z = 0)) ∧
    let m := calling { playingCall with state := .waking, delivered := 3, wake := (Vector.replicate 32 none).set 0 (some 400) } s
    (∀ z : ZoneId, (1 : ZoneSet).getLsbD z.val = true ↔ (m.call 0).delivered.getLsbD z.val = true ∧ m.awake z = false ∧
      ((m.call 0).wake[z].map fun d => decide (d ≤ m.now)) = some true) ∧
    (∀ z : ZoneId, (2 : ZoneSet).getLsbD z.val = true ↔ (m.call 0).delivered.getLsbD z.val = true ∧ m.awake z = false ∧
      (m.call 0).wake[z] = none) ∧ (m.call 0).delivered &&& ~~~ 1 = 2 := by decide +kernel

theorem witness_CallsEndOnTime :
    let tail := calling { playingCall with state := .tail } foyer
    let pending := { calling waitingCall foyer with now := 30000 }
    let live := calling { liveCall with liveElapsed := 60000 } foyer
    (tail.service = .service ∧ (tail.call 0).origin = .external 2 ∧ (tail.call 0).state = .tail ∧ (tail.call 0).tailRemaining = 0 ∧
      (pending.call 0).state = .pending ∧ (pending.call 0).origin = .external 2 ∧
      pending.config.pendingMax * 1000 ≤ pending.now - (pending.call 0).pendingSince ∧ 29999 - 0 < pending.config.pendingMax * 1000 ∧
      (calling { playingCall with state := .tail, tailRemaining := 1 } foyer |>.call 0).tailRemaining ≠ 0) ∧
    (live.call 0).state = .playing ∧ (live.call 0).source = .live 50 none ∧ live.config.tailTime ≠ 0 ∧ live.service = .service ∧
    live.config.liveMax * 1000 ≤ (live.call 0).liveElapsed ∧ (live.call 0).liveBegun = true ∧ 59999 < live.config.liveMax * 1000 ∧
    (live.call 1).state ≠ .playing ∧ ({ live with config := { live.config with tailTime := 0 } } : State).config.tailTime = 0 ∧
    (live.call 0).origin = .external 2 := by decide +kernel

theorem witness_FaultTimersRunOut :
    let s := setFault (openLoopRef 0) { escalation := 2, lastRecovery := some 0 } { foyer with now := 10000 }
    let t := setFault (ampThermalRef 0) (retrying 0 false) foyer
    (s.fault (openLoopRef 0)).state = .clear ∧ (s.fault (openLoopRef 0)).lastRecovery = some 0 ∧ 10000 ≤ s.now - 0 ∧
    ({ s with now := 9999 } : State).now - 0 < 10000 ∧ (t.fault (ampThermalRef 0)).state = .retryWait ∧
    (t.fault (ampThermalRef 0)).inForce = some { mode := .retry, action := .mute, retryTime := 10 } ∧
    (t.fault (ampThermalRef 0)).retryRemaining = some 0 ∧ (t.fault (ampThermalRef 0)).lastPresent = false ∧
    t.zoneConcerned (ampThermalRef 0) = some 0 ∧ ((retrying 1 true).retryRemaining = some 1 ∧ (1 : Nat) ≠ 0) := by decide +kernel

/-- A part at 10,000 ms with every timer of a frame in some place: silent endpoint 0, an idle deadline, an OPEN gate, fault records that wait
and have recovered, and four calls. -/
def timed : State :=
  { setFault (ampThermalRef 1) (retrying 1 false) (setFault (supplyLowRef 1) (retrying 2 false)
      (modGate 1 (fun r => { r with state := .open_, windowDeadline := some 10001 })
        (modZone 0 (fun r => { r with idlePolicy := .callsOnly, idleDeadline := some 10001 }) foyer))) with
    now := 10000
    calls := (((((Vector.replicate 16 ({} : Call)).set 0 { playingCall with state := .tail }).set 1
      { waitingCall with tag := 1, state := .tail, tailRemaining := 1, player := some 1 }).set 2 { waitingCall with tag := 2 }).set 3
      { waitingCall with tag := 3, state := .playing, player := some 2, plays := 1 }).set 4
      { liveCall with tag := 4, delivered := 0, player := some 3 } }

theorem witness_FramesRunTheTimers (order : List MsTask) :
    exec (.downstreamFrameArrival (down []) order) timed = .next (after (.downstreamFrameArrival (down []) order) timed) ∧
    exec (.portASilence order) timed = .next (after (.portASilence order) timed) ∧
    (timed.service = .service ∧ timed.cmdQueue = [] ∧ timed.cueQueue = [] ∧ timed.softResetFlag = false ∧ timed.portA ≠ .lost ∧
      ∀ r ∈ (down []).records, recordFor timed.node r = false) ∧
    ((timed.endpoint 0).inUse = true ∧ (timed.endpoint 0).presence ≠ .absent ∧ (timed.endpoint 0).lastTelemetry = some 0 ∧
      timed.config.lost < 10001 - 0 ∧ (timed.endpoint 2).inUse = false) ∧
    (1 ≤ (timed.zone 0).idleTime ∧ (timed.zone 0).idleDeadline = some 10001 ∧ (∀ x, (foyer.call x).state = .free)) ∧
    ((timed.gate 1).state = .open_ ∧ (timed.gate 1).windowDeadline = some 10001 ∧ 10001 ≤ 10001 ∧ (timed.gate 0).state ≠ .open_) ∧
    ((timed.fault (supplyLowRef 1)).state = .retryWait ∧ (timed.fault (supplyLowRef 1)).retryRemaining = some 2 ∧
      (timed.fault (ampThermalRef 1)).retryRemaining = some 1 ∧ (timed.fault (ampThermalRef 1)).inForce.isSome = true) ∧
    ((timed.call 0).state = .tail ∧ (timed.call 0).tailRemaining = 0 ∧ (timed.call 1).tailRemaining = 0 + 1 ∧
      (timed.call 2).state = .pending ∧ ({ timed with now := 30000 } : State).config.pendingMax * 1000 ≤ 30000 + 1 - 0 ∧
      (timed.call 3).state = .playing ∧ (timed.call 3).source = .stored [3] 1 ∧ 1 ≤ (timed.call 3).plays ∧
      (timed.call 4).source = .live 50 none ∧ (timed.call 4).liveBegun = true) :=
  ⟨rfl, rfl, by decide +kernel, by decide +kernel, by decide +kernel, by decide +kernel, by decide +kernel, by decide +kernel⟩

theorem playing_sound : (calling playingCall foyer).CallsSound := sound_of_one (by decide +kernel) (by decide +kernel)

theorem waiting_sound : (calling waitingCall foyer).CallsSound := sound_of_one (by decide +kernel) (by decide +kernel)

theorem witness_ZoneConditionsFollowTheirRules :
    let s := calling playingCall foyer
    let swapped := modZone 0 (fun r => { r with side := .standby }) s
    s.CallsSound ∧ (s.zone 0).side = .primary ∧ (swapped.zone 0).side = .standby ∧ (s.zone 1).active = none ∧
    (s.zone 0).active = some 0 ∧
    (((setFault (supplyLowRef 0) latched s).fault (.endpoint 0 5)).state = .latched ∧ latched.inForce = some ⟨.latched, .mute, 10⟩) ∧
    (s.fault (.endpoint 0 5)).state = .clear :=
  ⟨playing_sound, by decide +kernel⟩

theorem witness_CommandedPowerIsWorkedOutAndIssued :
    let idle := modZone 0 (fun r => { r with idlePolicy := .callsOnly, idleDeadline := some 5 }) foyer
    let late := { idle with now := 5 }
    let light := modEndpoint 0 (fun r => { r with role := .usherLight }) foyer
    (checked.service = .configuration ∧ foyer.service = .service ∧ (light.endpoint 0).role = .usherLight ∧
      (foyer.endpoint 0).role ≠ .usherLight ∧ (foyer.zone 1).enabled = false ∧ (foyer.zone 0).enabled = true ∧
      (foyer.zone 0).active ≠ some 1 ∧ (foyer.zone 0).active = some 0 ∧
      ((modZone 0 (fun r => { r with suspended := true }) foyer).zone 0).suspended = true ∧ (foyer.zone 0).idlePolicy = .alwaysOn ∧
      (idle.zone 0).idlePolicy = .callsOnly ∧ idle.now < 5 ∧ late.claimant 0 = none ∧ 5 ≤ late.now) ∧
    (foyer.commandedPower 0 = (foyer.endpoint 0).commanded ∧ (late.endpoint 0).inUse = true ∧
      late.commandedPower 0 ≠ (late.endpoint 0).commanded ∧ (late.endpoint 0).presence = .present ∧
      ((modEndpoint 0 (fun r => { r with presence := .absent }) late).endpoint 0).presence ≠ .present) ∧
    ([] ++ ({ endpoint := 0, code := .power, dest := 9, value := 0 } : Directive) :: []).map Directive.key = [(0, .power)] := by
  decide +kernel

theorem witness_ObservationsCountAndRaise :
    let s := setFault (overcurrentRef 0) { state := .counting, deglitch := 2 } foyer
    foyer.policy[policyIndex (agcSaturatedRef 0)].mode = .disabled ∧ foyer.policy[policyIndex (overcurrentRef 0)].mode ≠ .disabled ∧
    latched.state = .latched ∧ (s.fault (overcurrentRef 0)).state = .counting ∧
    1 + 1 < (s.policy[policyIndex (overcurrentRef 0)]).deglitch ∧ (s.policy[policyIndex (overcurrentRef 0)]).deglitch ≤ 2 + 1 ∧
    (s.fault (overcurrentRef 0)).lastRecovery = none ∧ (9999 : Nat) - 0 < 10000 ∧ ¬ (10000 : Nat) - 0 < 10000 ∧
    (({ state := .clear, escalation := 2, lastRecovery := some 0 } : FaultRecord).lastRecovery = some 0 ∧ ¬ 3 ≤ 2 ∧ 3 ≤ 3) := by decide +kernel

/-- ENDPOINT_LOST of the active endpoint of a zone with a spare makes a swap; WAKE_FAILED only reports; OVERCURRENT mutes. -/
theorem witness_RaisesReportSwapAndProtect :
    let s := foyer
    (∀ f ∈ [endpointLostRef 0, wakeFailedRef 0, ampThermalRef 0], s.policy[policyIndex f].mode ≠ .disabled ∧
      (s.fault f).state = .clear ∧ s.policy[policyIndex f].deglitch ≤ (s.fault f).deglitch + 1 ∧ (s.fault f).lastRecovery = none) ∧
    ((s.policy[policyIndex (endpointLostRef 0)]).mode = .retry ∧ (s.policy[policyIndex (endpointLostRef 0)]).action = .swap ∧
      s.service = .service ∧ endpointLostRef 0 = .endpoint 0 0 ∧ (s.endpoint 0).inUse = true ∧ (s.endpoint 0).role ≠ .usherLight ∧
      (s.zone (s.endpoint 0).place).enabled = true ∧ (s.zone (s.endpoint 0).place).active = some 0 ∧
      (s.zone (s.endpoint 0).place).standby.isSome = true ∧ (s.zone (s.endpoint 0).place).other = some 1 ∧ (1 : EndpointId) ≠ 0 ∧
      (s.endpoint 1).presence = .present ∧ ∀ j, (s.fault (.endpoint 1 j)).state.actionable = false) ∧
    (s.policy[policyIndex (wakeFailedRef 0)]).mode = .report ∧ (s.policy[policyIndex (ampThermalRef 0)]).action ≠ .swap ∧
    s.zoneConcerned (ampThermalRef 0) = some 0 ∧ (s.zone 0).protection ≠ .muted ∧ s.zoneConcerned (endpointLostRef 0) = some 0 ∧
    (modLoop 0 (fun _ => boundLoop) s).loopOf 0 = some 0 := by decide +kernel

theorem witness_BusesAreExactSumsRoundedOnce :
    (∀ i : Fin 64, (slotOf (List.replicate 64 (List.replicate 48 (-8388608 : Int))) i).length = 48) ∧ (47 : Nat) < 48 ∧
    ∀ (routes : Vector Route 128) (ing : List (List Int)) (b : Fin 32), ∃ acc : Nat → Int,
      ∀ n, acc n = ((List.finRange 128).map fun i =>
        if routes[i].inUse = true ∧ routes[i].bus = b then (slotOf ing routes[i].slot).getD n 0 * (routes[i].gain : Int) else 0).sum :=
  ⟨by decide +kernel, by decide, fun _ _ _ => ⟨_, fun _ => rfl⟩⟩

theorem witness_GainsSlewAndRampTowardTheirTargets : (47 : Nat) < 48 ∧ (0 : Nat) < 65535 := by decide

theorem witness_ZoneChainFormsTheSentSamples :
    let desc := modDesc 0 (fun _ => { zone := some 0 }) (modZone 0 (fun r => { r with kind := .desc }) foyer)
    let loop := modLoop 0 (fun _ => { zone := some 0 }) (modZone 0 (fun r => { r with kind := .loop }) foyer)
    let claimed : HandOff := { HandOff.silent with claims := some (.playing, 3) :: List.replicate 31 none }
    (foyer.zone 0).protection ≠ .muted ∧ (foyer.zone 0).testMode = .none ∧ (foyer.zone 0).kind ≠ .desc ∧ (foyer.zone 0).kind ≠ .loop ∧
    (desc.zone 0).kind = .desc ∧ desc.descOf 0 = some 0 ∧ (loop.zone 0).kind = .loop ∧ loop.loopOf 0 = some 0 ∧
    HandOff.silent.claim 0 = none ∧ claimed.claim 0 = some (.playing, 3) ∧
    ((modZone 0 (fun r => { r with protection := .muted }) foyer).zone 0).protection = .muted ∧
    ((modZone 0 (fun r => { r with testMode := .tone, testLevel := 65535 }) foyer).zone 0).testMode = .tone ∧
    ((modZone 0 (fun r => { r with testMode := .noise }) foyer).zone 0).testMode = .noise ∧
    ((modZone 0 (fun r => { r with testMode := .silence }) foyer).zone 0).testMode = .silence := by decide +kernel

/-- The foyer as a LOOP zone with its record. -/
def looped : State :=
  modLoop 0 (fun _ => boundLoop) (modEndpoint 0 (fun r => { r with role := .loopAmp, current := some 149 })
    (modZone 0 (fun r => { r with kind := .loop }) foyer))

/-- The foyer as a DESC zone with its record. -/
def described : State := modDesc 0 (fun _ => { zone := some 0 }) (modZone 0 (fun r => { r with kind := .desc }) foyer)

theorem witness_AgcAndVoxStep :
    (let s := modLoop 0 (fun _ => boundLoop) foyer
     let hot := modEndpoint 0 (fun r => { r with current := some 6001 }) s
     boundLoop.agcMin ≤ boundLoop.agc ∧ boundLoop.agc ≤ boundLoop.agcMax ∧ (s.zone 0).protection ≠ .muted ∧
     (s.zone 0).testMode = .none ∧ s.overLimit 0 boundLoop = false ∧ hot.overLimit 0 boundLoop = true ∧
     boundLoop.target < 4194305 ∧ 3145727 + boundLoop.window < boundLoop.target ∧ 4194304 ≤ boundLoop.target ∧
     boundLoop.target ≤ 3145728 + boundLoop.window ∧ ((modZone 0 (fun r => { r with protection := .muted }) s).zone 0).protection =
       .muted ∧ ({} : DescRecord).onThreshold ≤ 524288 ∧ 524287 < ({} : DescRecord).onThreshold ∧
     ({ voxActive := true } : DescRecord).voxActive = true ∧ 262143 < ({ voxActive := true } : DescRecord).offThreshold) ∧
    (looped.service = .service ∧ looped.cmdQueue = [] ∧ looped.cueQueue = [] ∧ looped.softResetFlag = false ∧ looped.portA ≠ .lost ∧
      (∀ r ∈ (down []).records, recordFor looped.node r = false) ∧
      (after (.downstreamFrameArrival (down []) allTasks) looped).txB.isSome = true) ∧
    (let v := (millisecond 5 (List.replicate 64 (List.replicate 48 0)) allTasks { looped with portA := .locked }).1
     (v.zone 0).enabled = true ∧ (v.zone 0).kind = .loop ∧ v.loopOf 0 = some 0 ∧ ∀ z, v.loopOf z ≠ some 1) ∧
    (let v := (millisecond 5 (List.replicate 64 (List.replicate 48 0)) allTasks { described with portA := .locked }).1
     (v.zone 0).enabled = true ∧ (v.zone 0).kind = .desc ∧ v.descOf 0 = some 0 ∧ ∀ z, v.descOf z ≠ some 1) := by
  refine ⟨?_, ?_, ?_, ?_⟩ <;> decide +kernel

theorem witness_LoopReportsFollowTheirTables :
    ((looped.zone 0).active ≠ some 1 ∧ (looped.zone 1).enabled = false) ∧
    ((looped.zone 0).enabled = true ∧ (looped.zone 0).active = some 0 ∧ (looped.zone 0).kind = .loop ∧ looped.loopOf 0 = some 0 ∧
      (looped.zone 0).protection ≠ .muted ∧ (looped.zone 0).testMode = .none ∧
      ((modZone 0 (fun r => { r with testMode := .tone }) looped).zone 0).testMode ≠ .none) ∧
    ((looped.endpoint 0).current = some 149 ∧ 149 < boundLoop.openCurrent ∧ boundLoop.openCurrent ≤ 150 ∧
      262143 < boundLoop.openSignal ∧ boundLoop.openSignal ≤ 262144 ∧ boundLoop.candidate = none ∧
      boundLoop.openTime ≤ 500 - 0 ∧ (foyer.endpoint 0).current = none) ∧
    (looped.service = .service ∧ looped.cmdQueue = [] ∧ looped.cueQueue = [] ∧
      (ret [report]).records = [] ++ report :: List.replicate 23 emptyRecord ∧
      (∀ x ∈ [] ++ List.replicate 23 emptyRecord, recordFor looped.node x = false) ∧ recordFor looped.node report = true ∧
      recordKind report = 5 ∧ (looped.endpoint 0).inUse = true ∧ (looped.endpoint 0).node = recordSource report ∧
      (∀ x, (looped.endpoint x).inUse = true → (looped.endpoint x).node = recordSource report → x = 0) ∧
      powerOf (byteAt report.payload 0) = some .standby ∧ (looped.endpoint 0).presence = .present ∧ (looped.endpoint 0).place = 0 ∧
      (looped.endpoint 0).role = .loopAmp ∧ (foyer.endpoint 0).role ≠ .loopAmp ∧ looped.policy[2].mode ≠ .disabled ∧
      looped.policy[3].mode ≠ .disabled ∧ looped.policy[4].mode ≠ .disabled ∧ looped.policy[5].mode ≠ .disabled) := by decide +kernel

/-- A row of a timer that has nothing to do leaves a state as it is. -/
theorem rows_rest {s : State} (h : ∀ c : CallId, tailTest c s = s ∧ endOfAudioTest c s = s ∧ wakingTest c s = s ∧ pendingTest c s = s)
    (c : CallId) : exec (.tailEnd c) s = .next s ∧ s = endOfAudioTest c s ∧ exec (.wakeDeadlineExpiry c) s = .next s ∧
      exec (.pendingExpiry c) s = .next s := by
  obtain ⟨a, b, d, e⟩ := h c
  have rest : ∀ f : State → State, f s = s → Host.Outcome.next (Machine.inService f s) = (.next s : Host.Outcome State Fault Refusal) := by
    intro f hf
    unfold Machine.inService
    split <;> simp [hf]
  exact ⟨rest _ a, b.symm, rest _ d, rest _ e⟩

/-- The boundary of the foyer with one waiting call, which the walk dispatches. -/
theorem witness_FrameBoundaryMakesItsExamination :
    let s := calling waitingCall foyer
    let u : Nat → State := fun _ => s
    let w : Nat → State × ZoneSet := fun k => if k = 0 then (s, 0) else dispatchCall 0 0 s
    (checked.service = .configuration ∧ s.service = .service) ∧
    (∀ c : CallId, exec (.tailEnd c) (u c.val) = .next (u (c.val + 1)) ∧ u (c.val + 17) = endOfAudioTest c (u (c.val + 16)) ∧
      exec (.wakeDeadlineExpiry c) (u (c.val + 32)) = .next (u (c.val + 33)) ∧
      exec (.pendingExpiry c) (u (c.val + 48)) = .next (u (c.val + 49))) ∧
    (w 0 = (u 64, 0) ∧ ((w 0).1.call 0).state = .pending ∧ w 1 = dispatchCall 0 (w 0).2 (w 0).1) ∧
    ((∀ d, d ≠ 0 → ((w 0).1.call d).state ≠ .pending) ∧ ∀ d, ((w 1).1.call d).state ≠ .pending) ∧
    ((calling { playingCall with plays := 1 } foyer).call 0).source = .stored [3] 1 ∧ 1 ≤ ({ playingCall with plays := 1 } : Call).plays ∧
    s.config.tailTime ≠ 0 ∧ ({ liveCall with outcome := some .sourceLost } : Call).outcome = some .sourceLost ∧
    s.config.liveMax * 1000 ≤ ({ liveCall with liveElapsed := 60000 } : Call).liveElapsed :=
  ⟨by decide +kernel, rows_rest (by decide +kernel), ⟨rfl, by decide +kernel, rfl⟩, by decide +kernel, by decide +kernel, by decide +kernel,
    by decide +kernel, by decide +kernel, by decide +kernel⟩

/-- Four running calls of low priority and a waiting one that claims nothing yet. -/
def crowded : State :=
  { foyer with calls := Vector.ofFn fun c =>
      if h : c.val < 4 then { playingCall with tag := BitVec.ofNat 8 c.val, priority := c.val, player := some ⟨c.val, h⟩
                                               delivered := if c.val = 0 then 1 else 0, startOrder := some (BitVec.ofNat 32 c.val) }
      else if c = 4 then { waitingCall with tag := 4 } else {} }

theorem crowded_sound : crowded.CallsSound := by
  have tags : ∀ c d : CallId, c ≠ d → (crowded.call c).state ≠ .free → (crowded.call d).state ≠ .free →
      (crowded.call c).tag ≠ (crowded.call d).tag := by decide +kernel
  exact ⟨by decide +kernel, by decide +kernel, fun c d _ _ ne hc hd _ _ => tags c d ne hc hd⟩

theorem witness_DispatchClaimsAndPreemptionReleases :
    let s := calling waitingCall foyer
    (s.CallsSound ∧ (s.call 0).state = .pending ∧
      (∀ z : ZoneId, (1 : ZoneSet).getLsbD z.val = true ↔ (s.call 0).target.getLsbD z.val = true ∧ s.deliverable z = true) ∧
      (∀ d, (s.call d).running = false) ∧ (∀ z : ZoneId, (1 : ZoneSet).getLsbD z.val = true → (0 : ZoneSet).getLsbD z.val = false) ∧
      s.claimant 0 = none ∧ s.awake 0 = true) ∧
    ((calling waitingCall inService).deliverable 0 = false ∧ (s.call 0).origin = .external 2) ∧
    (crowded.CallsSound ∧ (crowded.call 4).state = .pending ∧ crowded.claimant 0 = some 0 ∧
      (∀ z : ZoneId, (1 : ZoneSet).getLsbD z.val = true ↔ (crowded.call 4).target.getLsbD z.val = true ∧ crowded.deliverable z = true) ∧
      (crowded.call 0).priority < (crowded.call 4).priority ∧ (∀ p, ∃ x, (crowded.call x).running = true ∧ (crowded.call x).player = some p) ∧
      (crowded.call 0).running = true ∧ (crowded.call 0).player = some 0 ∧ (∀ z : ZoneId, (1 : ZoneSet).getLsbD z.val = true → z = 0) ∧
      (∀ x, x ≠ 0 → (crowded.call x).running = true → (crowded.call 0).priority < (crowded.call x).priority)) ∧
    (playingCall.state = .playing ∧ playingCall.source.isStored = true ∧ ({ playingCall with retain := true, requeue := 1 } : Call).retain ∧
      playingCall.origin = .external 2 ∧ playingCall.retain = false ∧ liveCall.source.isStored = false ∧ (2 : Nat) ≤ 2) :=
  ⟨⟨waiting_sound, by decide +kernel⟩, by decide +kernel, ⟨crowded_sound, by decide +kernel⟩, rfl, rfl, rfl, rfl, rfl, rfl,
    Nat.le_refl 2⟩

/-- A STORED call, a LIVE call and a LIVE call in its pre-message at the hand-off, the second while port A is LOST. -/
theorem witness_PlayersFormTheirBlocks :
    let s := setMessage 3 (.valid 0 49) (calling playingCall foyer)
    let pre := setMessage 3 (.valid 0 49) (calling { liveCall with source := .live 63 (some 3), liveBegun := false } foyer)
    let lost := { pre with portA := .lost }
    (s.CallsSound ∧ (s.call 0).state = .playing ∧ (s.call 0).player = some 0 ∧ (s.call 0).source = .stored [3] 1 ∧ (s.call 0).plays < 1 ∧
      s.messages[(3 : MessageId)].extent = some (0, 49, 49) ∧ [(3 : MessageId)][(s.call 0).position]? = some 3 ∧ (s.call 0).offset < 49 ∧
      s.portA ≠ .lost ∧ (s.call 1).state = .free) ∧
    (pre.CallsSound ∧ (pre.call 0).source = .live 63 (some 3) ∧ ((pre.call 0).position = 0 ∧ (pre.call 0).offset < 49) ∧ 48 ≤ 49 - 0) ∧
    ((calling { liveCall with source := .live 63 (some 3), offset := 2 } lost |>.call 0).offset < 49 ∧ 49 - 2 < 48 ∧ lost.portA = .lost ∧
      (pre.call 0).liveBegun = false ∧ (calling liveCall foyer).CallsSound ∧ liveCall.source = .live 50 none) := by
  refine ⟨⟨sound_of_one (by decide +kernel) (by decide +kernel), by decide +kernel⟩,
    ⟨sound_of_one (by decide +kernel) (by decide +kernel), by decide +kernel⟩, by decide +kernel, by decide +kernel, by decide +kernel,
    by decide +kernel, sound_of_one (by decide +kernel) (by decide +kernel), rfl⟩

theorem witness_CommitIsRefusedAtItsFirstFailure :
    let c : Instr := .commit 2 7
    let s := taking c (modZone 3 (fun r => { r with enabled := true }) checked)
    let e := taking c (modEndpoint 2 (fun _ => { amp with node := 11 }) checked)
    let g := taking c (modZone 1 (fun r => { r with kind := .loop }) (modGate 1 (fun r => { r with mask := 2 }) checked))
    (taking c foyer).commandReady c 2 ∧ foyer.service = .service ∧ s.commandReady c 2 ∧ s.service = .configuration ∧
    (s.zone 3).enabled = true ∧ s.zoneReady 3 = false ∧ (∀ y, y < 3 → (s.zone y).enabled = true → s.zoneReady y = true) ∧
    e.commandReady c 2 ∧ (∀ z, (e.zone z).enabled = true → e.zoneReady z = true) ∧ (e.endpoint 2).inUse = true ∧
    (e.endpoint 2).role ≠ .usherLight ∧ e.endpointListed 2 = false ∧
    (∀ y, y < 2 → (e.endpoint y).inUse = true → (e.endpoint y).role ≠ .usherLight → e.endpointListed y = true) ∧
    g.commandReady c 2 ∧ (∀ z, (g.zone z).enabled = true → g.zoneReady z = true) ∧
    (∀ e : EndpointId, (g.endpoint e).inUse = true → (g.endpoint e).role ≠ .usherLight → g.endpointListed e = true) ∧
    g.admissionMaskOk (g.gate 1).mask = false ∧ (∀ y, y < 1 → g.admissionMaskOk (g.gate y).mask = true) := by decide +kernel

theorem witness_CommitStartsTheServices :
    let s := taking (.commit 2 7) (modLoop 0 (fun _ => boundLoop) (modZone 0 (fun r => { r with kind := .loop })
      (modEndpoint 1 (fun r => { r with role := .loopAmp }) (modEndpoint 0 (fun r => { r with role := .loopAmp }) checked))))
    let d := modDesc 0 (fun _ => { zone := some 0 }) (modZone 0 (fun r => { r with kind := .desc }) checked)
    s.commandReady (.commit 2 7) 2 ∧ s.service = .configuration ∧ (∀ z, (s.zone z).enabled = true → s.zoneReady z = true) ∧
    (∀ e : EndpointId, (s.endpoint e).inUse = true → (s.endpoint e).role ≠ .usherLight → s.endpointListed e = true) ∧
    (∀ g : GateId, s.admissionMaskOk (s.gate g).mask = true) ∧ (s.zone 0).kind = .loop ∧ s.loopOf 0 = some 0 ∧
    (d.zone 0).kind = .desc ∧ d.descOf 0 = some 0 ∧
    (s.zone 0).enabled = true ∧ (s.zone 1).enabled = false ∧ s.loops[(1 : ParamId)].zone = none ∧ s.descs[(0 : ParamId)].zone = none := by
  decide +kernel

/-- The foyer with a PLAYING call, gate 1 OPEN, and endpoint 2 its usher light, which is not PRESENT. -/
def lighted : State :=
  modEndpoint 2 (fun r => { r with inUse := true, node := 11, role := .usherLight, place := 1 })
    (modGate 1 (fun r => { r with state := .open_, windowDeadline := some 90000 }) (calling playingCall foyer))

/-- The state with the event that the completion of a call by RECONFIGURE queues. -/
def reported (s : State) (c : CallId) (x : State) : State :=
  let r := s.call c
  let delivered := if r.state = .pending then 0 else r.delivered
  let missed := if r.state = .pending then r.target else r.missed
  { x with events := if r.state = .free then x.events else match r.origin with
    | .external n => x.eventsWith n (s.completionEvent n r.tag .cancelled delivered missed)
    | .gate g => x.eventsWith s.config.eventNode (s.admissionEvent g .cancelled delivered missed) }

theorem witness_ReconfigureStopsTheServices :
    (taking (.reconfigure 2 7) checked).commandReady (.reconfigure 2 7) 2 ∧ checked.service = .configuration ∧
    (taking (.reconfigure 2 7) (calling playingCall foyer)).commandReady (.reconfigure 2 7) 2 ∧ foyer.service = .service ∧
    ((taking (.reconfigure 2 7) lighted).commandReady (.reconfigure 2 7) 2 ∧ lighted.service = .service ∧
      (lighted.gate 1).state = .open_ ∧ (lighted.endpoint 2).inUse = true ∧ (lighted.endpoint 2).role = .usherLight ∧
      (lighted.endpoint 2).place.val = (1 : GateId).val) ∧
    (∀ s : State, ∃ q : Nat → State, q 0 = s ∧ ∀ (c : CallId) (r : Call) (delivered missed : ZoneSet), r = s.call c →
      delivered = (if r.state = .pending then 0 else r.delivered) → missed = (if r.state = .pending then r.target else r.missed) →
      q (c.val + 1) = { q c.val with events := if r.state = .free then (q c.val).events else match r.origin with
        | .external n => (q c.val).eventsWith n (s.completionEvent n r.tag .cancelled delivered missed)
        | .gate g => (q c.val).eventsWith s.config.eventNode (s.admissionEvent g .cancelled delivered missed) }) := by
  refine ⟨by decide +kernel, by decide +kernel, by decide +kernel, by decide +kernel, by decide +kernel, fun s =>
    ⟨fun n => n.rec s fun k x => if h : k < 16 then reported s ⟨k, h⟩ x else x, rfl, ?_⟩⟩
  rintro c _ _ _ rfl rfl rfl
  exact dif_pos c.isLt

theorem witness_ReadsAnswerAndChangeNothing :
    let c : Instr := .statusRead 2 7 4 1 0 1
    let k : Instr := .tableRead 2 7 3 31 2 0
    (taking c foyer).commandReady c 2 ∧
    ((leaveCommand (taking c foyer)).statusLayout 4 1 0).toOption.isSome = true ∧
    (taking k foyer).commandReady k 2 ∧ tableOf 3 = some .loop ∧ (tableRange .loop).2 = 31 ∧ lastGroup .loop = 3 ∧
    tableOf 8 = some .config ∧ (tableRange .policy).1 = 1 ∧ (9 : Byte).toNat ≥ 9 ∧
    (taking (.statusRead 2 7 8 0 0 0) foyer).commandReady (.statusRead 2 7 8 0 0 0) 2 ∧
    (taking (.statusRead 2 7 0 31 0 0) foyer).commandReady (.statusRead 2 7 0 31 0 0) 2 ∧
    (taking (.statusRead 2 7 6 48 1 0) looped).commandReady (.statusRead 2 7 6 48 1 0) 2 ∧
    (taking (.statusRead 2 7 7 1 7 0) looped).commandReady (.statusRead 2 7 7 1 7 0) 2 ∧ looped.loopOf 1 = none ∧
    (taking (.statusRead 2 7 7 0 6 0) looped).commandReady (.statusRead 2 7 7 0 6 0) 2 ∧ looped.loopOf 0 = some 0 ∧
    described.descOf 0 = some 0 ∧ (looped.call 0).state = .free ∧ ((calling liveCall foyer).call 0).state ≠ .free := by decide +kernel

theorem witness_ClearFaultsExchangesTheFlags :
    let c : Instr := .clearFaults 2 7 5 0 0x0400
    let s := taking c (setFault (supplyLowRef 0) latched foyer)
    s.commandReady c 2 ∧ (selectorOf 5 0).toOption = some .all ∧ (selectorOf 1 47).toOption.isSome = true ∧
    (0x0400 : BitVec 16).toNat % 2048 ≠ 0 ∧ (0xF800 : BitVec 16).toNat % 2048 = 0 ∧
    (taking (.clearFaults 2 7 6 0 1) foyer).commandReady (.clearFaults 2 7 6 0 1) 2 ∧
    (taking (.clearFaults 2 7 1 48 1) foyer).commandReady (.clearFaults 2 7 1 48 1) 2 ∧
    (taking (.clearFaults 2 7 2 32 1) foyer).commandReady (.clearFaults 2 7 2 32 1) 2 ∧
    s.chosen .all 0x0020 (supplyLowRef 0) = true ∧ s.chosen .all 0x0400 (supplyLowRef 0) = false ∧
    (s.zone 0).active = some 0 ∧ (s.fault (supplyLowRef 0)).state = .latched ∧ (s.fault (supplyLowRef 0)).lastPresent = false := by decide +kernel

theorem witness_TestSetsModeAndLevel :
    (taking (.test 2 7 3 0 1) foyer).commandReady (.test 2 7 3 0 1) 2 ∧ foyer.service = .service ∧ checked.service = .configuration ∧
    testModeOf 3 = some .noise ∧ (∀ z : ZoneId, (1 : ZoneSet).getLsbD z.val = true → (foyer.zone z).enabled = true) ∧
    (taking (.test 2 7 4 0 1) foyer).commandReady (.test 2 7 4 0 1) 2 ∧
    (0x80000000 : ZoneSet).getLsbD (31 : ZoneId).val = true ∧ (foyer.zone 31).enabled = false ∧
    (taking (.test 2 7 3 0 1) looped).commandReady (.test 2 7 3 0 1) 2 ∧ looped.loopOf 0 = some 0 := by decide +kernel

/-- TEST drops zone 0 from a call that claims it alone and from one that goes on in zone 1, and commands a CALLS_ONLY zone ACTIVE. -/
theorem witness_TestSetsModeAndLevel_call :
    let c : Instr := .test 2 7 3 0 1
    let s := calling playingCall foyer
    let w := calling { playingCall with target := 3, delivered := 3 } foyer
    let idle := modZone 0 (fun r => { r with idlePolicy := .callsOnly })
      (modEndpoint 0 (fun r => { r with commanded := .standby }) foyer)
    (s.CallsSound ∧ w.CallsSound) ∧ (took c s).call 0 = {} ∧ (took c w).call 0 = (w.call 0).without 0 ∧
    ¬ ((idle.zone 0).testMode = .none ↔ TestMode.noise = .none) ∧ ((took c idle).endpoint 0).commanded = .active ∧
    (idle.endpoint 0).presence = .present ∧ (idle.endpoint 0).commanded ≠ .active :=
  ⟨⟨playing_sound, sound_of_one (by decide +kernel) (by decide +kernel)⟩, by decide +kernel⟩

theorem witness_SuspendSetsTheFlag :
    let c : Instr := .suspend 2 7 0 1
    let s := taking c (calling playingCall foyer)
    s.commandReady c 2 ∧ s.service = .service ∧ checked.service = .configuration ∧ (0 : ZoneId).val = (0 : Byte).toNat ∧
    (s.zone 0).enabled = true ∧ flagOf 1 = some true ∧ (s.zone 0).suspended ≠ true ∧ s.claimant 0 = some 0 ∧
    (s.zone 0).active = some 0 ∧ (s.endpoint 0).inUse = true ∧ (s.endpoint 0).place = 0 ∧
    (let off := taking (.suspend 2 7 0 0) (modZone 0 (fun r => { r with suspended := true }) foyer)
     off.commandReady (.suspend 2 7 0 0) 2 ∧ flagOf 0 = some false ∧ (off.zone 0).suspended ≠ false ∧
      ((after (.suspend 2 7 0 0) off).endpoint 0).commanded = .active) ∧ (after c s).call 0 = {} ∧
    (taking (.suspend 2 7 32 1) foyer).commandReady (.suspend 2 7 32 1) 2 ∧
    (taking (.suspend 2 7 0 2) foyer).commandReady (.suspend 2 7 0 2) 2 := by decide +kernel

theorem witness_SwapChangesTheActiveSide :
    let c : Instr := .swap 2 7 0
    let s := taking c (calling playingCall foyer)
    let f := setFault (supplyLowRef 1) latched s
    s.commandReady c 2 ∧ s.service = .service ∧ (s.zone 0).enabled = true ∧ (s.zone 0).standby.isSome = true ∧
    (s.zone 0).other = some 1 ∧ (s.endpoint 1).presence = .present ∧
    (∀ k, (s.fault (.endpoint 1 k)).state.actionable = false) ∧ f.commandReady c 2 ∧
    (f.fault (.endpoint 1 5)).state.actionable = true ∧
    ((modZone 0 (fun r => { r with standby := none }) s).zone 0).standby = none ∧
    (modLoop 0 (fun _ => boundLoop) s).loopOf 0 = some 0 := by decide +kernel

/-- A swap to a side that reports STANDBY takes the zone from a PLAYING call, gives a WAKING one a new wake deadline, and leaves one in TAIL
as it is; one to a side that reports OFF takes it from any. -/
theorem witness_SwapChangesTheActiveSide_call :
    let c : Instr := .swap 2 7 0
    let as := fun st : CallState => taking c (calling { playingCall with state := st } foyer)
    let dark := modEndpoint 1 (fun r => { r with reported := .off }) (as .tail)
    ((as .playing).CallsSound ∧ (as .waking).CallsSound ∧ (as .tail).CallsSound ∧ dark.CallsSound) ∧
    ((as .playing).zone 0).protection ≠ .muted ∧ (as .playing).claimant 0 = some 0 ∧
    (after c (as .playing)).awake 0 = false ∧ (after c (as .playing)).call 0 = {} ∧
    (after c (as .waking)).deliverable 0 = true ∧ (after c (as .waking)).awake 0 = false ∧
    ((after c (as .waking)).call 0).wake[(0 : ZoneId)] = some 400 ∧
    (after c (as .tail)).deliverable 0 = true ∧ (after c (as .tail)).claimant 0 = some 0 ∧
    (after c dark).deliverable 0 = false ∧ (after c dark).claimant 0 = none ∧
    (let muted := modZone 0 (fun r => { r with protection := .muted }) (as .tail)
     (muted.zone 0).protection = .muted ∧ (after c muted).claimant 0 = none) :=
  ⟨⟨sound_of_one (by decide +kernel) (by decide +kernel), sound_of_one (by decide +kernel) (by decide +kernel),
    sound_of_one (by decide +kernel) (by decide +kernel), sound_of_one (by decide +kernel) (by decide +kernel)⟩, by decide +kernel⟩

/-- A SERVICE part whose gate 1 has codes. -/
def gated : State := modGate 1 (fun r => { r with open1 := 21, close1 := 23, bar := 25 }) inService

theorem witness_MarkersAndForcesMoveTheGates :
    (taking (.gateForce 2 7 1 3) gated).commandReady (.gateForce 2 7 1 3) 2 ∧ gated.service = .service ∧
    gateActionOf 3 ≠ none ∧ (taking (.gateForce 2 7 2 0) gated).commandReady (.gateForce 2 7 2 0) 2 ∧
    (takingCue (.marker 2 21) gated).cueQueue.head? = some (.marker 2 21) ∧ gated.softResetFlag = false ∧
    trusts gated.config.cueSources 2 = true ∧ checked.service = .configuration ∧ (gated.gate 1).state = .closed ∧
    (gated.gate 1).classify 21 = .open_ ∧ (gated.gate 1).guardPassed gated.now = true ∧
    gateActionOf 0 = some .open_ ∧ ((modGate 1 (fun r => { r with state := .open_ }) gated).gate 1).state = .open_ := by decide +kernel

/-- Gate 1 with a sequence and a mask, OPEN until 90 ms, and its admission call in record 0. -/
def admitting (c : Call) (s : State) : State :=
  calling { c with origin := .gate 1, tag := 1 } (modGate 1 (fun r => { r with
    state := .open_, windowDeadline := some 90, sequence := [3], mask := 1, admissionCall := some 0 }) s)

theorem witness_GatesOpenAndClose :
    let g := { gated with now := 90 }
    let lamp := modEndpoint 2 (fun _ => { amp with node := 11, role := .usherLight, place := 1 }) g
    let asks := modGate 1 (fun r => { r with sequence := [3], mask := 1 }) g
    (lamp.lit 2 1 ∧ g.service = .service ∧ (g.gate 1).sequence = [] ∧ (asks.gate 1).sequence ≠ [] ∧ (asks.gate 1).mask ≠ 0 ∧
      (∀ c, (({ asks with calls := Vector.replicate 16 waitingCall } : State).call c).state ≠ .free) ∧ (asks.call 0).state = .free ∧
      (asks.gate 1).sequence = [] ++ 3 :: [] ∧ asks.validMessage 3 = false ∧ (setMessage 3 (.valid 0 5) asks).validMessage 3 = true) ∧
    ((g.gate 1).admissionCall = none ∧ ((admitting waitingCall g).gate 1).admissionCall = some 0 ∧
      ((admitting waitingCall g).call 0).state = .pending ∧ ((admitting waitingCall g).call 0).origin = .gate 1 ∧
      ((admitting playingCall g).call 0).state = .playing ∧ ((admitting { playingCall with state := .tail } g).call 0).state = .tail ∧
      g.config.tailTime ≠ 0) ∧
    ((taking (.gateForce 2 7 1 0) g).commandReady (.gateForce 2 7 1 0) 2 ∧ (g.gate 1).state = .closed ∧
      (takingCue (.marker 2 21) g).cueQueue.head? = some (.marker 2 21) ∧ g.softResetFlag = false ∧ trusts g.config.cueSources 2 = true) ∧
    ((g.gate 1).classify 21 = .open_ ∧ (g.gate 1).guardPassed g.now = true ∧ ((admitting waitingCall g).gate 1).state = .open_ ∧
      ((admitting waitingCall g).gate 1).classify 23 = .close ∧ ((admitting waitingCall g).gate 1).classify 25 = .bar) ∧
    (((admitting waitingCall g).gate 1).windowDeadline = some 90 ∧ 90 ≤ g.now ∧ ({ g with now := 89 } : State).now < 90 ∧
      (g.gate 0).state ≠ .open_) ∧
    ((admitting { playingCall with state := .tail } g).call 0).tailRemaining = 0 := by decide +kernel

theorem witness_MsgOpenOpensAnEntry :
    let c : Instr := .msgOpen 2 7 63 0 4194304
    let s := setMessage 3 (.valid 1023 4096) State.reset
    (taking c State.reset).commandReady c 2 ∧ State.reset.messages[(63 : MessageId)] = .free ∧
    1 ≤ (4194304 : BitVec 32).toNat ∧ (4194304 : BitVec 32).toNat ≤ 4194304 ∧
    (0 : BitVec 16).toNat + ((4194304 : BitVec 32).toNat + 4095) / 4096 ≤ 1024 ∧
    (∀ j : MessageId, State.reset.messages[j].extent = none) ∧
    s.messages[(3 : MessageId)].extent = some (1023, 4096, 4096) ∧ 1023 < 1023 + (4096 + 4095) / 4096 ∧
    (taking (.msgOpen 2 7 3 0 1) s).commandReady (.msgOpen 2 7 3 0 1) 2 ∧ s.messages[(3 : MessageId)] ≠ .free ∧
    (taking (.msgOpen 2 7 64 0 1) s).commandReady (.msgOpen 2 7 64 0 1) 2 := by decide +kernel

theorem witness_MsgDataWritesItsWords :
    let c : Instr := .msgData 2 63 [1, 2, 3, 4, 5, 6]
    let s := taking c (setMessage 63 (.loading 1023 4096 4095) State.reset)
    s.commandReady c 2 ∧ s.messages[idOf 63] = .loading 1023 4096 4095 ∧ 4095 ≤ 4096 ∧ s.mem.wf = true ∧
    min 4096 (4095 + 6) = 4096 ∧ (taking c State.reset).messages[idOf 63] = .free := by decide +kernel

theorem witness_MessagesCloseDeleteAndRead :
    let s := setMessage 3 (.loading 10 5 5) (setMessage 4 (.loading 11 5 4) (calling waitingCall inService))
    let u := setMessage 3 (.valid 10 5) s
    (taking (.msgClose 2 7 3) s).commandReady (.msgClose 2 7 3) 2 ∧ s.messages[(3 : MessageId)] = .loading 10 5 5 ∧
    s.messages[(4 : MessageId)] = .loading 11 5 4 ∧ (taking (.msgDelete 2 7 3) s).commandReady (.msgDelete 2 7 3) 2 ∧
    (s.call 0).state ≠ .free ∧ (s.call 0).source.references 3 = true ∧
    (∀ c, (s.call c).state ≠ .free → (s.call c).source.references 4 = false) ∧
    (taking (.msgRead 2 7 3 4) s).commandReady (.msgRead 2 7 3 4) 2 ∧
    s.messages[idOf 3].extent = some (10, 5, 5) ∧ (4 : BitVec 24).toNat < 5 ∧ 5 ≤ (5 : BitVec 24).toNat ∧
    s.messages[(5 : MessageId)] = .free ∧ (taking (.msgDelete 2 7 4) u).commandReady (.msgDelete 2 7 4) 2 ∧
    (taking (.msgDelete 2 7 4) u).ReferencesValid ∧ u.messages[(4 : MessageId)] = .loading 11 5 4 := by
  unfold State.ReferencesValid; decide +kernel

/-- Shorthand: a table write of a table stands ready. -/
def writeReady (t : Table) (w : TableWrite) (s : State) : Prop :=
  (taking (tableWriteRow t 2 7 w) s).commandReady (tableWriteRow t 2 7 w) 2

theorem witness_TableWritesAreCheckedFirst :
    writeReady .policy (tw 0 0 []) foyer ∧ writeReady .policy (tw 0 12 []) foyer ∧ writeReady .gate (tw 3 1 []) foyer ∧
    writeReady .zone { tw 3 31 [] with second := true } foyer ∧ writeReady .loop (second 31 []) foyer ∧
    (∀ p, foyer.staged = some p → ¬ (p.src = 2)) ∧
    (taking (.tableWriteFirstPart 2 7 8 (tw 0 0 [])) foyer).commandReady (.tableWriteFirstPart 2 7 8 (tw 0 0 [])) 2 ∧
    (taking (.tableWriteFirstPart 2 7 15 (tw 0 0 [])) foyer).commandReady (.tableWriteFirstPart 2 7 15 (tw 0 0 [])) 2 := by
  refine ⟨?_, ?_, ?_, ?_, ?_, ?_, ?_, ?_⟩
  all_goals first
    | (unfold writeReady; decide +kernel)
    | decide +kernel

/-- A part with one in-use route entry. -/
def routed : State := setRoute 2 { inUse := true, slot := 63, bus := 31, gain := 0 } foyer

theorem routed_only : ∀ k : Fin 128, routed.routes[k].inUse = true → k = 2 := by decide +kernel

theorem witness_RouteAndSlotmapWrites :
    writeReady .route (tw 0 127 [1, 63, 31, 255, 255]) routed ∧ routed.routes[(2 : Fin 128)].inUse = true ∧
    routed.routes[(2 : Fin 128)].slot = 63 ∧ routed.routes[(2 : Fin 128)].bus = 31 ∧ routed.RoutesDistinct ∧
    writeReady .slotmap (tw 0 63 [2, 31]) routed ∧ (routed.endpoint 0).presence = .present ∧ routed.zoneOfEndpoint 0 = some 0 := by
  refine ⟨?_, ?_, ?_, ?_, ?_, ?_, ?_, ?_⟩
  · unfold writeReady; decide +kernel
  · decide +kernel
  · decide +kernel
  · decide +kernel
  · intro i j hi hj _ _
    rw [routed_only i hi, routed_only j hj]
  · unfold writeReady; decide +kernel
  · decide +kernel
  · decide +kernel

theorem witness_ZoneSettingsWrites :
    writeReady .zone (tw 3 31 []) checked ∧ writeReady .zone (tw 2 0 [1, 0, 0]) foyer ∧ idlePolicyOf 1 = some .callsOnly ∧
    writeReady .zone (tw 1 0 [0, 1]) checked ∧ checked.service = .configuration ∧ endpointField 0 = some (some 0) ∧
    endpointField 0xFF = some none ∧ endpointField 48 = none ∧ (foyer.zone 0).primary = some 0 := by
  refine ⟨?_, ?_, ?_, ?_, ?_, ?_, ?_, ?_, ?_⟩
  all_goals first | (unfold writeReady; decide +kernel) | decide +kernel

theorem witness_ZoneAssignmentWrites :
    let off := modZone 0 (fun r => { r with enabled := false }) foyer
    writeReady .zone (tw 0 0 [0, 2, 31]) foyer ∧ kindOf 2 = some (foyer.zone 0).kind ∧ (foyer.zone 0).enabled = true ∧
    foyer.claimant 0 = none ∧ ((calling playingCall foyer).claimant 0).isSome = true ∧ flagOf 0 = some false ∧
    off.zoneReady 0 = true ∧ foyer.zoneReady 1 = false ∧ writeReady .zone (tw 0 31 [1, 0, 31]) checked ∧
    ({ checked with zones := checked.zones.set 31 { checked.zone 31 with enabled := true, kind := .loop, bus := 31 } } : State).KindLimits ∧
    writeReady .zone (tw 0 0 [1, 4, 0]) checked ∧ kindOf 4 = none ∧ writeReady .zone (tw 0 0 [1, 2, 0]) off ∧
    ({ off with zones := off.zones.set 0 { off.zone 0 with enabled := true, kind := .foyer, bus := 0 } } : State).KindLimits ∧
    (off.endpoint 0).presence = .present ∧ off.zoneOfEndpoint 0 = some 0 ∧ (mapped.listenSlot 0 ≠ none) ∧
    (looped.zone 0).kind = .loop ∧ looped.loopOf 0 = some 0 ∧ looped.claimant 0 = none ∧
    (modDesc 0 (fun _ => { zone := some 0 }) (modZone 0 (fun r => { r with kind := .desc }) off)).descOf 0 = some 0 := by
  refine ⟨?_, ?_, ?_, ?_, ?_, ?_, ?_, ?_, ?_, ?_, ?_, ?_, ?_, ?_, ?_, ?_, ?_, ?_, ?_, ?_, ?_⟩
  all_goals first | (unfold writeReady; decide +kernel) | (unfold State.KindLimits; decide +kernel) | decide +kernel

/-- A staged first part of the level group of zone 31. -/
def staged : Staged := { src := 2, table := 3, group := 0, index := 31, data := [0, 0, 9, 0, 0, 8, 0, 7, 0, 6] }

/-- A part with a loop record and a description record bound to zone 31, and a first part staged. -/
def bound : State :=
  { modDesc 0 (fun _ => { zone := some 31 }) (modLoop 0 (fun _ => { zone := some 31 }) checked) with staged := some staged }

theorem witness_LoopWrites :
    let full : State := { bound with loops := Vector.replicate 8 boundLoop }
    writeReady .loop (tw 1 31 []) bound ∧ writeReady .loop (tw 2 31 []) bound ∧ bound.loopOf 31 = some 0 ∧
    writeReady .loop (second 31 [0, 1, 0, 2]) bound ∧ bound.staged = some staged ∧ staged.data.length = 10 ∧ staged.table = 3 ∧
    (word16 (padTo 10 [0, 2, 0, 1]) 2).toNat < (word16 (padTo 10 [0, 2, 0, 1]) 0).toNat ∧
    writeReady .loop (tw 3 31 []) bound ∧ bound.loopOf 5 = none ∧ writeReady .loop (tw 1 5 []) bound ∧
    bound.loops[(1 : ParamId)].zone = none ∧ (∀ k, k < (1 : ParamId) → bound.loops[k].zone.isSome = true) ∧
    (∀ l : ParamId, full.loops[l].zone.isSome = true) ∧ full.loopOf 31 = none ∧ full.staged = some staged ∧
    (looped.service = .service ∧ (looped.zone 0).enabled = true ∧ (looped.zone 0).kind = .loop) := by
  refine ⟨?_, ?_, ?_, ?_, ?_, ?_, ?_, ?_, ?_, ?_, ?_, ?_, ?_, ?_, ?_, ?_, ?_⟩
  all_goals first | (unfold writeReady; decide +kernel) | decide +kernel

theorem witness_DescWrites :
    let late := setFault (supplyLowRef 0) latched { bound with service := .service }
    writeReady .desc (tw 0 31 [63]) bound ∧ bound.descOf 31 = some 0 ∧ writeReady .desc (tw 2 31 [16]) bound ∧ bound.descOf 5 = none ∧
    writeReady .desc (tw 0 5 [63]) bound ∧
    bound.descs[(1 : ParamId)].zone = none ∧ (∀ k, k < (1 : ParamId) → bound.descs[k].zone.isSome = true) ∧
    (∀ k : ParamId, bound.descs[k].zone.isSome = true → bound.descs[k].channel ≠ 2) ∧
    bound.descs[(0 : ParamId)].channel = 1 ∧ writeReady .desc (tw 1 31 [8, 0, 0, 8, 0, 0]) bound ∧
    (∀ d : ParamId, ({ bound with descs := Vector.replicate 8 { zone := some 0 } } : State).descs[d].zone.isSome = true) ∧
    late.service = .service ∧ some late.descs[(0 : ParamId)].channel ≠ some 16 ∧ writeReady .desc (tw 3 31 []) bound := by
  refine ⟨?_, ?_, ?_, ?_, ?_, ?_, ?_, ?_, ?_, ?_, ?_, ?_, ?_, ?_⟩
  all_goals first | (unfold writeReady; decide +kernel) | decide +kernel

theorem witness_EndpointWrites :
    writeReady .endpoint (tw 0 47 [1, 125, 4, 1]) checked ∧ writeReady .endpoint (tw 0 47 [0]) checked ∧
    writeReady .endpoint (tw 0 47 [1, 9, 3, 31]) checked ∧ (checked.endpoint 0).node = 9 ∧ (125 : Node) ≠ checked.node ∧
    roleOf 4 = some .usherLight ∧ writeReady .endpoint (tw 0 47 [1, 125, 4, 1]) foyer ∧
    (∀ x, x ≠ (47 : EndpointId) → (checked.endpoint x).inUse = true → (checked.endpoint x).node ≠ 125) := by
  refine ⟨?_, ?_, ?_, ?_, ?_, ?_, ?_, ?_⟩
  all_goals first | (unfold writeReady; decide +kernel) | decide +kernel

theorem witness_GateWrites :
    writeReady .gate (tw 0 1 [1, 2, 3, 4, 5, 6, 1]) foyer ∧ flagOf 1 = some true ∧
    writeReady .gate (tw 2 1 [4, 0, 63, 1, 2, 7, 0, 0, 0, 1]) foyer ∧ ([0, 63, 1, 2] : List MessageId).length = 4 ∧
    (foyer.zone 0).kind = .foyer ∧ writeReady .gate (tw 1 1 [2, 88, 2, 88]) foyer ∧
    ((modZone 31 (fun r => { r with kind := .loop }) foyer).zone 31).kind ≠ .lounge := by
  refine ⟨?_, ?_, ?_, ?_, ?_, ?_, ?_⟩
  all_goals first | (unfold writeReady; decide +kernel) | decide +kernel

theorem witness_PolicyWrites :
    let s := setFault (supplyLowRef 0) latched foyer
    writeReady .policy (tw 0 11 [0, 2, 0, 17]) foyer ∧ policyModeOf 0 = some .latched ∧ policyActionOf 2 = some .swap ∧
    writeReady .policy (tw 0 1 [3, 0, 1, 1]) foyer ∧ policyModeOf 3 = some .disabled ∧ writeReady .policy (tw 0 12 []) foyer ∧
    (s.fault (supplyLowRef 0)).state.actionable = true ∧ s.zoneConcerned (supplyLowRef 0) = some 0 ∧ (policyIndex (supplyLowRef 0)) = 5 := by
  refine ⟨?_, ?_, ?_, ?_, ?_, ?_, ?_, ?_, ?_⟩
  all_goals first | (unfold writeReady; decide +kernel) | decide +kernel

theorem witness_ConfigWrites :
    let s : State := { foyer with staged := some { staged with table := 8, index := 0 }, hold := .held }
    writeReady .config (second 0 [0, 1, 0, 2]) s ∧ s.staged.map Staged.table = some 8 ∧ writeReady .config (tw 1 0 [126]) s ∧
    writeReady .config (tw 2 0 [126, 1, 2, 3, 4, 5, 6, 0]) s ∧ writeReady .config (tw 3 0 [0, 1, 0]) s ∧ flagOf 0 = some false ∧
    (leaveCommand (taking anyCommand { s with config := { s.config with flowEnabled := false } })).hold = .held := by
  refine ⟨?_, ?_, ?_, ?_, ?_, ?_, ?_⟩
  all_goals first | (unfold writeReady; decide +kernel) | decide +kernel

/-- A call of four repeats of message 3 to zone 31. -/
def bell : CallSource := { code := 0, idCount := 1, repeatCount := 4, args := [3, 0, 0, 0] }

theorem witness_CallStartAcceptsACall :
    let i : Instr := .callStart 2 7 255 7 true 0x80000000 bell
    let s := setMessage 3 (.valid 0 5) inService
    (takingCue i s).cueReady i 2 ∧ s.service = .service ∧ (∀ c, (s.call c).state = .free) ∧ s.validMessage 3 = true ∧
    s.validId (byteAt bell.args 0) = some 3 ∧ (0x80000000 : ZoneSet) ≠ 0 ∧ bell.repeatCount.toNat = 4 ∧
    ((calling waitingCall s).call 0).tag = 40 ∧ ((calling waitingCall s).call 0).origin = .external 2 ∧
    (∀ c, (({ s with calls := Vector.replicate 16 waitingCall } : State).call c).state ≠ .free) ∧ checked.service = .configuration := by
  decide +kernel

theorem witness_CallCancelAndCallEnd :
    let i : Instr := .callCancel 2 7 40
    let e : Instr := .callEnd 2 7 40
    (takingCue i (calling waitingCall foyer)).cueReady i 2 ∧ (takingCue e (calling liveCall foyer)).cueReady e 2 ∧
    foyer.service = .service ∧ ((calling liveCall foyer).call 0).origin = .external 2 ∧ ((calling liveCall foyer).call 0).tag = 40 ∧
    (∀ d, d ≠ 0 → ((calling liveCall foyer).call d).state = .free) ∧ liveCall.source.isStored = false ∧
    playingCall.source.isStored = true ∧ foyer.config.tailTime ≠ 0 ∧ (∀ c, (foyer.call c).state = .free) ∧
    ({ playingCall with state := .tail } : Call).state = .tail ∧
    ({ foyer with config := { foyer.config with tailTime := 0 } } : State).config.tailTime = 0 := by decide +kernel

/-- The invariants hold of a part in SERVICE with a running call, and it steps. -/
theorem witness_StepKeepsTheTables : step foyer = .next foyer ∧ foyer.mem.wf = true ∧ foyer.KindLimits ∧ foyer.GainsInRange ∧
    foyer.GainsBounded ∧ foyer.NodesDistinct ∧ foyer.noise ≠ 0 := by
  refine ⟨?_, ?_, ?_, ?_, ?_, ?_, ?_⟩
  · rfl
  · decide +kernel
  · unfold State.KindLimits; decide +kernel
  · unfold State.GainsInRange; decide +kernel
  · unfold State.GainsBounded; decide +kernel
  · unfold State.NodesDistinct; decide +kernel
  · decide +kernel

theorem witness_StepKeepsTheQueuesAndAlert : step (setFault (supplyLowRef 0) latched foyer) =
      .next (setFault (supplyLowRef 0) latched foyer) ∧ (setFault (supplyLowRef 0) latched foyer).alert = true ∧
    (setFault (supplyLowRef 0) latched foyer).AlertTrue ∧ foyer.QueuesFit ∧ foyer.DirectivesDistinct := by
  refine ⟨rfl, ?_, ?_, ?_, ?_⟩
  · decide +kernel
  · unfold State.AlertTrue; decide +kernel
  · unfold State.QueuesFit; decide +kernel
  · unfold State.DirectivesDistinct; decide +kernel

/-- The foyer with its call on player 0, and the message that the call references. -/
def ringing : State := calling playingCall (setMessage 3 (.valid 0 5) foyer)

theorem ringing_only : ∀ c, (ringing.call c).state ≠ .free → c = 0 := by decide +kernel

theorem witness_StepKeepsTheCalls : step ringing = .next ringing ∧ ringing.CallsSound ∧ ringing.ReferencesValid := by
  refine ⟨rfl, ⟨?_, ?_, ?_⟩, ?_⟩
  · decide +kernel
  · decide +kernel
  · intro c d _ _ ne hc hd _ _
    exact absurd ((ringing_only c hc).trans (ringing_only d hd).symm) ne
  · unfold State.ReferencesValid; decide +kernel

end Sys2Proof.Tests
end

section
/-! The arithmetic of the mix engine (R1, R3, R4, R10 to R13, R23): rounding, saturation, bus sums, slews, ramps, the noise register. -/

namespace Sys2Proof.Machine

/-! ### Rounding and saturation -/

theorem rnd_floor (v : Int) : 16384 * rnd v ≤ v + 8192 ∧ v + 8192 < 16384 * (rnd v + 1) := by
  unfold rnd; omega

theorem sat_bounds (v : Int) : -8388608 ≤ sat v ∧ sat v ≤ 8388607 := by
  unfold sat; split_ifs <;> omega

theorem sat_of_mem {v : Int} (lo : -8388608 ≤ v) (hi : v ≤ 8388607) : sat v = v := by
  unfold sat; split_ifs <;> omega

theorem sat_of_low {v : Int} (h : v < -8388608) : sat v = -8388608 := if_pos h

theorem sat_of_high {v : Int} (h : 8388607 < v) : sat v = 8388607 := by
  unfold sat; split_ifs <;> omega

theorem saturates_iff (v : Int) : saturates v = true ↔ sat v ≠ v := bne_iff_ne

theorem comp_le (a b : Nat) : comp a b ≤ 65535 := min_le_left _ _

theorem comp_eq_min_rnd (a b : Nat) : (comp a b : Int) = min 65535 (rnd ((a : Int) * b)) := by
  unfold comp rnd; push_cast; rfl

theorem comp_unity {a : Nat} (h : a ≤ 65535) : comp a 16384 = a := by
  unfold comp; omega

/-! ### Bus sums (R10, R11) -/

@[simp] theorem zeroBlock_getD (n : Nat) : zeroBlock.getD n 0 = 0 := by
  rw [zeroBlock, List.getD_eq_getElem?_getD, List.getElem?_replicate]
  split <;> rfl

/-- What one route adds to sample `n` of a bus. -/
def routeTerm (ing : List (List Int)) (b : Fin 32) (n : Nat) (r : Route) : Int :=
  if r.inUse = true ∧ r.bus = b then (slotOf ing r.slot).getD n 0 * (r.gain : Int) else 0

/-- One step of the fold of `busSum`. -/
def addRoute (ing : List (List Int)) (b : Fin 32) (acc : List Int) (r : Route) : List Int :=
  if r.inUse ∧ r.bus = b then List.zipWith (fun a x => a + x * r.gain) acc (slotOf ing r.slot) else acc

theorem busSum_eq_foldl (routes : Vector Route 128) (ing : List (List Int)) (b : Fin 32) :
    busSum routes ing b = routes.toList.foldl (addRoute ing b) zeroBlock := rfl

section
variable {ing : List (List Int)} (full : ∀ i : Fin 64, (slotOf ing i).length = 48)
include full

theorem addRoute_length (b : Fin 32) {acc : List Int} (h : acc.length = 48) (r : Route) : (addRoute ing b acc r).length = 48 := by
  unfold addRoute
  split
  · simp [h, full]
  · exact h

theorem addRoute_getD (b : Fin 32) {acc : List Int} (h : acc.length = 48) (r : Route) {n : Nat} (hn : n < 48) :
    (addRoute ing b acc r).getD n 0 = acc.getD n 0 + routeTerm ing b n r := by
  unfold addRoute routeTerm
  split
  · have hs := full r.slot
    simp [List.getD_eq_getElem?_getD, List.getElem?_zipWith, List.getElem?_eq_getElem (h.symm ▸ hn : n < acc.length),
      List.getElem?_eq_getElem (hs.symm ▸ hn : n < (slotOf ing r.slot).length)]
  · simp

/-- Every sample of the fold over a list of routes is what it began with and the sum of what each route adds. -/
theorem foldl_addRoute (b : Fin 32) : ∀ (rs : List Route) (acc : List Int), acc.length = 48 →
    (rs.foldl (addRoute ing b) acc).length = 48 ∧
    ∀ n, n < 48 → (rs.foldl (addRoute ing b) acc).getD n 0 = acc.getD n 0 + (rs.map (routeTerm ing b n)).sum
  | [], acc, h => ⟨h, fun n _ => by simp⟩
  | r :: rs, acc, h => by
    obtain ⟨len, value⟩ := foldl_addRoute b rs (addRoute ing b acc r) (addRoute_length full b h r)
    refine ⟨len, fun n hn => ?_⟩
    rw [List.foldl_cons, value n hn, addRoute_getD full b h r hn, List.map_cons, List.sum_cons]
    ring

theorem busSum_length (routes : Vector Route 128) (b : Fin 32) : (busSum routes ing b).length = 48 :=
  (foldl_addRoute full b _ zeroBlock rfl).1

/-- A sample of a bus before its rounding is the exact sum over the route table. -/
theorem busSum_getD (routes : Vector Route 128) (b : Fin 32) {n : Nat} (hn : n < 48) :
    (busSum routes ing b).getD n 0 = ((List.finRange 128).map fun i => routeTerm ing b n routes[i]).sum := by
  have terms : routes.toList.map (routeTerm ing b n) = (List.finRange 128).map fun i => routeTerm ing b n routes[i] := by
    apply List.ext_getElem <;> simp
  rw [busSum_eq_foldl, (foldl_addRoute full b _ zeroBlock rfl).2 n hn, terms, zeroBlock_getD, zero_add]

end

/-! ### Lists of 48 -/

theorem getD_map_of_lt {α β : Type} (f : α → β) (l : List α) (a : α) (b : β) {n : Nat} (h : n < l.length) :
    (l.map f).getD n b = f (l.getD n a) := by
  simp [List.getD_eq_getElem?_getD, List.getElem?_eq_getElem h]

theorem any_iff_getD {α : Type} (p : α → Bool) (l : List α) (a : α) : l.any p = true ↔ ∃ n, n < l.length ∧ p (l.getD n a) = true := by
  rw [List.any_eq_true]
  constructor
  · rintro ⟨x, hx, hp⟩
    obtain ⟨n, hn, rfl⟩ := List.getElem_of_mem hx
    exact ⟨n, hn, by rwa [List.getD_eq_getElem _ _ hn]⟩
  · rintro ⟨n, hn, hp⟩
    rw [List.getD_eq_getElem _ _ hn] at hp
    exact ⟨_, List.getElem_mem hn, hp⟩

/-- Settles O25. -/
theorem busesAreExactSumsRoundedOnce : Obligations.BusesAreExactSumsRoundedOnce := by
  refine ⟨rnd_floor, fun v => ⟨(sat_bounds v).1, (sat_bounds v).2, sat_of_mem, sat_of_low, sat_of_high⟩, fun a b => ?_, ?_⟩
  · refine ⟨comp_eq_min_rnd a b, comp_le a b, comp_unity, fun h => ?_⟩
    rw [comp_eq_min_rnd, min_eq_right h]
  · intro routes ing b acc full hacc
    have len := busSum_length full routes b
    have sums : ∀ n, n < 48 → (busSum routes ing b).getD n 0 = acc n := fun n hn =>
      (busSum_getD full routes b hn).trans (hacc n).symm
    refine ⟨by rw [busBlock, List.length_map, len], fun n hn => ?_, ?_⟩
    · rw [busBlock, getD_map_of_lt _ _ 0 _ (len ▸ hn), sums n hn]
    · rw [busClip, any_iff_getD _ _ 0, len]
      refine exists_congr fun n => and_congr_right fun hn => ?_
      rw [sums n hn, saturates_iff]

/-! ### Slews and ramps (R12, R13) -/

theorem slew_up {g0 t : Nat} (h : g0 < t) (s : Nat) : slew g0 t s = min t (g0 + s) := if_pos h

theorem slew_down {g0 t : Nat} (h : t < g0) (s : Nat) : slew g0 t s = max t (g0 - s) := by
  unfold slew; rw [if_neg (by omega), if_pos h]

theorem slew_self (g s : Nat) : slew g g s = g := by simp [slew]

theorem slew_between (g0 t s : Nat) : min g0 t ≤ slew g0 t s ∧ slew g0 t s ≤ max g0 t := by
  unfold slew; split_ifs <;> omega

/-- What the ramp has added at a sample: its magnitude is the whole quotient, its sign that of the way to go. -/
theorem ramp_natAbs (g0 g1 n : Nat) : (ramp g0 g1 n - g0).natAbs = ((g1 : Int) - g0).natAbs * (n + 1) / 48 := by
  have h : ramp g0 g1 n - g0 = Int.tdiv (((g1 : Int) - g0) * (n + 1)) 48 := by unfold ramp; ring
  rw [h, Int.natAbs_tdiv, Int.natAbs_mul]
  rfl

theorem ramp_between (g0 g1 : Nat) {n : Nat} (hn : n < 48) :
    ((min g0 g1 : Nat) : Int) ≤ ramp g0 g1 n ∧ ramp g0 g1 n ≤ ((max g0 g1 : Nat) : Int) := by
  have size : (ramp g0 g1 n - g0).natAbs ≤ ((g1 : Int) - g0).natAbs := by
    rw [ramp_natAbs]
    exact Nat.div_le_of_le_mul (by rw [Nat.mul_comm 48]; exact Nat.mul_le_mul_left _ (by omega))
  rcases Nat.le_total g0 g1 with h | h
  · have sign : 0 ≤ ramp g0 g1 n - g0 := by
      unfold ramp; rw [add_sub_cancel_left]
      exact Int.tdiv_nonneg (mul_nonneg (by omega) (by omega)) (by decide)
    omega
  · have sign : ramp g0 g1 n - g0 ≤ 0 := by
      have way : ((g1 : Int) - g0) * (n + 1) ≤ 0 := mul_nonpos_of_nonpos_of_nonneg (by omega) (by omega)
      have flipped := Int.tdiv_nonneg (neg_nonneg.mpr way) (show (0 : Int) ≤ 48 by decide)
      rw [Int.neg_tdiv] at flipped
      unfold ramp
      omega
    omega

theorem ramp_last (g0 g1 : Nat) : ramp g0 g1 47 = g1 := by
  have h : ((47 : Nat) : Int) + 1 = 48 := by norm_num
  unfold ramp
  rw [h, Int.mul_tdiv_cancel _ (by decide)]
  ring

theorem ramp_flat (g n : Nat) : ramp g g n = g := by simp [ramp]

/-- Settles O26. -/
theorem gainsSlewAndRampTowardTheirTargets : Obligations.GainsSlewAndRampTowardTheirTargets := by
  refine ⟨fun g0 t s => ⟨fun h => slew_up h s, fun h => ?_, fun h => h ▸ slew_self g0 s, slew_between g0 t s⟩, fun _ _ _ => rfl,
    fun g0 g1 n hn => ⟨(ramp_between g0 g1 hn).1, (ramp_between g0 g1 hn).2, ?_, ?_⟩, fun g0 g1 => ⟨ramp_last g0 g1, ramp_flat g0⟩⟩
  · rw [slew_down h]; omega
  · rw [ramp_natAbs]; exact Nat.mul_div_le _ _
  · rw [ramp_natAbs]; exact Nat.lt_mul_div_succ _ (by decide)

/-! ### The noise register (R23) -/

/-- The register stays away from 0: the bits of a register that steps to 0 were all 0. -/
theorem noiseStep_ne_zero {x : BitVec 23} (h : x ≠ 0) : noiseStep x ≠ 0 := by
  intro zero
  have bits : ∀ i, (noiseStep x).getLsbD i = false := by rw [zero]; simp
  have shifted : ∀ i, i < 22 → x.getLsbD i = false := by
    intro i hi
    have := bits (i + 1)
    simpa [noiseStep, show i + 1 < 23 by omega, show i < 23 by omega] using this
  have feedback := bits 0
  have top : x.getLsbD 22 = false := by
    have tap : x[17] = false := shifted 17 (by omega)
    simpa [noiseStep, tap] using feedback
  apply h
  apply BitVec.eq_of_getLsbD_eq
  intro i hi
  rcases Nat.lt_or_ge i 22 with lt | ge
  · simpa using shifted i lt
  · obtain rfl : i = 22 := by omega
    simpa using top

theorem noiseRun_getLastD : ∀ (n : Nat) (x : BitVec 23), (noiseRun n x).getLastD x = noiseStep^[n] x
  | 0, _ => rfl
  | n + 1, x => by
    have step := noiseRun_getLastD n (noiseStep x)
    rw [Function.iterate_succ_apply, ← step, noiseRun, List.getLastD_cons]

theorem noiseStep_iterate_ne_zero {x : BitVec 23} (h : x ≠ 0) : ∀ n, noiseStep^[n] x ≠ 0
  | 0 => h
  | n + 1 => by rw [Function.iterate_succ_apply']; exact noiseStep_ne_zero (noiseStep_iterate_ne_zero h n)

/-! ### The zone chain (R12 to R20) -/

theorem getD_range_map {i : Nat} (f : Nat → Int) (h : i < 48) : ((List.range Config.blockLength).map f).getD i 0 = f i := by
  simp [List.getD_eq_getElem?_getD, Config.blockLength, h]

theorem servingDesc_of_desc {s : State} {z : ZoneId} {d : ParamId} (k : (s.zone z).kind = .desc) (h : s.descOf z = some d) :
    s.servingDesc z = some s.descs[d] := by
  simp [State.servingDesc, k, h]

theorem servingDesc_of_other {s : State} {z : ZoneId} (k : (s.zone z).kind ≠ .desc) : s.servingDesc z = none := if_neg k

theorem servingLoop_of_loop {s : State} {z : ZoneId} {l : ParamId} (k : (s.zone z).kind = .loop) (h : s.loopOf z = some l) :
    s.servingLoop z = some s.loops[l] := by
  simp [State.servingLoop, k, h]

theorem servingLoop_of_other {s : State} {z : ZoneId} (k : (s.zone z).kind ≠ .loop) : s.servingLoop z = none := if_neg k

/-- What the VOX asks of the duck gain (R15). -/
def State.voxAsks (s : State) (z : ZoneId) : Nat := ((s.servingDesc z).map fun d => if d.voxActive then d.voxDepth else 16384).getD 16384

/-- What the claiming call asks of the duck gain (R15). -/
def Zone.callAsks (r : Zone) (claim : Option (CallState × PlayerId)) : Nat :=
  if claim.map Prod.fst = some .waking ∨ claim.map Prod.fst = some .playing then r.callDuck else 16384

theorem duckTarget_eq (s : State) (z : ZoneId) (claim : Option (CallState × PlayerId)) :
    s.duckTarget z claim = min 16384 (min (s.voxAsks z) ((s.zone z).callAsks claim)) := by
  have call : (match claim with
      | some (.waking, _) => (s.zone z).callDuck
      | some (.playing, _) => (s.zone z).callDuck
      | some (.tail, _) => 16384
      | some (.pending, _) => 16384
      | some (.free, _) => 16384
      | none => 16384) = (s.zone z).callAsks claim := by
    rcases claim with _ | ⟨st, p⟩
    · rfl
    · cases st <;> simp [Zone.callAsks]
  rw [min_comm (s.voxAsks z), ← call, State.voxAsks]
  unfold State.duckTarget
  cases s.servingDesc z <;> rfl

theorem voiceTarget_of_desc {s : State} {z : ZoneId} {d : DescRecord} (h : s.servingDesc z = some d)
    (claim : Option (CallState × PlayerId)) : s.voiceTarget z claim = if claim = none then d.voiceGain else 0 := by
  cases claim <;> simp [State.voiceTarget, h]

theorem outputBase_of_loop {s : State} {z : ZoneId} {l : LoopRecord} (h : s.servingLoop z = some l) :
    s.outputBase z = comp (s.zone z).trim l.agc := by
  simp [State.outputBase, h]

theorem outputBase_of_other {s : State} {z : ZoneId} (h : s.servingLoop z = none) : s.outputBase z = (s.zone z).trim := by
  simp [State.outputBase, h]

/-- The voice sample of a zone: its slot's while it is a DESC zone with a record (R18). -/
def State.voiceSample (s : State) (ing : List (List Int)) (z : ZoneId) (n : Nat) : Int :=
  ((s.servingDesc z).map fun d => (slotOf ing d.voiceSlot).getD n 0).getD 0

/-- The call sample of a zone: its player's while a call claims it (R18). -/
def HandOff.callSample (h : HandOff) (z : ZoneId) (n : Nat) : Int := ((h.claim z).map fun c => (h.block c.2).getD n 0).getD 0

/-- `y` of R19: the mixed sample of a zone by its output gain, rounded, with the gains that the mix event `m` reaches. -/
def State.scaledSample (s : State) (ing : List (List Int)) (bus : List Int) (h : HandOff) (z : ZoneId) (m : ZoneMix) (n : Nat) : Int :=
  rnd (mixedSample (bus.getD n 0) (ramp (s.zone z).duckGain m.duck n) (s.voiceSample ing z n) (ramp (s.zone z).voiceGain m.voice n)
    (h.callSample z n) (s.zone z).callLevel * ramp (s.zone z).outputGain m.output n)

section
variable (s : State) (ing : List (List Int)) (bus : List Int) (h : HandOff) (noise : List (BitVec 23)) (z : ZoneId)

theorem zoneChain_duck : (s.zoneChain ing bus h noise z).duck =
    nextGain (s.zone z).fresh (s.zone z).duckGain (s.duckTarget z (h.claim z)) (s.zone z).duckStep := rfl

theorem zoneChain_voice : (s.zoneChain ing bus h noise z).voice = if (s.zone z).kind = .desc then
    nextGain (s.zone z).fresh (s.zone z).voiceGain (s.voiceTarget z (h.claim z)) (s.zone z).duckStep else (s.zone z).voiceGain := by
  simp [State.zoneChain]

theorem zoneChain_output : (s.zoneChain ing bus h noise z).output =
    nextGain (s.zone z).fresh (s.zone z).outputGain (s.outputTarget z) (s.zone z).duckStep := rfl

/-- The samples that `zoneChain` scales are those of R19. -/
theorem zoneChain_scaled {n : Nat} (hn : n < 48) :
    ((List.range Config.blockLength).map fun n => rnd (((List.range Config.blockLength).map fun n =>
      mixedSample (bus.getD n 0) (ramp (s.zone z).duckGain (s.zoneChain ing bus h noise z).duck n)
        (if (s.zone z).kind == .desc then (match s.servingDesc z with
          | some d => slotOf ing d.voiceSlot
          | none => zeroBlock).getD n 0 else 0) (ramp (s.zone z).voiceGain (s.zoneChain ing bus h noise z).voice n)
        ((match h.claim z with
          | some (_, p) => h.block p
          | none => zeroBlock).getD n 0) (s.zone z).callLevel).getD n 0 *
      ramp (s.zone z).outputGain (s.zoneChain ing bus h noise z).output n)).getD n 0 =
    s.scaledSample ing bus h z (s.zoneChain ing bus h noise z) n := by
  have voice : (if (s.zone z).kind == .desc then (match s.servingDesc z with
      | some d => slotOf ing d.voiceSlot
      | none => zeroBlock).getD n 0 else 0) = s.voiceSample ing z n := by
    unfold State.voiceSample
    by_cases k : (s.zone z).kind = .desc
    · rw [if_pos (by simpa using k)]
      cases s.servingDesc z with
      | none => exact zeroBlock_getD n
      | some d => rfl
    · rw [if_neg (by simpa using k), servingDesc_of_other k]; rfl
  have call : ((match h.claim z with
      | some (_, p) => h.block p
      | none => zeroBlock).getD n 0) = h.callSample z n := by
    unfold HandOff.callSample
    cases h.claim z with
    | none => exact zeroBlock_getD n
    | some c => rfl
  rw [getD_range_map _ hn, getD_range_map _ hn, voice, call]
  rfl

/-- The clip flag says whether some sample saturates (R19). -/
theorem zoneChain_clip : (s.zoneChain ing bus h noise z).clip = true ↔
    ∃ n, n < 48 ∧ saturates (s.scaledSample ing bus h z (s.zoneChain ing bus h noise z) n) = true := by
  refine Iff.trans (any_iff_getD saturates _ 0) ?_
  rw [List.length_map, List.length_range]
  exact exists_congr fun n => and_congr_right fun hn => by rw [← zoneChain_scaled s ing bus h noise z hn]; rfl

/-- The sample sent: 0 while MUTED, else the test signal, else `y` saturated (R19, R22). -/
theorem zoneChain_sent {n : Nat} (hn : n < 48) : (s.zoneChain ing bus h noise z).sent.getD n 0 =
    if (s.zone z).protection = .muted then 0
    else if (s.zone z).testMode ≠ .none then testSample (s.zone z).testMode (s.zone z).testLevel noise n
    else sat (s.scaledSample ing bus h z (s.zoneChain ing bus h noise z) n) := by
  rw [← zoneChain_scaled s ing bus h noise z hn]
  exact getD_range_map (fun n => if (s.zone z).protection = .muted then 0
    else if (s.zone z).testMode ≠ .none then testSample (s.zone z).testMode (s.zone z).testLevel noise n
    else sat (List.getD _ n 0)) hn

theorem zoneChain_sent_length : (s.zoneChain ing bus h noise z).sent.length = 48 := by
  simp [State.zoneChain, Config.blockLength]

end

/-- Every test signal is a sample (R22, R23). -/
theorem testSample_bounds (mode : TestMode) (level : Nat) (noise : List (BitVec 23)) (n : Nat) :
    -8388608 ≤ testSample mode level noise n ∧ testSample mode level noise n ≤ 8388607 := by
  cases mode with
  | none => exact ⟨(by decide : (-8388608 : Int) ≤ 0), (by decide : (0 : Int) ≤ 8388607)⟩
  | silence => exact ⟨(by decide : (-8388608 : Int) ≤ 0), (by decide : (0 : Int) ≤ 8388607)⟩
  | noise => exact sat_bounds _
  | tone =>
    -- The amplitude is not negative, so its negation is a sample too.
    have pos : 0 ≤ toneAmplitude level := by
      unfold toneAmplitude
      have : 0 ≤ rnd (4194304 * (level : Int)) := by unfold rnd; omega
      rcases lt_or_ge 8388607 (rnd (4194304 * (level : Int))) with big | small
      · rw [sat_of_high big]; decide
      · rw [sat_of_mem (by omega) small]; exact this
    have top : toneAmplitude level ≤ 8388607 := (sat_bounds _).2
    simp only [testSample, toneSample]
    split <;> omega

theorem sent_bounds (s : State) (ing : List (List Int)) (bus : List Int) (h : HandOff) (noise : List (BitVec 23)) (z : ZoneId) (n : Nat) :
    -8388608 ≤ (s.zoneChain ing bus h noise z).sent.getD n 0 ∧ (s.zoneChain ing bus h noise z).sent.getD n 0 ≤ 8388607 := by
  rcases Nat.lt_or_ge n 48 with hn | hn
  · rw [zoneChain_sent s ing bus h noise z hn]
    split
    · decide
    · split
      · exact testSample_bounds _ _ _ _
      · exact sat_bounds _
  · rw [List.getD_eq_default _ _ (by rw [zoneChain_sent_length]; exact hn)]
    decide

/-! ### Block peaks (R7, R20) -/

theorem foldl_max_natAbs (l : List Int) (m : Nat) :
    m ≤ l.foldl (fun m x => max m x.natAbs) m ∧ (∀ x ∈ l, x.natAbs ≤ l.foldl (fun m x => max m x.natAbs) m) ∧
    (l.foldl (fun m x => max m x.natAbs) m = m ∨ ∃ x ∈ l, x.natAbs = l.foldl (fun m x => max m x.natAbs) m) := by
  induction l generalizing m with
  | nil => simp
  | cons a l ih =>
    obtain ⟨from_, above, reached⟩ := ih (max m a.natAbs)
    rw [List.foldl_cons]
    refine ⟨(le_max_left _ _).trans from_, ?_, ?_⟩
    · intro x hx
      rcases List.mem_cons.mp hx with rfl | hx
      · exact (le_max_right _ _).trans from_
      · exact above x hx
    · rcases reached with eq | ⟨x, hx, eq⟩
      · rw [eq]
        rcases le_total a.natAbs m with le | le
        · exact .inl (max_eq_left le)
        · exact .inr ⟨a, List.mem_cons_self, (max_eq_right le).symm⟩
      · exact .inr ⟨x, List.mem_cons_of_mem _ hx, eq⟩

theorem blockPeak_spec (block : List Int) : (∀ x ∈ block, x.natAbs ≤ blockPeak block) ∧
    (block ≠ [] → ∃ x ∈ block, x.natAbs = blockPeak block) ∧ (block = [] → blockPeak block = 0) := by
  obtain ⟨-, above, reached⟩ := foldl_max_natAbs block 0
  refine ⟨above, fun ne => ?_, fun e => e ▸ rfl⟩
  rcases reached with eq | found
  · obtain ⟨x, hx⟩ := List.exists_mem_of_ne_nil _ ne
    have := above x hx
    exact ⟨x, hx, by unfold blockPeak; omega⟩
  · exact found

/-- Settles O27. -/
theorem zoneChainFormsTheSentSamples : Obligations.ZoneChainFormsTheSentSamples := by
  refine ⟨?_, blockPeak_spec⟩
  rintro s ing bus h noise z m r claim vox voiceTo base outTo voice call y hm rfl rfl hdesc hloop hcall hout rfl
  have voxed : s.voxAsks z = vox := by
    rcases hdesc with ⟨k, rfl, -⟩ | ⟨d, k, hd, rfl, -, -⟩
    · simp [State.voxAsks, servingDesc_of_other k]
    · simp [State.voxAsks, servingDesc_of_desc k hd]
  have based : s.outputBase z = base := by
    rcases hloop with ⟨k, rfl⟩ | ⟨l, k, hl, rfl⟩
    · exact outputBase_of_other (servingLoop_of_other k)
    · exact outputBase_of_loop (servingLoop_of_loop k hl)
  have voiced : ∀ n, s.voiceSample ing z n = voice n := by
    intro n
    rcases hdesc with ⟨k, -, rfl⟩ | ⟨d, k, hd, -, -, rfl⟩
    · simp [State.voiceSample, servingDesc_of_other k]
    · simp [State.voiceSample, servingDesc_of_desc k hd]
  have called : ∀ n, h.callSample z n = call n := by
    intro n
    rcases hcall with ⟨hc, rfl⟩ | ⟨st, p, hc, rfl⟩ <;> simp [HandOff.callSample, hc]
  have scaled : ∀ n, s.scaledSample ing bus h z m n = rnd (sat (sat (rnd (bus.getD n 0 * ramp (s.zone z).duckGain m.duck n)) +
      sat (rnd (voice n * ramp (s.zone z).voiceGain m.voice n)) + sat (rnd (call n * (s.zone z).callLevel))) *
      ramp (s.zone z).outputGain m.output n) := by
    intro n
    rw [State.scaledSample, voiced, called, mixedSample]
  have targeted : s.outputTarget z = outTo := by
    rw [hout, ← based]
    cases p : (s.zone z).protection <;> simp [State.outputTarget, p]
  subst hm
  refine ⟨zoneChain_sent_length s ing bus h noise z, ?_, ?_, ?_, ?_, ?_, ?_, sent_bounds s ing bus h noise z⟩
  · rw [zoneChain_duck, duckTarget_eq, voxed]; rfl
  · rw [zoneChain_voice]
    rcases hdesc with ⟨k, -, -⟩ | ⟨d, k, hd, -, rfl, -⟩
    · rw [if_neg k, if_neg (fun both => k both.1)]
    · rw [if_pos k, voiceTarget_of_desc (servingDesc_of_desc k hd)]
      cases (s.zone z).fresh <;> simp [nextGain, k]
  · rw [zoneChain_output, targeted]; rfl
  · rw [zoneChain_clip]
    exact exists_congr fun n => and_congr_right fun _ => by rw [saturates_iff, scaled]
  · intro muted n
    rcases Nat.lt_or_ge n 48 with hn | hn
    · rw [zoneChain_sent s ing bus h noise z hn, if_pos muted]
    · exact List.getD_eq_default _ _ (by rw [zoneChain_sent_length]; exact hn)
  · intro loud n hn
    rw [zoneChain_sent s ing bus h noise z hn, if_neg loud, scaled]
    refine ⟨fun mode => ?_, fun mode => ?_, fun mode => ?_, fun mode => ?_⟩ <;> rw [mode] <;> rfl

end Sys2Proof.Machine
end

section
/-! The tables that the invariants of memory, tables, records, limits and gains read, as one view of the state, and the operations that
leave that view as it was. -/

namespace Sys2Proof.Machine

/-- What the invariants of StepKeepsTheTables read of a state: call memory, directory, routes, noise register, and the zone, endpoint, loop
and description records without the runtime fields that those invariants do not speak of. -/
structure TableView where
  mem : Memory
  messages : Vector Message 64
  routes : Vector Route 128
  noise : BitVec 23
  zones : Vector Zone 32
  endpoints : Vector Endpoint 48
  loops : Vector LoopRecord 8
  descs : Vector DescRecord 8

/-- The tables of a state, as the invariants read them. -/
def State.tables (s : State) : TableView where
  mem := s.mem
  messages := s.messages
  routes := s.routes
  noise := s.noise
  zones := s.zones.map Zone.still
  endpoints := s.endpoints.map Endpoint.settings
  loops := s.loops.map LoopRecord.still
  descs := s.descs.map DescRecord.settings

variable (s : State)

/-! ### What leaves the view as it was -/

theorem tables_still : s.still.tables = s.tables := by
  simp only [State.tables, State.still, Vector.map_map]
  congr 1

/-- What leaves `still` as it was leaves the tables as they were. -/
theorem tables_of_still {s t : State} (h : t.still = s.still) : t.tables = s.tables := by
  rw [← tables_still t, ← tables_still s, h]

theorem modEndpoint_tables (e : EndpointId) {f : Endpoint → Endpoint} (h : ∀ r, (f r).settings = r.settings) :
    (modEndpoint e f s).tables = s.tables := by
  simp only [State.tables, modEndpoint, map_set_same _ _ _ _ (h _)]

theorem modDesc_tables (d : ParamId) {f : DescRecord → DescRecord} (h : ∀ r, (f r).settings = r.settings) :
    (modDesc d f s).tables = s.tables := by
  simp only [State.tables, modDesc, map_set_same _ _ _ _ (h _)]

@[simp] theorem modGate_tables (g : GateId) (f : Gate → Gate) : (modGate g f s).tables = s.tables := rfl

@[simp] theorem modCall_tables (c : CallId) (f : Call → Call) : (modCall c f s).tables = s.tables := rfl

@[simp] theorem withFaults_tables (t : FaultTable) : (withFaults t s).tables = s.tables := rfl

/-! ### The call unit -/

@[simp] theorem countStart_tables : (countStart s).tables = s.tables := rfl

@[simp] theorem mapCalls_tables (f : Call → Call) : (mapCalls f s).tables = s.tables := rfl

@[simp] theorem startCall_tables (c : CallId) (d : ZoneSet) (p : PlayerId) : (startCall c d p s).tables = s.tables := by
  have claimed : ∀ u : State, (forEach (zonesOf d) recommandZone u).tables = u.tables := fun u =>
    tables_of_still (forEach_keeps u State.still (fun z s => recommandZone_still s z) _)
  have preempted := tables_of_still (preemptByZone_still s (s.call c).priority d)
  unfold startCall
  simp only
  split
  · rw [tables_of_still (enterPlaying_still _ _), claimed, countStart_tables, modCall_tables, preempted]
  · rw [claimed, countStart_tables, modCall_tables, preempted]

@[simp] theorem dispatchCall_tables (c : CallId) (w : ZoneSet) : (dispatchCall c w s).1.tables = s.tables := by
  unfold dispatchCall
  simp only
  split
  · exact tables_of_still (completeCall_still _ _ _)
  · split
    · rfl
    · split
      · simp
      · split
        · rfl
        · split
          · rw [startCall_tables]; exact tables_of_still (preempt_still _ _)
          · rfl

@[simp] theorem walk_tables : ∀ (n : Nat) (l : List CallId) (w : ZoneSet) (s : State), (walk n l w s).tables = s.tables
  | 0, _, _, _ => rfl
  | n + 1, l, w, s => by
    unfold walk
    split
    · rfl
    · simp only; rw [walk_tables n, dispatchCall_tables]

@[simp] theorem examine_tables : (examine s).tables = s.tables := by
  unfold examine
  rw [walk_tables, tables_of_still (forEach_keeps _ _ (fun c s => pendingTest_still s c) _),
    tables_of_still (forEach_keeps _ _ (fun c s => wakingTest_still s c) _),
    tables_of_still (forEach_keeps _ _ (fun c s => endOfAudioTest_still s c) _),
    tables_of_still (forEach_keeps _ _ (fun c s => tailTest_still s c) _)]

@[simp] theorem frameBoundary_tables (ing : List (List Int)) : (frameBoundary ing s).1.tables = s.tables := by
  unfold frameBoundary handOff
  split
  · simp only
    rw [mapCalls_tables, tables_of_still (forEach_keeps (s := examine s) State.still (fun c s => liveStartTest_still s c) _),
      examine_tables]
  · rfl

@[simp] theorem acceptCall_tables (c : CallId) (o : Origin) (tag : Byte) (p : Nat) (target : ZoneSet) (src : Source) (retain : Bool) :
    (acceptCall c o tag p target src retain s).tables = s.tables := rfl

/-! ### Gates -/

@[simp] theorem requestAdmission_tables (g : GateId) : (requestAdmission g s).tables = s.tables := by
  unfold requestAdmission admissionFailed
  simp only
  split
  · exact tables_of_still (pushEvent_still _ _ _ _)
  · split
    · exact tables_of_still (pushEvent_still _ _ _ _)
    · rfl

@[simp] theorem openGate_tables (g : GateId) : (openGate g s).tables = s.tables := by
  have lit := fun u => tables_of_still (issueLights_still u g true)
  unfold openGate
  simp only
  split
  · rw [lit, modGate_tables]
  · rw [requestAdmission_tables, lit, modGate_tables]

@[simp] theorem closeGate_tables (g : GateId) (d : GateState) : (closeGate g d s).tables = s.tables := by
  unfold closeGate
  rw [tables_of_still (cancelAdmission_still _ _), tables_of_still (issueLights_still _ _ _), modGate_tables]

@[simp] theorem restartWindow_tables (g : GateId) : (restartWindow g s).tables = s.tables := rfl

@[simp] theorem gateEffect_tables (g : GateId) (k : MarkerClass) (force : Bool) : (gateEffect g k force s).tables = s.tables := by
  unfold gateEffect
  split
  · split <;> simp
  · split <;> simp
  all_goals simp

@[simp] theorem windowTest_tables (g : GateId) : (windowTest g s).tables = s.tables := by
  unfold windowTest
  split
  · split
    · split <;> simp
    · rfl
  · rfl

/-! ### The millisecond event -/

@[simp] theorem presenceTest_tables (e : EndpointId) : (presenceTest e s).tables = s.tables := by
  unfold presenceTest
  split
  · simp only
    split
    · rw [tables_of_still (loseEndpoint_still _ _), modEndpoint_tables _ _ (by intro r; rfl)]
    · exact modEndpoint_tables _ _ (by intro r; rfl)
  · rfl

@[simp] theorem sendReturn_tables (h : Header) (a : List Record) : (sendReturn h a s).tables = s.tables := rfl

@[simp] theorem runTask_tables (ing : List (List Int)) (t : MsTask) (p : State × HandOff) : (runTask ing t p).1.tables = p.1.tables := by
  cases t <;> simp only [runTask]
  case presence => exact forEach_keeps p.1 State.tables (fun e s => presenceTest_tables s e) _
  case idle => exact tables_of_still (forEach_keeps p.1 State.still (fun z s => idleTest_still s z) _)
  case windows => exact forEach_keeps p.1 State.tables (fun g s => windowTest_tables s g) _
  case escalation => rfl
  case retry => exact tables_of_still (retryTests_still _)
  case boundary => exact frameBoundary_tables _ _
  case returnFrame => split <;> rfl

@[simp] theorem millisecond_tables (n : BitVec 16) (ing : List (List Int)) (order : List MsTask) :
    (millisecond n ing order s).1.tables = s.tables := by
  have run : ∀ (l : List MsTask) (p : State × HandOff), (l.foldl (fun p t => runTask ing t p) p).1.tables = p.1.tables := by
    intro l
    induction l with
    | nil => intro p; rfl
    | cons t rest ih => intro p; rw [List.foldl_cons, ih, runTask_tables]
  exact run _ _

@[simp] theorem voxTest_tables (z : ZoneId) : (voxTest z s).tables = s.tables := by
  unfold voxTest
  split
  · exact whenSome_keeps _ _ (fun d t => modDesc_tables t d (fun r => voxStep_settings r _)) _
  · rfl

/-! ### Telemetry -/

@[simp] theorem welcome_tables (e : EndpointId) : (welcome e s).tables = s.tables := by
  apply tables_of_still
  unfold welcome
  split
  · simp only
    split <;> simp
  · simp only
    split
    · rw [whenSome_keeps _ _ (fun ch u => issue_still u e .channel _)]; simp
    · simp

theorem loopReport_still (e : EndpointId) (z : ZoneId) : (loopReport e z s).1.still = s.still := by
  unfold loopReport
  simp only
  split
  · rfl
  · split
    · rfl
    · split
      · rfl
      · split
        · exact modLoop_still _ _ (by intro r; rfl)
        · split <;> exact modLoop_still _ _ (by intro r; rfl)

theorem reportObservations_still (e : EndpointId) : (reportObservations e s).still = s.still := by
  have handed : ∀ (f : FaultRef) (o : Option Bool) (u : State), (observeIf f o u).still = u.still :=
    fun f o u => whenSome_keeps u _ (fun b v => observe_still v f b) o
  unfold reportObservations
  simp only [observe_still, handed]
  split
  · exact loopReport_still _ _ _
  all_goals rfl

theorem reissueTest_still (e : EndpointId) : (reissueTest e s).still = s.still := by
  unfold reissueTest
  simp only [apply_ite State.still, issuePower_still, ite_self]

@[simp] theorem telemetryFor_tables (e : EndpointId) (p : Power) (l : List Byte) : (telemetryFor e p l s).tables = s.tables := by
  have values : (modEndpoint e (fun r => r.afterTelemetry s.config.debounce s.now p l) s).tables = s.tables :=
    modEndpoint_tables _ _ (by intro r; rfl)
  have dropped : ∀ u : State, (match u.zoneOfEndpoint e with
      | some z => if (u.zone z).active = some e then checkDrop z u else u
      | none => u).tables = u.tables := by
    intro u
    apply tables_of_still
    split
    · split <;> simp
    · rfl
  have present : ∀ u : State, (becomePresent e u).tables = u.tables := fun u =>
    (welcome_tables _ e).trans (tables_of_still (observe_still _ _ _))
  have reported : ∀ u : State, (reissueTest e (reportObservations e u)).tables = u.tables := fun u =>
    (tables_of_still (reissueTest_still _ e)).trans (tables_of_still (reportObservations_still u e))
  have followed : ∀ (was : Presence) (u : State), (if (u.endpoint e).presence = .present then
      reissueTest e (reportObservations e (if was = .present then u else becomePresent e u)) else u).tables = u.tables := by
    intro was u
    split
    · rw [reported]; split
      · rfl
      · exact present u
    · rfl
  unfold telemetryFor
  exact (followed _ _).trans ((dropped _).trans values)

@[simp] theorem telemetry_tables (r : Record) : (telemetry r s).tables = s.tables := by
  unfold telemetry
  split
  · split <;> simp
  · rfl

@[simp] theorem intakeB_tables (rs : List Record) : (intakeB rs s).tables = s.tables := by
  refine forEach_keeps s State.tables (fun r u => ?_) rs
  split <;> simp

/-! ### The command unit -/

@[simp] theorem overrunOver_tables : (overrunOver s).tables = s.tables := by
  unfold overrunOver
  split
  · rw [tables_of_still (observe_still _ _ _)]; rfl
  · rfl

@[simp] theorem overrunNow_tables : (overrunNow s).tables = s.tables := by
  unfold overrunNow
  rw [tables_of_still (observe_still _ _ _)]; rfl

@[simp] theorem joinCommand_tables (c : Instr) : (joinCommand c s).tables = s.tables := by
  unfold joinCommand
  split
  · rw [overrunOver_tables]; unfold flowOnJoin; split <;> rfl
  · exact overrunNow_tables s

@[simp] theorem joinCue_tables (c : Instr) : (joinCue c s).tables = s.tables := by
  unfold joinCue
  split
  · rw [overrunOver_tables]; rfl
  · exact overrunNow_tables s

@[simp] theorem leaveCommand_tables : (leaveCommand s).tables = s.tables := by simp [State.tables]

@[simp] theorem leaveCue_tables : (leaveCue s).tables = s.tables := rfl

@[simp] theorem placeReply_tables (src : Node) (code req : Byte) (a : State × Answer) : (placeReply src code req a).tables = a.1.tables :=
  rfl

end Sys2Proof.Machine
end

section
/-! The invariants of memory, tables, records, limits and gains as one relation between a state and a later one; what a change of one
table has to show to keep them. -/

namespace Sys2Proof.Machine

/-- Every gain of a zone record lies within 0 to 65535 (R2). -/
def Zone.GainsBounded (r : Zone) : Prop :=
  r.trim ≤ 65535 ∧ r.callLevel ≤ 65535 ∧ r.callDuck ≤ 65535 ∧ r.reduceGain ≤ 65535 ∧ r.testLevel ≤ 65535 ∧ r.duckGain ≤ 65535 ∧
    r.voiceGain ≤ 65535 ∧ r.outputGain ≤ 65535

/-- The AGC gain of a loop record lies within its minimum and maximum (R53). -/
def LoopRecord.InRange (r : LoopRecord) : Prop := r.agcMin ≤ r.agc ∧ r.agc ≤ r.agcMax

theorem gainsBounded_iff (s : State) : s.GainsBounded ↔
    (∀ i : Fin 128, s.routes[i].gain ≤ 65535) ∧ (∀ z, (s.zone z).GainsBounded) ∧
    (∀ d : ParamId, s.descs[d].voiceGain ≤ 65535 ∧ s.descs[d].voxDepth ≤ 65535) ∧ (∀ l : ParamId, s.loops[l].agcMax ≤ 65535) := Iff.rfl

/-- What a step from `s` to `t` keeps: the invariants of StepKeepsTheTables. -/
structure KeepsTables (s t : State) : Prop where
  mem : s.mem.wf = true → t.mem.wf = true
  pages : s.PagesDistinct → t.PagesDistinct
  routes : s.RoutesDistinct → t.RoutesDistinct
  nodes : s.NodesDistinct → t.NodesDistinct
  bound : s.RecordsBoundOnce → t.RecordsBoundOnce
  kinds : s.KindLimits → t.KindLimits
  range : s.GainsInRange → t.GainsInRange
  gains : s.GainsInRange → s.GainsBounded → t.GainsBounded
  noise : s.noise ≠ 0 → t.noise ≠ 0

theorem KeepsTables.refl (s : State) : KeepsTables s s :=
  ⟨id, id, id, id, id, id, id, fun _ h => h, id⟩

theorem KeepsTables.trans {s t u : State} (a : KeepsTables s t) (b : KeepsTables t u) : KeepsTables s u where
  mem := b.mem ∘ a.mem
  pages := b.pages ∘ a.pages
  routes := b.routes ∘ a.routes
  nodes := b.nodes ∘ a.nodes
  bound := b.bound ∘ a.bound
  kinds := b.kinds ∘ a.kinds
  range := b.range ∘ a.range
  gains := fun r g => b.gains (a.range r) (a.gains r g)
  noise := b.noise ∘ a.noise

/-! ### States with the same tables -/

section
variable {s t : State}

theorem PagesDistinct.congr (h : t.messages = s.messages) (d : s.PagesDistinct) : t.PagesDistinct := by
  unfold State.PagesDistinct; rw [h]; exact d

theorem RoutesDistinct.congr (h : t.routes = s.routes) (d : s.RoutesDistinct) : t.RoutesDistinct := by
  unfold State.RoutesDistinct; rw [h]; exact d

theorem NodesDistinct.congr (h : ∀ e, (t.endpoint e).inUse = (s.endpoint e).inUse ∧ (t.endpoint e).node = (s.endpoint e).node)
    (d : s.NodesDistinct) : t.NodesDistinct := by
  intro i j hi hj hn
  rw [(h i).1] at hi; rw [(h j).1] at hj; rw [(h i).2, (h j).2] at hn
  exact d i j hi hj hn

theorem RecordsBoundOnce.congr (hl : ∀ l : ParamId, t.loops[l].zone = s.loops[l].zone)
    (hd : ∀ d : ParamId, t.descs[d].zone = s.descs[d].zone ∧ t.descs[d].channel = s.descs[d].channel) (b : s.RecordsBoundOnce) :
    t.RecordsBoundOnce := by
  intro i j ne
  rw [hl i, hl j, (hd i).1, (hd i).2, (hd j).1, (hd j).2]
  exact b i j ne

theorem KindLimits.congr (h : ∀ z, (t.zone z).enabled = (s.zone z).enabled ∧ (t.zone z).kind = (s.zone z).kind) (k : s.KindLimits) :
    t.KindLimits := by
  unfold State.KindLimits
  simp only [(h _).1, (h _).2]
  exact k

theorem Zone.GainsBounded.congr {r q : Zone} (h : q.still = r.still) (b : r.GainsBounded) : q.GainsBounded := by
  have same : ∀ p : Zone, p.GainsBounded ↔ p.still.GainsBounded := fun _ => Iff.rfl
  rw [same, h]; exact b

theorem LoopRecord.InRange.congr {r q : LoopRecord} (h : q.still = r.still) (b : r.InRange) : q.InRange := by
  have same : ∀ p : LoopRecord, p.InRange ↔ p.still.InRange := fun _ => Iff.rfl
  rw [same, h]; exact b

/-- An entry read through a view of its table. -/
theorem map_get {α β : Type} {n : Nat} (f : α → β) {v w : Vector α n} (h : w.map f = v.map f) (i : Fin n) : f w[i] = f v[i] := by
  have := congrArg (fun x : Vector β n => x[i]) h
  simpa using this

/-- Two states with the same tables meet the same invariants. -/
theorem KeepsTables.of_tables (h : t.tables = s.tables) : KeepsTables s t := by
  simp only [State.tables, TableView.mk.injEq] at h
  obtain ⟨mem, messages, routes, noise, zones, endpoints, loops, descs⟩ := h
  have zone := map_get Zone.still zones
  have endpoint := map_get Endpoint.settings endpoints
  have loop := map_get LoopRecord.still loops
  have desc := map_get DescRecord.settings descs
  refine ⟨mem ▸ id, PagesDistinct.congr messages, RoutesDistinct.congr routes, NodesDistinct.congr fun e => ?_,
    RecordsBoundOnce.congr (fun l => ?_) (fun d => ?_), KindLimits.congr fun z => ?_, fun r l => LoopRecord.InRange.congr (loop l) (r l), fun _ g => ?_,
    noise ▸ id⟩
  · exact ⟨(congrArg Endpoint.inUse (endpoint e) :), (congrArg Endpoint.node (endpoint e) :)⟩
  · exact (congrArg LoopRecord.zone (loop l) :)
  · exact ⟨(congrArg DescRecord.zone (desc d) :), (congrArg DescRecord.channel (desc d) :)⟩
  · exact ⟨(congrArg Zone.enabled (zone z) :), (congrArg Zone.kind (zone z) :)⟩
  · obtain ⟨gr, gz, gd, gl⟩ := g
    refine ⟨routes ▸ gr, fun z => Zone.GainsBounded.congr (zone z) (gz z), fun d => ?_, fun l => ?_⟩
    · have voice : t.descs[d].voiceGain = s.descs[d].voiceGain := (congrArg DescRecord.voiceGain (desc d) :)
      have depth : t.descs[d].voxDepth = s.descs[d].voxDepth := (congrArg DescRecord.voxDepth (desc d) :)
      rw [voice, depth]; exact gd d
    · have top : t.loops[l].agcMax = s.loops[l].agcMax := (congrArg LoopRecord.agcMax (loop l) :)
      rw [top]; exact gl l

/-- What leaves `still` as it was keeps every invariant. -/
theorem KeepsTables.of_still (h : t.still = s.still) : KeepsTables s t := .of_tables (tables_of_still h)

end

/-! ### A change of one table -/

section
variable {s : State}

theorem KeepsTables.setMem {m : Memory} (h : s.mem.wf = true → m.wf = true) : KeepsTables s { s with mem := m } :=
  { KeepsTables.refl s with mem := h }

theorem KeepsTables.setMessages {v : Vector Message 64} (h : s.PagesDistinct → { s with messages := v }.PagesDistinct) :
    KeepsTables s { s with messages := v } :=
  { KeepsTables.refl s with pages := h }

theorem KeepsTables.setRoutes {v : Vector Route 128} (hd : s.RoutesDistinct → { s with routes := v }.RoutesDistinct)
    (hb : (∀ i : Fin 128, s.routes[i].gain ≤ 65535) → ∀ i : Fin 128, v[i].gain ≤ 65535) : KeepsTables s { s with routes := v } :=
  { KeepsTables.refl s with routes := hd, gains := fun _ g => ⟨hb g.1, g.2⟩ }

theorem KeepsTables.setNoise {x : BitVec 23} (h : s.noise ≠ 0 → x ≠ 0) : KeepsTables s { s with noise := x } :=
  { KeepsTables.refl s with noise := h }

theorem KeepsTables.setEndpoints {v : Vector Endpoint 48} (h : s.NodesDistinct → { s with endpoints := v }.NodesDistinct) :
    KeepsTables s { s with endpoints := v } :=
  { KeepsTables.refl s with nodes := h }

theorem KeepsTables.setZones {v : Vector Zone 32} (hk : s.KindLimits → { s with zones := v }.KindLimits)
    (hb : s.GainsInRange → s.GainsBounded → ∀ z : ZoneId, v[z].GainsBounded) : KeepsTables s { s with zones := v } :=
  { KeepsTables.refl s with
    kinds := hk
    gains := fun r g => ⟨g.1, hb r g, g.2.2⟩ }

theorem KeepsTables.setLoops {v : Vector LoopRecord 8} (hz : s.RecordsBoundOnce → { s with loops := v }.RecordsBoundOnce)
    (hr : s.GainsInRange → ∀ l : ParamId, v[l].InRange)
    (hb : (∀ l : ParamId, s.loops[l].agcMax ≤ 65535) → ∀ l : ParamId, v[l].agcMax ≤ 65535) : KeepsTables s { s with loops := v } :=
  { KeepsTables.refl s with
    bound := hz
    range := hr
    gains := fun _ g => ⟨g.1, g.2.1, g.2.2.1, hb g.2.2.2⟩ }

theorem KeepsTables.setDescs {v : Vector DescRecord 8} (hz : s.RecordsBoundOnce → { s with descs := v }.RecordsBoundOnce)
    (hb : (∀ d : ParamId, s.descs[d].voiceGain ≤ 65535 ∧ s.descs[d].voxDepth ≤ 65535) →
      ∀ d : ParamId, v[d].voiceGain ≤ 65535 ∧ v[d].voxDepth ≤ 65535) : KeepsTables s { s with descs := v } :=
  { KeepsTables.refl s with
    bound := hz
    gains := fun _ g => ⟨g.1, g.2.1, hb g.2.2.1, g.2.2.2⟩ }

/-- A change of one zone record that keeps the limits of the kinds and bounds its gains. -/
theorem KeepsTables.modZone {z : ZoneId} {f : Zone → Zone} (hk : s.KindLimits → (modZone z f s).KindLimits)
    (hb : s.GainsBounded → (f (s.zone z)).GainsBounded) : KeepsTables s (modZone z f s) := by
  refine .setZones hk fun _ g y => ?_
  rw [vector_set_get]
  split
  · exact hb g
  · exact g.2.1 y

/-- A change of one zone record that leaves its kind and whether it is enabled, and bounds its gains. -/
theorem KeepsTables.modZone_same {z : ZoneId} {f : Zone → Zone} (he : ∀ r, (f r).enabled = r.enabled) (hk : ∀ r, (f r).kind = r.kind)
    (hb : s.GainsBounded → (f (s.zone z)).GainsBounded) : KeepsTables s (Machine.modZone z f s) := by
  refine .modZone (KindLimits.congr fun y => ?_) hb
  rw [modZone_zone]
  split
  · subst y; exact ⟨he _, hk _⟩
  · exact ⟨rfl, rfl⟩

/-- A change of one loop record that leaves its zone. -/
theorem KeepsTables.modLoop_same {l : ParamId} {f : LoopRecord → LoopRecord} (hz : (f s.loops[l]).zone = s.loops[l].zone)
    (hr : s.loops[l].InRange → (f s.loops[l]).InRange)
    (hb : s.loops[l].agcMax ≤ 65535 → (f s.loops[l]).agcMax ≤ 65535) : KeepsTables s (Machine.modLoop l f s) := by
  have read := modLoop_loops s l f
  refine .setLoops (RecordsBoundOnce.congr (fun x => ?_) fun _ => ⟨rfl, rfl⟩) (fun r x => ?_) (fun b x => ?_) <;>
    rw [vector_set_get] <;> split
  · subst x; exact hz
  · rfl
  · exact hr (r l)
  · exact r x
  · exact hb (b l)
  · exact b x

/-- A change of one description record that leaves its zone and channel. -/
theorem KeepsTables.modDesc_same {d : ParamId} {f : DescRecord → DescRecord} (hz : (f s.descs[d]).zone = s.descs[d].zone)
    (hc : (f s.descs[d]).channel = s.descs[d].channel)
    (hb : s.descs[d].voiceGain ≤ 65535 ∧ s.descs[d].voxDepth ≤ 65535 →
      (f s.descs[d]).voiceGain ≤ 65535 ∧ (f s.descs[d]).voxDepth ≤ 65535) : KeepsTables s (Machine.modDesc d f s) := by
  refine .setDescs (RecordsBoundOnce.congr (fun _ => rfl) fun x => ?_) (fun b x => ?_) <;> rw [vector_set_get] <;> split
  · subst x; exact ⟨hz, hc⟩
  · exact ⟨rfl, rfl⟩
  · exact hb (b d)
  · exact b x

/-- What each change of a run over a list keeps, the run keeps. -/
theorem KeepsTables.forEach {α : Type} {f : α → State → State} (h : ∀ a s, KeepsTables s (f a s)) (l : List α) (s : State) :
    KeepsTables s (forEach l f s) := by
  induction l generalizing s with
  | nil => exact .refl s
  | cons a rest ih => exact (h a s).trans (ih _)

end

/-! ### Reset (O3) -/

theorem reset_zone (z : ZoneId) : State.reset.zone z = {} := by simp [State.zone, State.reset]

theorem reset_endpoint (e : EndpointId) : State.reset.endpoint e = {} := by simp [State.endpoint, State.reset]

theorem reset_call (c : CallId) : State.reset.call c = {} := by simp [State.call, State.reset]

theorem reset_route (i : Fin 128) : State.reset.routes[i] = {} := by simp [State.reset]

theorem reset_message (i : MessageId) : State.reset.messages[i] = .free := by simp [State.reset]

theorem reset_loop (l : ParamId) : State.reset.loops[l] = {} := by simp [State.reset]

theorem reset_desc (d : ParamId) : State.reset.descs[d] = {} := by simp [State.reset]

theorem reset_fault (f : FaultRef) : State.reset.fault f = {} := by
  cases f <;> simp [State.fault, State.reset, FaultTable.get]

theorem reset_kindLimits : State.reset.KindLimits := by
  have none_enabled : ∀ k : ZoneKind, (allZones.countP fun z => (State.reset.zone z).enabled && (State.reset.zone z).kind == k) = 0 := by
    intro k; simp [reset_zone]
  unfold State.KindLimits
  simp [none_enabled]

theorem reset_gainsBounded : State.reset.GainsBounded :=
  (gainsBounded_iff _).mpr
    ⟨fun i => by rw [reset_route]; decide, fun z => by rw [reset_zone]; unfold Zone.GainsBounded; decide,
      fun d => by rw [reset_desc]; decide, fun l => by rw [reset_loop]; decide⟩

theorem reset_alertTrue : State.reset.AlertTrue := by
  have quiet : ∀ f, (({} : FaultTable).get f).state.actionable = false := fun f => by
    have := reset_fault f
    unfold State.fault at this
    rw [show State.reset.faults = {} from rfl] at this
    rw [this]; rfl
  show false = _
  rw [eq_comm]
  exact List.any_eq_false.mpr fun f _ => by simp [show State.reset.faults = {} from rfl, quiet]

/-- Settles O3: every table is at its reset entries, which meet each invariant. -/
theorem resetMeetsTheInvariants : Obligations.ResetMeetsTheInvariants := by
  refine ⟨⟨rfl, ?_, ?_, ?_, ?_, reset_kindLimits, ?_, reset_gainsBounded, by decide⟩, ⟨?_, List.Pairwise.nil, ?_, reset_alertTrue⟩,
    ⟨?_, ?_, ?_⟩, ?_⟩
  · intro i j _ x y hx
    rw [reset_message] at hx; cases hx
  · intro i j hi
    rw [reset_route] at hi; cases hi
  · intro i j hi
    rw [reset_endpoint] at hi; cases hi
  · intro i j _
    rw [reset_loop, reset_desc]
    exact ⟨fun h => (nomatch h), fun h => (nomatch h)⟩
  · intro l
    rw [reset_loop]; decide
  · exact ⟨by decide, by decide, by decide, by decide⟩
  · intro h; cases h
  · intro c
    rw [reset_call]; rfl
  · intro c d _ hc
    rw [reset_call] at hc; cases hc
  · intro c d n m _ hc
    rw [reset_call] at hc; exact absurd rfl hc
  · intro c i hc
    rw [reset_call] at hc; exact absurd rfl hc

end Sys2Proof.Machine
end

section
/-! Every operation of the mix engine and every command keeps the invariants of memory, tables, records, limits and gains. -/

namespace Sys2Proof.Machine

/-! ### The mix event (R12, R14 to R17, R23) -/

theorem nextGain_le {b g0 target : Nat} (fresh : Bool) (step : Nat) (h0 : g0 ≤ b) (ht : target ≤ b) :
    nextGain fresh g0 target step ≤ b := by
  unfold nextGain
  split
  · exact h0
  · exact (slew_between g0 target step).2.trans (max_le h0 ht)

theorem duckTarget_le (s : State) (z : ZoneId) (claim : Option (CallState × PlayerId)) : s.duckTarget z claim ≤ 65535 :=
  (duckTarget_eq s z claim ▸ min_le_left _ _).trans (by decide)

section
variable {s : State} (g : s.GainsBounded) (z : ZoneId)
include g

theorem servingDesc_voiceGain_le {d : DescRecord} (h : s.servingDesc z = some d) : d.voiceGain ≤ 65535 := by
  unfold State.servingDesc at h
  split at h
  · obtain ⟨i, -, rfl⟩ := Option.map_eq_some_iff.mp h
    exact (g.2.2.1 i).1
  · cases h

theorem voiceTarget_le (claim : Option (CallState × PlayerId)) : s.voiceTarget z claim ≤ 65535 := by
  unfold State.voiceTarget
  split
  · decide
  · split
    · exact servingDesc_voiceGain_le g z ‹_›
    · decide

theorem outputBase_le : s.outputBase z ≤ 65535 := by
  unfold State.outputBase
  split
  · exact comp_le _ _
  · exact (g.2.1 z).1

theorem outputTarget_le : s.outputTarget z ≤ 65535 := by
  unfold State.outputTarget
  split
  · exact outputBase_le g z
  · exact comp_le _ _
  · decide

/-- A zone record after its block has bounded gains. -/
theorem afterMix_gainsBounded (ing : List (List Int)) (bus : List Int) (h : HandOff) (noise : List (BitVec 23)) :
    ((s.zone z).afterMix (s.zoneChain ing bus h noise z)).GainsBounded := by
  obtain ⟨trim, level, duck, reduce, test, duckGain, voiceGain, outputGain⟩ := g.2.1 z
  refine ⟨trim, level, duck, reduce, test, ?_, ?_, ?_⟩
  · exact nextGain_le _ _ duckGain (duckTarget_le s z _)
  · show (s.zoneChain ing bus h noise z).voice ≤ 65535
    rw [zoneChain_voice]
    split
    · exact nextGain_le _ _ voiceGain (voiceTarget_le g z _)
    · exact voiceGain
  · exact nextGain_le _ _ outputGain (outputTarget_le g z)

end

/-- The block that a zone forms in a mix event: in SERVICE, while it is enabled (R5, R19). -/
theorem mixOf_zoneMixes (s : State) (ing : List (List Int)) (h : HandOff) (z : ZoneId) : mixOf (s.zoneMixes ing h) z =
    if s.service = .service ∧ (s.zone z).enabled then
      some (s.zoneChain ing (busBlock s.routes ing (s.zone z).bus) h (noiseRun Config.blockLength s.noise) z) else none := by
  simp [mixOf, State.zoneMixes, allZones, List.getD_eq_getElem?_getD]

theorem mixEvent_zone (ing : List (List Int)) (mixes : List (Option ZoneMix)) (s : State) (z : ZoneId) :
    (mixEvent ing mixes s).zone z = ((mixOf mixes z).map (s.zone z).afterMix).getD (s.zone z) := by
  cases h : mixOf mixes z <;> simp [State.zone, mixEvent, allZones, h]

theorem mixEvent_noise (ing : List (List Int)) (mixes : List (Option ZoneMix)) (s : State) :
    (mixEvent ing mixes s).noise = noiseStep^[48] s.noise := noiseRun_getLastD 48 s.noise

theorem mixEvent_keeps (ing : List (List Int)) (h : HandOff) (s : State) : KeepsTables s (mixEvent ing (s.zoneMixes ing h) s) := by
  have zones : KeepsTables s { s with zones := (mixEvent ing (s.zoneMixes ing h) s).zones } := by
    refine .setZones (KindLimits.congr fun z => ?_) fun _ g z => ?_
    · have mixed := mixEvent_zone ing (s.zoneMixes ing h) s z
      change (State.zone (mixEvent ing (s.zoneMixes ing h) s) z).enabled = _ ∧ (State.zone (mixEvent ing (s.zoneMixes ing h) s) z).kind = _
      rw [mixed]
      cases mixOf (s.zoneMixes ing h) z <;> exact ⟨rfl, rfl⟩
    · change (State.zone (mixEvent ing (s.zoneMixes ing h) s) z).GainsBounded
      rw [mixEvent_zone, mixOf_zoneMixes]
      split
      · exact afterMix_gainsBounded g z ing _ h _
      · exact g.2.1 z
  refine zones.trans ((KeepsTables.setNoise (x := (mixEvent ing (s.zoneMixes ing h) s).noise) fun n => ?_).trans (.of_tables rfl))
  rw [mixEvent_noise]
  exact noiseStep_iterate_ne_zero n 48

/-! ### The AGC step (R55) -/

theorem afterStep_inRange {l : LoopRecord} (k : AgcCase) (p : Nat) (h : l.InRange) : (l.afterStep k p).InRange := by
  obtain ⟨lo, hi⟩ := h
  cases k <;> constructor <;> simp only [LoopRecord.afterStep, LoopRecord.agcAfter] <;> omega

theorem agcStep_keeps (h : HandOff) (z : ZoneId) (s : State) : KeepsTables s (agcStep h z s) := by
  unfold agcStep
  split
  · split
    · rename_i l _
      have moved : ∀ k p, KeepsTables s (modLoop l (fun _ => s.loops[l].afterStep k p) s) :=
        fun k p => .modLoop_same rfl (afterStep_inRange k p) fun b => b
      exact (moved _ _).trans (.of_still ((observe_still _ _ _).trans (observe_still _ _ _)))
    · exact .refl s
  · exact .refl s

/-! ### Frames -/

theorem downstream_keeps (h : Header) (arrived : Option (List (List WireSample))) (a : List Record) (order : List MsTask) (s : State) :
    KeepsTables s (downstream h arrived a order s) := by
  have steps : ∀ (u : State) (hand : HandOff) (mixes : List (Option ZoneMix)), KeepsTables u (afterMixSteps hand mixes u) := by
    intro u hand mixes
    refine .forEach (fun z v => ?_) _ u
    split
    · exact (agcStep_keeps hand z v).trans (.of_tables (voxTest_tables _ z))
    · exact .refl v
  unfold downstream
  exact (KeepsTables.of_tables (millisecond_tables s _ _ _)).trans
    ((mixEvent_keeps _ _ _).trans ((steps _ _ _).trans (.of_tables rfl)))

theorem generatedFrame_keeps (order : List MsTask) (s : State) : KeepsTables s (generatedFrame order s) := downstream_keeps _ _ _ _ _

/-! ### Management (R155, R156, R130) -/

theorem clampTo_le {lo hi v : Nat} (h : lo ≤ hi) : clampTo lo hi v ≤ hi := max_le h (min_le_left _ _)

theorem le_clampTo (lo hi v : Nat) : lo ≤ clampTo lo hi v := le_max_left _ _

theorem LoopRecord.start_inRange {l : LoopRecord} (h : l.InRange) : l.start.InRange := ⟨le_clampTo _ _ _, clampTo_le (h.1.trans h.2)⟩

theorem setGains_keeps (z : ZoneId) (s : State) : KeepsTables s (setGains z s) := by
  refine .modZone_same (fun _ => rfl) (fun _ => rfl) fun g => ?_
  obtain ⟨trim, level, duck, reduce, test, duckGain, voiceGain, outputGain⟩ := g.2.1 z
  refine ⟨trim, level, duck, reduce, test, (by decide : 16384 ≤ 65535), ?_, outputTarget_le g z⟩
  show (if _ then _ else _) ≤ _
  split
  · exact voiceTarget_le g z none
  · exact voiceGain

theorem setCommanded_tables (s : State) : (setCommanded s).tables = s.tables := by
  have same : (setCommanded s).endpoints.map Endpoint.settings = s.endpoints.map Endpoint.settings := by
    ext i hi
    have entry := vmap_get (fun e => if (s.endpoint e).inUse then { s.endpoint e with commanded := s.commandedPower e }
      else s.endpoint e) (Vector.ofFn fun e : Fin 48 => e) ⟨i, hi⟩
    simp only [Fin.getElem_fin, Vector.getElem_ofFn] at entry
    rw [Vector.getElem_map, Vector.getElem_map]
    simp only [setCommanded]
    rw [entry]
    split <;> rfl
  simp only [State.tables, same]
  rfl

/-- A function applied to every entry leaves a view that it does not change. -/
theorem vmap_map_same {α β : Type} {n : Nat} {f : α → α} {g : α → β} (h : ∀ a, g (f a) = g a) (v : Vector α n) :
    (vmap f v).map g = v.map g := by
  ext i hi
  have entry := vmap_get f v ⟨i, hi⟩
  simp only [Fin.getElem_fin] at entry
  rw [Vector.getElem_map, Vector.getElem_map, entry, h]

theorem startService_keeps (s : State) : KeepsTables s (startService s) := by
  have zones : KeepsTables s { s with zones := vmap (Zone.atCommit s.now) s.zones } := by
    refine .setZones (KindLimits.congr fun z => ?_) fun _ g z => ?_
    · simp only [State.zone, vmap_get]; exact ⟨rfl, rfl⟩
    · rw [vmap_get]
      obtain ⟨trim, level, duck, reduce, -, gains⟩ := g.2.1 z
      exact ⟨trim, level, duck, reduce, (by decide : 8192 ≤ 65535), gains⟩
  have loops : ∀ u : State, KeepsTables u { u with loops := vmap (fun l => if l.zone.isSome then l.start else l) u.loops } := by
    intro u
    refine .setLoops (RecordsBoundOnce.congr (fun l => ?_) fun _ => ⟨rfl, rfl⟩) (fun r l => ?_) (fun b l => ?_) <;>
      simp only [vmap_get] <;> split
    · rfl
    · rfl
    · exact LoopRecord.start_inRange (r l)
    · exact r l
    · exact b l
    · exact b l
  have descs : ∀ v : Vector DescRecord 8,
      (vmap (fun d : DescRecord => if d.zone.isSome then d.start else d) v).map DescRecord.settings = v.map DescRecord.settings :=
    vmap_map_same fun d => by split <;> rfl
  have endpoints := vmap_map_same (f := Endpoint.atCommit) (g := Endpoint.settings) (fun _ => rfl) s.endpoints
  unfold startService
  refine KeepsTables.trans ?_ ((KeepsTables.forEach setGains_keeps _ _).trans (.of_tables (setCommanded_tables _)))
  refine (zones.trans (loops _)).trans (.of_tables ?_)
  simp only [State.tables, withFaults_endpoints, withFaults_zones, withFaults_loops, withFaults_now, descs, endpoints]
  rfl

theorem commitBody_keeps (s : State) : KeepsTables s (commitBody s).1 := by
  unfold commitBody
  split
  · exact .refl s
  · split
    · exact .refl s
    · exact startService_keeps s

theorem stopService_tables (s : State) : (stopService s).tables = s.tables := by
  have zones := vmap_map_same (f := fun r : Zone => { r with protection := .normal }) (g := Zone.still) (fun _ => rfl) s.zones
  have endpoints := vmap_map_same (f := Endpoint.atReconfigure) (g := Endpoint.settings) (fun _ => rfl) s.endpoints
  have loops := vmap_map_same (f := fun l : LoopRecord => { l with candidate := none, accumulator := 0 }) (g := LoopRecord.still)
    (fun _ => rfl) s.loops
  have descs := vmap_map_same (f := DescRecord.start) (g := DescRecord.settings) (fun _ => rfl) s.descs
  simp only [State.tables, stopService, zones, endpoints, loops, descs]
  rfl

theorem reconfigureGate_tables (g : GateId) (s : State) : (reconfigureGate g s).tables = s.tables := by
  unfold reconfigureGate
  rw [modGate_tables]
  split
  · rw [tables_of_still (cancelAdmission_still _ _), tables_of_still (queueLightsOff_still _ _), modGate_tables]
  · rfl

theorem reconfigureBody_keeps (s : State) : KeepsTables s (reconfigureBody s).1 := by
  have cancelled : ∀ (c : CallId) (u : State), (cancelForReconfigure c u).still = u.still := by
    intro c u; unfold cancelForReconfigure; split <;> simp
  unfold reconfigureBody
  split
  · exact .refl s
  · refine .of_tables ?_
    rw [stopService_tables, forEach_keeps _ State.tables (fun g u => reconfigureGate_tables g u),
      tables_of_still (forEach_keeps _ State.still cancelled _)]

theorem exchangeFaults_still (sel : Selector) (mask : BitVec 16) (s : State) : (exchangeFaults sel mask s).still = s.still := by
  unfold exchangeFaults
  refine (forEach_keeps _ State.still (fun z u => ?_) _).trans (withFaults_still _ _)
  split
  · split
    · exact deriveProtection_still u z
    · rfl
  · rfl

theorem clearFaultsBody_keeps (sel index : Byte) (mask : BitVec 16) (s : State) : KeepsTables s (clearFaultsBody sel index mask s).1 := by
  unfold clearFaultsBody
  split
  · exact .refl s
  · split
    · exact .refl s
    · exact .of_still (exchangeFaults_still _ _ _)

/-! ### Reads (R151, R152) -/

theorem readPart_state (layout : List Byte) (part : Byte) (b : Bool) (s : State) : (readPart layout part b s).1 = s := by
  unfold readPart; split <;> rfl

theorem statusReadBody_state (cls index kind part : Byte) (s : State) : (statusReadBody cls index kind part s).1 = s := by
  unfold statusReadBody; split
  · exact readPart_state _ _ _ _
  · rfl

theorem tableReadBody_state (table index group part : Byte) (s : State) : (tableReadBody table index group part s).1 = s := by
  unfold tableReadBody
  split
  · rfl
  · split
    · rfl
    · split
      · rfl
      · exact readPart_state _ _ _ _

/-! ### Zone and gate commands (R31, R32, R48, R113) -/

theorem setTest_keeps (mode : TestMode) {level : Nat} (h : level ≤ 65535) (z : ZoneId) (s : State) :
    KeepsTables s (setTest mode level z s) := by
  have put : KeepsTables s (modZone z (fun r => { r with testMode := mode, testLevel := level }) s) := by
    refine .modZone_same (fun _ => rfl) (fun _ => rfl) fun g => ?_
    obtain ⟨trim, callLevel, duck, reduce, -, gains⟩ := g.2.1 z
    exact ⟨trim, callLevel, duck, reduce, h, gains⟩
  unfold setTest
  simp only
  split
  · exact put
  · exact put.trans (.of_still (endCandidate_still _ z))

theorem followTest_still (mode was : TestMode) (z : ZoneId) (s : State) : (followTest mode was z s).still = s.still := by
  unfold followTest
  simp only
  split <;> split <;> simp

theorem testBody_keeps (mode : Byte) (level : BitVec 16) (mask : ZoneSet) (s : State) : KeepsTables s (testBody mode level mask s).1 := by
  unfold testBody
  split
  · exact .refl s
  · split
    · exact .refl s
    · split
      · exact .refl s
      · split
        · exact (KeepsTables.forEach (setTest_keeps _ (by omega)) _ s).trans
            (.of_still (forEach_keeps _ State.still (fun z u => followTest_still _ _ z u) _))
        · exact .refl s

theorem setSuspended_keeps (on : Bool) (z : ZoneId) (s : State) : KeepsTables s (setSuspended on z s) := by
  unfold setSuspended
  split
  · exact .refl s
  · refine KeepsTables.trans (.modZone_same (f := fun r => { r with suspended := on }) (fun _ => rfl) (fun _ => rfl)
      fun g => g.2.1 z) (.of_still ?_)
    split <;> simp

theorem suspendBody_keeps (zone setting : Byte) (s : State) : KeepsTables s (suspendBody zone setting s).1 := by
  unfold suspendBody
  split
  · exact .refl s
  · split
    · exact .refl s
    · split
      · exact .refl s
      · exact setSuspended_keeps _ _ s

theorem swapBody_keeps (zone : Byte) (s : State) : KeepsTables s (swapBody zone s).1 := by
  unfold swapBody
  split
  · exact .refl s
  · split
    · exact .refl s
    · split
      · exact .refl s
      · split
        · exact .of_still (swapZone_still s _)
        · exact .refl s

theorem gateForceBody_keeps (gate action : Byte) (s : State) : KeepsTables s (gateForceBody gate action s).1 := by
  unfold gateForceBody
  split
  · exact .refl s
  · split
    · exact .refl s
    · split
      · exact .refl s
      · exact .of_tables (gateEffect_tables s _ _ _)

theorem markerBody_keeps (code : Byte) (s : State) : KeepsTables s (markerBody code s) := by
  unfold markerBody
  split
  · exact .of_tables ((gateEffect_tables _ _ _ _).trans (gateEffect_tables _ _ _ _))
  · exact .refl s

/-! ### Messages (R78 to R82) -/

/-- The pages of a set of entries stay distinct when one entry takes the pages it had, fewer, or pages that no other entry holds. -/
theorem setMessage_pages {s : State} {i : MessageId} {m : Message} (h : s.PagesDistinct)
    (free : ∀ x, m.extent = some x → ∀ j, j ≠ i → ∀ y, s.messages[j].extent = some y → pagesOverlap x.1 x.2.1 y.1 y.2.1 = false) :
    (setMessage i m s).PagesDistinct := by
  have mirrored : ∀ a b c d : Nat, pagesOverlap a b c d = false → pagesOverlap c d a b = false := by
    intro a b c d; simp only [pagesOverlap, decide_eq_false_iff_not]; omega
  intro j k ne x y hx hy
  simp only [setMessage_messages, vector_set_get] at hx hy
  split at hx <;> split at hy
  · subst j; subst k; exact absurd rfl ne
  · exact free x hx k ‹_› y hy
  · exact mirrored _ _ _ _ (free y hy j ‹_› x hx)
  · exact h j k ne x y hx hy

/-- An entry that is freed, or keeps its start page and length, keeps the pages distinct. -/
theorem setMessage_pages_same {s : State} {i : MessageId} {m : Message} (h : s.PagesDistinct)
    (same : ∀ x, m.extent = some x → ∃ p, s.messages[i].extent = some (x.1, x.2.1, p)) : (setMessage i m s).PagesDistinct := by
  refine setMessage_pages h fun x hx j ne y hy => ?_
  obtain ⟨p, hp⟩ := same x hx
  exact h i j (Ne.symm ne) (x.1, x.2.1, p) y hp hy

theorem msgOpenBody_keeps (id : Byte) (page : BitVec 16) (length : BitVec 32) (s : State) :
    KeepsTables s (msgOpenBody id page length s).1 := by
  unfold msgOpenBody
  split
  · exact .refl s
  · split
    · exact .refl s
    · split
      · exact .refl s
      · split
        · exact .refl s
        · rename_i i _ _ _ untaken
          refine .setMessages fun h => setMessage_pages h fun x hx j ne y hy => ?_
          obtain rfl : (page.toNat, length.toNat, 0) = x := Option.some.inj hx
          have clear := untaken
          simp only [State.pagesTaken, List.any_eq_true, not_exists, not_and] at clear
          have := clear j (List.mem_finRange j)
          rw [hy] at this
          simpa [ne] using this

theorem msgDataBody_keeps (id : BitVec 6) (words : List (BitVec 16)) (s : State) : KeepsTables s (msgDataBody id words s).1 := by
  unfold msgDataBody
  split
  · rename_i start length pointer entry
    refine KeepsTables.trans (.setMem (loadWords_wf start length words pointer)) (.setMessages fun h => setMessage_pages_same h ?_)
    intro x hx
    cases hx
    exact ⟨pointer, by rw [show ∀ m : Memory, ({ s with mem := m } : State).messages = s.messages from fun _ => rfl, entry]; rfl⟩
  · exact .refl s
  · exact .refl s

theorem msgCloseBody_keeps (id : Byte) (s : State) : KeepsTables s (msgCloseBody id s).1 := by
  unfold msgCloseBody
  split
  · exact .refl s
  · split
    · rename_i start length pointer entry
      split
      · refine .setMessages fun h => setMessage_pages_same h fun x hx => ?_
        cases hx
        exact ⟨pointer, by rw [entry]; rfl⟩
      · exact .setMessages fun h => setMessage_pages_same h fun x hx => nomatch hx
    · exact .refl s
    · exact .refl s

theorem msgDeleteBody_keeps (id : Byte) (s : State) : KeepsTables s (msgDeleteBody id s).1 := by
  unfold msgDeleteBody
  split
  · exact .refl s
  · split
    · exact .refl s
    · split
      · exact .refl s
      · exact .setMessages fun h => setMessage_pages_same h fun x hx => nomatch hx

theorem msgReadBody_keeps (id : BitVec 6) (offset : BitVec 24) (s : State) : KeepsTables s (msgReadBody id offset s).1 := by
  unfold msgReadBody
  split
  · exact .refl s
  · split <;> exact .refl s

/-! ### Cues (R86, R88, R89) -/

theorem callStartBody_keeps (src : Node) (tag : Byte) (p : BitVec 3) (retain : Bool) (target : ZoneSet) (source : CallSource) (s : State) :
    KeepsTables s (callStartBody src tag p retain target source s).1 := by
  unfold callStartBody
  split
  · exact .refl s
  · split
    · exact .refl s
    · split
      · exact .refl s
      · split
        · exact .refl s
        · split
          · exact .refl s
          · exact .of_tables rfl

theorem cancelAnswer_keeps (c : CallId) (s : State) : KeepsTables s (cancelAnswer c s).1 := by
  unfold cancelAnswer
  split
  · exact .refl s
  · exact .of_still (cancelCall_still s c)

theorem callCancelBody_keeps (tag : Byte) (s : State) : KeepsTables s (callCancelBody tag s).1 := by
  unfold callCancelBody
  split
  · exact .refl s
  · split
    · exact .refl s
    · exact cancelAnswer_keeps _ s

theorem callEndBody_keeps (tag : Byte) (s : State) : KeepsTables s (callEndBody tag s).1 := by
  unfold callEndBody
  split
  · exact .refl s
  · split
    · exact .refl s
    · split
      · exact .refl s
      · split
        · exact .of_still (enterTail_still s _ _)
        · exact cancelAnswer_keeps _ s

end Sys2Proof.Machine
end

section
/-! Every table write, every taking of a record and every event keeps the invariants of memory, tables, records, limits and gains: the
proof of StepKeepsTheTables. -/

namespace Sys2Proof.Machine

/-! ### Common checks (R149, R162) -/

section
variable {s : State}

@[simp] theorem written_state (c : Bool) (i : Nat) (s : State) : (written c i s).1 = s := rfl

theorem checkedWrite_keeps {t : Table} {w : TableWrite} {body : State → State × Answer} (h : ∀ s, KeepsTables s (body s).1) :
    KeepsTables s (checkedWrite t w body s).1 := by
  unfold checkedWrite
  split
  · exact .refl s
  · exact h s

theorem secondPart_keeps {src : Node} {t : Table} {w : TableWrite} {body : List Byte → State → State × Answer}
    (h : ∀ d s, KeepsTables s (body d s).1) : KeepsTables s (secondPart src t w body s).1 := by
  unfold secondPart
  split
  · split
    · exact KeepsTables.trans (t := { s with staged := none }) (.of_tables rfl) (h _ _)
    · exact .refl s
  · exact .refl s

theorem firstPartBody_keeps (src : Node) (table : BitVec 4) (w : TableWrite) : KeepsTables s (firstPartBody src table w s).1 := by
  unfold firstPartBody
  split
  · exact .refl s
  · refine checkedWrite_keeps fun u => ?_
    split
    · exact .of_tables rfl
    · exact .refl u

/-! ### ROUTE (R8, R9) -/

/-- A route entry that is free, or holds a slot and bus that no other in-use entry holds, keeps the routes distinct. -/
theorem setRoute_distinct {i : Fin 128} {r : Route} (h : s.RoutesDistinct)
    (free : r.inUse = true → ∀ j, j ≠ i → ¬ (s.routes[j].inUse = true ∧ s.routes[j].slot = r.slot ∧ s.routes[j].bus = r.bus)) :
    (setRoute i r s).RoutesDistinct := by
  intro j k hj hk hslot hbus
  simp only [setRoute_routes, vector_set_get] at hj hk hslot hbus
  by_cases ej : j = i <;> by_cases ek : k = i
  · exact ej.trans ek.symm
  · simp only [if_pos ej, if_neg ek] at hj hk hslot hbus
    exact (free hj k ek ⟨hk, hslot.symm, hbus.symm⟩).elim
  · simp only [if_neg ej, if_pos ek] at hj hk hslot hbus
    exact (free hk j ej ⟨hj, hslot, hbus⟩).elim
  · simp only [if_neg ej, if_neg ek] at hj hk hslot hbus
    exact h j k hj hk hslot hbus

theorem setRoute_keeps {i : Fin 128} {r : Route} (hd : s.RoutesDistinct → (setRoute i r s).RoutesDistinct) (hb : r.gain ≤ 65535) :
    KeepsTables s (setRoute i r s) := by
  refine .setRoutes hd fun b j => ?_
  rw [vector_set_get]
  split
  · exact hb
  · exact b j

theorem routeHolder_none {i : Fin 128} {slot : Fin 64} {bus : Fin 32} (h : s.routeHolder i slot bus = none) (j : Fin 128) (ne : j ≠ i) :
    ¬ (s.routes[j].inUse = true ∧ s.routes[j].slot = slot ∧ s.routes[j].bus = bus) := by
  rintro ⟨used, hslot, hbus⟩
  have := List.find?_eq_none.mp h j (List.mem_finRange j)
  simp [ne] at this
  exact this used hslot hbus

theorem routeBody_keeps (i : Fin 128) (d : List Byte) (s : State) : KeepsTables s (routeBody i d s).1 := by
  have gain : (word16 d 3).toNat ≤ 65535 := by omega
  unfold routeBody
  split
  · exact .refl s
  · exact setRoute_keeps (fun h => setRoute_distinct h fun used => nomatch used) (by decide)
  · split
    · split
      · rename_i slot bus _ _ holder
        exact setRoute_keeps (fun h => setRoute_distinct h fun _ => routeHolder_none holder) gain
      · rename_i j _
        refine setRoute_keeps (fun h => setRoute_distinct h fun used k ne same => ?_) gain
        exact ne (h k j same.1 used same.2.1 same.2.2)
    · exact .refl s
    · exact .refl s

/-! ### SLOTMAP, GATE, POLICY, CONFIG: tables that no invariant here reads -/

theorem slotmapBody_keeps (i : Fin 64) (d : List Byte) (s : State) : KeepsTables s (slotmapBody i d s).1 := by
  unfold slotmapBody
  split
  · rename_i v _
    rw [written_state]
    exact KeepsTables.trans (t := { s with slotMap := s.slotMap.set i v }) (.of_tables rfl) (.of_still (relisten_still _ s))
  · exact .refl s

theorem gateBody_keeps (g : GateId) (group : BitVec 2) (d : List Byte) (s : State) : KeepsTables s (gateBody g group d s).1 := by
  unfold gateBody
  split
  · unfold gateCodes
    split
    · exact .refl s
    · split
      · exact .refl s
      · exact .of_tables rfl
  · split
    · exact .of_tables rfl
    · unfold gateAdmission
      simp only
      split
      · exact .refl s
      · split
        · exact .refl s
        · exact .of_tables rfl

theorem disableKind_still (k : Fin 11) (s : State) : (disableKind k s).still = s.still := by
  unfold disableKind
  exact (forEach_keeps _ State.still (fun f u => whenSome_keeps u _ (fun z v => deriveProtection_still v z) _) _).trans
    (withFaults_still _ _)

theorem policyBody_keeps (k : Fin 11) (d : List Byte) (s : State) : KeepsTables s (policyBody k d s).1 := by
  have acted : ∀ (m : PolicyMode) (u : State), (if m = .disabled then disableKind k u else u).tables = u.tables := by
    intro m u
    split
    · exact tables_of_still (disableKind_still k u)
    · rfl
  unfold policyBody
  split
  · exact .of_tables (acted _ _)
  · exact .refl s
  · exact .refl s

theorem configBody_keeps (src : Node) (w : TableWrite) (s : State) : KeepsTables s (configBody src w s).1 := by
  unfold configBody
  split
  · exact secondPart_keeps fun d u => .of_tables rfl
  · split
    · unfold configEvent; split
      · exact .refl s
      · exact .of_tables rfl
    · split
      · unfold configTrust; split
        · exact .refl s
        · exact .of_tables rfl
      · unfold configFlow
        simp only
        split
        · exact .refl s
        · split
          · exact .refl s
          · simp only [written, flowDisabled]
            split <;> exact .of_tables rfl

/-! ### ZONE (R26 to R28) -/

theorem set_zone (z y : ZoneId) (new : Zone) : ({ s with zones := s.zones.set z new } : State).zone y = if y = z then new else s.zone y :=
  vector_set_get _ _ _ _

/-- The limits that a write checks are the limits of the state it makes (R26). -/
theorem withinLimits_iff (z : ZoneId) (new : Zone) :
    s.withinLimits z new = true ↔ ({ s with zones := s.zones.set z new } : State).KindLimits := by
  unfold State.withinLimits State.KindLimits State.enabledOfKind
  rw [decide_eq_true_iff]
  simp only [set_zone]

theorem enableZone_keeps {z : ZoneId} (h : (modZone z (fun r => { r with enabled := true, side := .primary }) s).KindLimits) :
    KeepsTables s (enableZone z s) := by
  have loops : ∀ u : State, KeepsTables u (if (u.zone z).kind = .loop then whenSome (u.loopOf z) (fun l => modLoop l LoopRecord.start) u else u) := by
    intro u
    split
    · cases u.loopOf z with
      | none => exact .refl u
      | some l => exact .modLoop_same rfl LoopRecord.start_inRange fun b => b
    · exact .refl u
  have descs : ∀ u : State, KeepsTables u (if (u.zone z).kind = .desc then whenSome (u.descOf z) (fun d => modDesc d DescRecord.start) u else u) := by
    intro u
    split
    · cases u.descOf z with
      | none => exact .refl u
      | some d => exact .of_tables (modDesc_tables u d fun _ => rfl)
    · exact .refl u
  have enabled : KeepsTables s (modZone z (fun r => { r with enabled := true, side := .primary }) s) :=
    .modZone (fun _ => h) fun g => g.2.1 z
  have deadline : ∀ u : State, KeepsTables u (recommandZone z (modZone z (fun r => { r with idleDeadline := r.startDeadline u.now }) u)) :=
    fun u => .of_still ((recommandZone_still _ z).trans (modZone_still u z fun _ => rfl))
  unfold enableZone
  exact enabled.trans ((loops _).trans ((descs _).trans ((KeepsTables.of_still (deriveProtection_still _ z)).trans
    ((setGains_keeps z _).trans (deadline _)))))

theorem disableZone_keeps (z : ZoneId) : KeepsTables s (disableZone z s) := by
  have disabled : KeepsTables s (modZone z (fun r => { r with enabled := false, testMode := .none, suspended := false }) s) := by
    refine .modZone (fun k => ?_) fun g => g.2.1 z
    have fewer : ∀ kind : ZoneKind, (allZones.countP fun y =>
        ((modZone z (fun r => { r with enabled := false, testMode := .none, suspended := false }) s).zone y).enabled &&
        ((modZone z (fun r => { r with enabled := false, testMode := .none, suspended := false }) s).zone y).kind == kind) ≤
        allZones.countP fun y => (s.zone y).enabled && (s.zone y).kind == kind := by
      refine fun kind => List.countP_mono_left fun y _ => ?_
      rw [modZone_zone]
      split
      · exact fun off => nomatch off
      · exact id
    exact ⟨(fewer _).trans k.1, (fewer _).trans k.2.1, (fewer _).trans k.2.2⟩
  unfold disableZone
  exact disabled.trans (.of_still ((recommandZone_still _ z).trans (endCandidate_still _ z)))

theorem assignInService_keeps (z : ZoneId) (enabled : Bool) (bus : Fin 32) (s : State) :
    KeepsTables s (assignInService z enabled bus s).1 := by
  have put : KeepsTables s (modZone z (fun r => { r with bus := bus }) s) :=
    .modZone_same (fun _ => rfl) (fun _ => rfl) fun g => g.2.1 z
  unfold assignInService
  simp only
  split
  · exact put
  · split
    · split
      · exact .refl s
      · rw [written_state]
        exact put.trans ((disableZone_keeps z).trans (.of_still (relisten_still _ _)))
    · split
      · exact .refl s
      · split
        · exact .refl s
        · rename_i on _ within
          rw [written_state]
          refine put.trans ((enableZone_keeps ?_).trans (.of_still (relisten_still _ _)))
          simp only [Bool.not_eq_false] at on within
          refine KindLimits.congr (fun y => ?_) ((withinLimits_iff _ _).mp within)
          rw [modZone_zone, modZone_zone, modZone_zone, set_zone, on]
          split
          · exact ⟨rfl, by rw [if_pos rfl]⟩
          · exact ⟨rfl, rfl⟩

theorem zoneAssignment_keeps (z : ZoneId) (d : List Byte) (s : State) : KeepsTables s (zoneAssignment z d s).1 := by
  unfold zoneAssignment
  split
  · exact .refl s
  · split
    · split
      · exact assignInService_keeps _ _ _ s
      · simp only
        split
        · rename_i within
          rw [written_state]
          exact .modZone (fun _ => (withinLimits_iff _ _).mp within) fun g => g.2.1 z
        · exact .refl s
    · exact .refl s

theorem zoneBody_keeps (z : ZoneId) (g : BitVec 2) (d : List Byte) (s : State) : KeepsTables s (zoneBody z g d s).1 := by
  unfold zoneBody
  split
  · exact zoneAssignment_keeps z d s
  · split
    · unfold zoneEndpoints
      split
      · exact .refl s
      · split
        · split
          · exact .refl s
          · rw [written_state]
            exact .modZone_same (fun _ => rfl) (fun _ => rfl) fun g => g.2.1 z
        · exact .refl s
        · exact .refl s
    · split
      · unfold zoneIdle
        simp only
        split
        · exact .refl s
        · rename_i p _
          exact KeepsTables.trans (t := modZone z (fun r => r.withIdle p (clampTo 1 3600 (word16 d 1).toNat) s.now) s)
            (.modZone_same (fun _ => rfl) (fun _ => rfl) fun g => g.2.1 z) (.of_still (recommandZone_still _ z))
      · unfold zoneGains
        rw [written_state]
        refine .modZone_same (fun _ => rfl) (fun _ => rfl) fun g => ?_
        obtain ⟨-, -, -, -, test, gains⟩ := g.2.1 z
        have field : ∀ i, (word16 d i).toNat ≤ 65535 := fun i => by omega
        exact ⟨field 0, field 2, field 4, field 8, test, gains⟩

/-! ### ENDPOINT (R33) -/

theorem putEndpoint_keeps {e : EndpointId} {inUse : Bool} {node : Node} (role : Role) (place : Fin 32)
    (free : inUse = true → s.nodeHeld e node = false) : KeepsTables s (putEndpoint e inUse node role place s) := by
  have put : KeepsTables s (modEndpoint e (fun r => r.configured inUse node role place) s) := by
    have unheld : inUse = true → ∀ x, x ≠ e → ¬ ((s.endpoint x).inUse = true ∧ (s.endpoint x).node = node) := by
      intro used x ne held
      have := List.any_eq_false.mp (free used) x (List.mem_finRange x)
      simp [ne, held] at this
    refine .setEndpoints fun h i j hi hj hn => ?_
    change ((modEndpoint e (fun r => r.configured inUse node role place) s).endpoint i).inUse = true at hi
    change ((modEndpoint e (fun r => r.configured inUse node role place) s).endpoint j).inUse = true at hj
    change ((modEndpoint e (fun r => r.configured inUse node role place) s).endpoint i).node =
      ((modEndpoint e (fun r => r.configured inUse node role place) s).endpoint j).node at hn
    rw [modEndpoint_endpoint] at hi hj hn
    rw [modEndpoint_endpoint] at hn
    by_cases ei : i = e <;> by_cases ej : j = e <;> simp only [ei, ej, if_true, if_false] at hi hj hn ⊢
    · exact (unheld hi j ej ⟨hj, hn.symm⟩).elim
    · exact (unheld hj i ei ⟨hi, hn⟩).elim
    · exact h i j hi hj hn
  unfold putEndpoint
  exact put.trans (.of_tables rfl)

theorem endpointBody_keeps (e : EndpointId) (d : List Byte) (s : State) : KeepsTables s (endpointBody e d s).1 := by
  unfold endpointBody
  split
  · exact .refl s
  · split
    · exact .refl s
    · exact putEndpoint_keeps _ _ fun used => nomatch used
    · simp only
      split
      · exact .refl s
      · split
        · exact .refl s
        · split
          · exact .refl s
          · split
            · exact .refl s
            · exact putEndpoint_keeps _ _ fun _ => by simpa using ‹¬ s.nodeHeld e _ = true›

/-! ### LOOP (R49 to R51, R53) -/

theorem loopOf_some {z : ZoneId} {l : ParamId} (h : s.loopOf z = some l) : s.loops[l].zone = some z := by
  simpa using List.find?_some h

theorem loopOf_none {z : ZoneId} (h : s.loopOf z = none) (l : ParamId) : s.loops[l].zone ≠ some z := by
  simpa using List.find?_eq_none.mp h l (List.mem_finRange l)

/-- A loop record that is free, or bound to a zone that no other record is bound to, keeps the binding of zones. -/
theorem modLoop_boundOnce {l : ParamId} {r : LoopRecord} (h : s.RecordsBoundOnce)
    (free : ∀ j, j ≠ l → r.zone.isSome = true → r.zone ≠ s.loops[j].zone) : (modLoop l (fun _ => r) s).RecordsBoundOnce := by
  intro i j ne
  refine ⟨?_, (h i j ne).2⟩
  rw [modLoop_get, modLoop_get]
  by_cases ei : i = l <;> by_cases ej : j = l
  · exact absurd (ei.trans ej.symm) ne
  · rw [if_pos ei, if_neg ej]
    exact free j ej
  · rw [if_neg ei, if_pos ej]
    exact fun bound same => free i ei (same ▸ bound) same.symm
  · rw [if_neg ei, if_neg ej]
    exact (h i j ne).1

theorem resetLoop_keeps {l : ParamId} {z : Option ZoneId} (free : ∀ y, z = some y → s.loopOf y = none) :
    KeepsTables s (resetLoop l z s) := by
  have put : KeepsTables s (modLoop l (fun _ => { zone := z }) s) := by
    refine .setLoops (fun h => modLoop_boundOnce h fun j _ bound same => ?_) (fun r x => ?_) (fun b x => ?_)
    · obtain ⟨y, rfl⟩ := Option.isSome_iff_exists.mp bound
      exact loopOf_none (free y rfl) j same.symm
    · rw [vector_set_get]; split
      · exact ⟨(by decide : 4096 ≤ 16384), (by decide : 16384 ≤ 32768)⟩
      · exact r x
    · rw [vector_set_get]; split
      · exact (by decide : 32768 ≤ 65535)
      · exact b x
  exact put.trans (.of_tables rfl)

theorem bindLoop_keeps {z : ZoneId} {b : ParamId × State} (h : bindLoop z s = some b) : KeepsTables s b.2 := by
  unfold bindLoop at h
  split at h
  · cases h; exact .refl s
  · rename_i unbound
    obtain ⟨l, -, rfl⟩ := Option.map_eq_some_iff.mp h
    exact resetLoop_keeps fun y hy => Option.some.inj hy ▸ unbound

/-- A write of a group that leaves the binding, keeps the AGC gain in its range and bounds the AGC maximum. -/
theorem loopFields_keeps {z : ZoneId} {f : LoopRecord → Option (LoopRecord × Bool)}
    (h : ∀ r q, f r = some q → q.1.zone = r.zone ∧ (r.InRange → q.1.InRange) ∧ (r.agcMax ≤ 65535 → q.1.agcMax ≤ 65535)) (s : State) :
    KeepsTables s (loopFields z f s).1 := by
  unfold loopFields
  split
  · exact .refl s
  · rename_i b bound
    split
    · exact .refl s
    · rename_i q written
      obtain ⟨zone, range, top⟩ := h _ q written
      rw [written_state]
      exact (bindLoop_keeps bound).trans (.modLoop_same zone range top)

theorem levelAndGain_spec (d : List Byte) {r : LoopRecord} {q : LoopRecord × Bool} (h : levelAndGain d r = some q) :
    q.1.zone = r.zone ∧ q.1.InRange ∧ q.1.agcMax ≤ 65535 := by
  unfold levelAndGain at h
  split at h
  · cases h
  · rename_i ordered
    cases h
    refine ⟨rfl, ⟨le_clampTo _ _ _, clampTo_le (Nat.le_of_not_lt ordered)⟩, ?_⟩
    show (word16 d 12).toNat ≤ 65535
    omega

theorem loopBody_keeps (src : Node) (w : TableWrite) (z : ZoneId) (s : State) : KeepsTables s (loopBody src w z s).1 := by
  unfold loopBody
  split
  · refine secondPart_keeps fun d u => loopFields_keeps (fun r q h => ?_) u
    obtain ⟨zone, range, top⟩ := levelAndGain_spec d h
    exact ⟨zone, fun _ => range, fun _ => top⟩
  · split
    · exact loopFields_keeps (fun r q h => by cases h; exact ⟨rfl, fun b => b, fun b => b⟩) s
    · split
      · exact loopFields_keeps (fun r q h => by cases h; exact ⟨rfl, fun b => b, fun b => b⟩) s
      · unfold loopRelease
        split
        · exact .refl s
        · split
          · exact .refl s
          · exact resetLoop_keeps fun y hy => nomatch hy

/-! ### DESC (R64 to R66) -/

theorem descOf_some {z : ZoneId} {d : ParamId} (h : s.descOf z = some d) : s.descs[d].zone = some z := by
  simpa using List.find?_some h

theorem descOf_none {z : ZoneId} (h : s.descOf z = none) (d : ParamId) : s.descs[d].zone ≠ some z := by
  simpa using List.find?_eq_none.mp h d (List.mem_finRange d)

theorem channelHeld_iff (z : ZoneId) (ch : Nat) :
    s.channelHeld z ch = true ↔ ∃ d : ParamId, ∃ y, s.descs[d].zone = some y ∧ y ≠ z ∧ s.descs[d].channel = ch := by
  unfold State.channelHeld
  rw [List.any_eq_true]
  constructor
  · rintro ⟨d, -, h⟩
    split at h
    · rename_i y hy
      obtain ⟨ne, hc⟩ : y ≠ z ∧ s.descs[d].channel = ch := by simpa using h
      exact ⟨d, y, hy, ne, hc⟩
    · cases h
  · rintro ⟨d, y, hy, ne, hc⟩
    refine ⟨d, List.mem_finRange d, ?_⟩
    split
    · rename_i x hx
      obtain rfl : y = x := Option.some.inj (hy.symm.trans hx)
      rw [hc]; simp [ne]
    · rename_i none_
      rw [hy] at none_; cases none_

/-- Sixteen channels and eight records: some channel is free (R66). -/
theorem exists_free_channel (z : ZoneId) : ∃ i, i < 16 ∧ s.channelHeld z (i + 1) = false := by
  by_contra all
  have held : ∀ i : Fin 16, ∃ d : ParamId, s.descs[d].channel = i.val + 1 := by
    intro i
    have : s.channelHeld z (i.val + 1) = true := by
      by_contra free
      exact all ⟨i.val, i.isLt, by simpa using free⟩
    obtain ⟨d, -, -, -, hc⟩ := (channelHeld_iff z _).mp this
    exact ⟨d, hc⟩
  choose holder channel using held
  have injective : Function.Injective holder := by
    intro i j h
    have ci := channel i
    have cj := channel j
    rw [h] at ci
    exact Fin.ext (by omega)
  have := Fintype.card_le_of_injective holder injective
  simp at this

/-- The channel that a binding takes is held by no record of another zone (R66). -/
theorem lowestChannel_free (z : ZoneId) : s.channelHeld z (s.lowestChannel z) = false := by
  unfold State.lowestChannel
  cases h : (List.range 16).find? fun i => !s.channelHeld z (i + 1) with
  | some i => simpa using List.find?_some h
  | none =>
    obtain ⟨i, hi, free⟩ := exists_free_channel (s := s) z
    have := List.find?_eq_none.mp h i (List.mem_range.mpr hi)
    simp [free] at this

/-- A description record that is free, or whose zone and channel no other bound record has, keeps the bindings. -/
theorem modDesc_boundOnce {d : ParamId} {f : DescRecord → DescRecord} (h : s.RecordsBoundOnce)
    (free : ∀ j, j ≠ d → s.descs[j].zone.isSome = true → (f s.descs[d]).zone.isSome = true →
      s.descs[j].zone ≠ (f s.descs[d]).zone ∧ s.descs[j].channel ≠ (f s.descs[d]).channel) : (modDesc d f s).RecordsBoundOnce := by
  intro i j ne
  refine ⟨(h i j ne).1, ?_⟩
  rw [modDesc_get, modDesc_get]
  by_cases ei : i = d <;> by_cases ej : j = d
  · exact absurd (ei.trans ej.symm) ne
  · rw [if_pos ei, if_neg ej]
    exact fun bi bj => ⟨(free j ej bj bi).1.symm, (free j ej bj bi).2.symm⟩
  · rw [if_neg ei, if_pos ej]
    exact free i ei
  · rw [if_neg ei, if_neg ej]
    exact (h i j ne).2

/-- A record bound to a zone with a channel that no record of another zone holds. -/
theorem modDesc_bind_keeps {z : ZoneId} {d : ParamId} {f : DescRecord → DescRecord} (zone : (f s.descs[d]).zone = some z)
    (others : s.RecordsBoundOnce → ∀ j : ParamId, j ≠ d → s.descs[j].zone ≠ some z) (free : s.channelHeld z (f s.descs[d]).channel = false)
    (hb : s.descs[d].voiceGain ≤ 65535 ∧ s.descs[d].voxDepth ≤ 65535 →
      (f s.descs[d]).voiceGain ≤ 65535 ∧ (f s.descs[d]).voxDepth ≤ 65535) : KeepsTables s (modDesc d f s) := by
  refine .setDescs (fun h => modDesc_boundOnce h fun j ne bound _ => ⟨zone ▸ others h j ne, fun same => ?_⟩) fun b x => ?_
  · obtain ⟨y, hy⟩ := Option.isSome_iff_exists.mp bound
    have held := (channelHeld_iff (s := s) z _).mpr ⟨j, y, hy, fun e => others h j ne (e ▸ hy), same⟩
    rw [free] at held; cases held
  · rw [vector_set_get]
    split
    · exact hb (b d)
    · exact b x

/-- Binding: the record is bound to the zone, and no other record has changed. -/
theorem bindDesc_spec {z : ZoneId} {b : ParamId × State} (h : bindDesc z s = some b) :
    KeepsTables s b.2 ∧ b.2.descs[b.1].zone = some z ∧ ∀ j : ParamId, j ≠ b.1 → b.2.descs[j] = s.descs[j] := by
  unfold bindDesc at h
  split at h
  · rename_i bound
    cases h
    exact ⟨.refl s, descOf_some bound, fun _ _ => rfl⟩
  · rename_i unbound
    obtain ⟨d, -, rfl⟩ := Option.map_eq_some_iff.mp h
    refine ⟨?_, ?_, fun j ne => ?_⟩
    · exact modDesc_bind_keeps (f := fun _ => { zone := some z, channel := s.lowestChannel z }) rfl
        (fun _ j _ => descOf_none unbound j) (lowestChannel_free z) fun _ => ⟨(by decide : 16384 ≤ 65535), (by decide : 5461 ≤ 65535)⟩
    · rw [modDesc_get, if_pos rfl]
    · rw [modDesc_get, if_neg ne]

theorem descFields_keeps {z : ZoneId} {c : Bool} {f : DescRecord → DescRecord} {b : ParamId × State} (bound : KeepsTables s b.2)
    (put : KeepsTables b.2 (modDesc b.1 f b.2)) : KeepsTables s (descFields z c f b s).1 := by
  refine (bound.trans put).trans ?_
  unfold descFields
  simp only [written]
  split
  · exact .refl _
  · exact .of_still (issueChannels_still _ z)

theorem descBody_keeps (g : BitVec 2) (d : List Byte) (z : ZoneId) (s : State) : KeepsTables s (descBody g d z s).1 := by
  have field : ∀ i, (word16 d i).toNat ≤ 65535 := fun i => by omega
  unfold descBody
  split
  · unfold descVoice
    split
    · exact .refl s
    · rename_i b bound
      split
      · exact .refl s
      · exact descFields_keeps (bindDesc_spec bound).1 (.modDesc_same rfl rfl fun _ => ⟨field 1, field 3⟩)
  · split
    · unfold descVox
      simp only
      split
      · exact .refl s
      · rename_i b bound
        split
        · exact .refl s
        · exact descFields_keeps (bindDesc_spec bound).1 (.modDesc_same rfl rfl fun b => b)
    · split
      · unfold descChannel
        simp only
        split
        · exact .refl s
        · rename_i b bound
          obtain ⟨keeps, zone, others⟩ := bindDesc_spec bound
          split
          · exact .refl s
          · split
            · exact .refl s
            · rename_i free
              refine descFields_keeps keeps (modDesc_bind_keeps zone (fun h j ne same => ?_) ?_ fun b => b)
              · have bound : b.2.descs[j].zone.isSome = true := by rw [same]; rfl
                exact ((h j b.1 ne).2 bound (by rw [zone]; rfl)).1 (same.trans zone.symm)
              · rw [← Bool.not_eq_true, channelHeld_iff]
                rintro ⟨x, y, hy, ne, hc⟩
                have apart : x ≠ b.1 := fun e => ne (Option.some.inj (hy.symm.trans (e ▸ zone)))
                rw [others x apart] at hy hc
                exact free ((channelHeld_iff z _).mpr ⟨x, y, hy, ne, hc⟩)
      · unfold descRelease
        split
        · exact .refl s
        · split
          · exact .refl s
          · rename_i d _ _
            have freed : s.RecordsBoundOnce → (modDesc d (fun _ => {}) s).RecordsBoundOnce :=
              fun h => modDesc_boundOnce h fun j _ _ bound => (nomatch bound)
            rw [written_state]
            refine .setDescs freed fun b x => ?_
            rw [vector_set_get]; split
            · exact ⟨(by decide : 16384 ≤ 65535), (by decide : 5461 ≤ 65535)⟩
            · exact b x

end

/-! ### Taking a record (R144, R147) -/

section
variable {s : State} {c : Instr} {src : Node} {req : Byte}

theorem takeCommand_keeps {body : State → State × Answer} (h : ∀ s, KeepsTables s (body s).1) :
    KeepsTables s (takeCommand c src req body s) := by
  have answered : ∀ u : State, KeepsTables u (answerCommand src (codeOf c) req body (leaveCommand u)) := by
    intro u
    refine KeepsTables.trans (.of_tables (leaveCommand_tables u)) (KeepsTables.trans (t := (ite _ _ _ : State × Answer).1) ?_
      (.of_tables (placeReply_tables _ _ _ _)))
    split
    · exact h _
    · exact .refl _
  have joined : KeepsTables s (if s.cmdQueue.head? = some c then s else joinCommand c s) := by
    split
    · exact .refl s
    · exact .of_tables (joinCommand_tables s c)
  have taken : ∀ u : State, KeepsTables u (if u.cmdQueue.head? = some c ∧ u.mayTake then
      answerCommand src (codeOf c) req body (leaveCommand u) else u) := by
    intro u
    split
    · exact answered u
    · exact .refl u
  exact joined.trans (taken _)

theorem joinedCue_keeps : KeepsTables s (if s.cueQueue.head? = some c then s else joinCue c s) := by
  split
  · exact .refl s
  · exact .of_tables (joinCue_tables s c)

theorem takeCue_keeps {body : State → State × Answer} (h : ∀ s, KeepsTables s (body s).1) :
    KeepsTables s (takeCue c src req body s) := by
  have answered : ∀ u : State, KeepsTables u (answerCue src (codeOf c) req body (leaveCue u)) := by
    intro u
    refine KeepsTables.trans (.of_tables (leaveCue_tables u)) (KeepsTables.trans (t := (ite _ _ _ : State × Answer).1) ?_
      (.of_tables (placeReply_tables _ _ _ _)))
    split
    · exact h _
    · exact .refl _
  have taken : ∀ u : State, KeepsTables u (if u.cueQueue.head? = some c ∧ u.mayTake then
      answerCue src (codeOf c) req body (leaveCue u) else u) := by
    intro u
    split
    · exact answered u
    · exact .refl u
  exact (joinedCue_keeps (c := c)).trans (taken _)

theorem takeMarker_keeps {body : State → State} (h : ∀ s, KeepsTables s (body s)) : KeepsTables s (takeMarker c src body s) := by
  have taken : ∀ u : State, KeepsTables u (if u.cueQueue.head? = some c ∧ u.softResetFlag = false then
      if trusts u.config.cueSources src then body (leaveCue u) else leaveCue u else u) := by
    intro u
    have left : KeepsTables u (leaveCue u) := .of_tables (leaveCue_tables u)
    split
    · split
      · exact left.trans (h _)
      · exact left
    · exact .refl u
  exact (joinedCue_keeps (c := c)).trans (taken _)

end

theorem KeepsTables.of_eq {s t : State} (h : t = s) : KeepsTables s t := h ▸ .refl s

/-- The meaning of a row that takes a COMMAND or a CUE: one line for each row of the table. -/
theorem takeRow_keeps (c : Instr) (s : State) : KeepsTables s (takeRow c s) := by
  cases c
  case softReset => exact takeCommand_keeps fun _ => .of_tables rfl
  case commit => exact takeCommand_keeps commitBody_keeps
  case reconfigure => exact takeCommand_keeps reconfigureBody_keeps
  case statusRead => exact takeCommand_keeps fun u => .of_eq (statusReadBody_state _ _ _ _ u)
  case clearFaults => exact takeCommand_keeps fun u => clearFaultsBody_keeps _ _ _ u
  case test => exact takeCommand_keeps fun u => testBody_keeps _ _ _ u
  case suspend => exact takeCommand_keeps fun u => suspendBody_keeps _ _ u
  case swap => exact takeCommand_keeps fun u => swapBody_keeps _ u
  case gateForce => exact takeCommand_keeps fun u => gateForceBody_keeps _ _ u
  case msgOpen => exact takeCommand_keeps fun u => msgOpenBody_keeps _ _ _ u
  case msgData => exact takeCommand_keeps fun u => msgDataBody_keeps _ _ u
  case msgClose => exact takeCommand_keeps fun u => msgCloseBody_keeps _ u
  case msgDelete => exact takeCommand_keeps fun u => msgDeleteBody_keeps _ u
  case msgRead => exact takeCommand_keeps fun u => msgReadBody_keeps _ _ u
  case tableRead => exact takeCommand_keeps fun u => .of_eq (tableReadBody_state _ _ _ _ u)
  case tableWriteFirstPart => exact takeCommand_keeps fun u => firstPartBody_keeps _ _ _
  case routeWrite => exact takeCommand_keeps fun u => checkedWrite_keeps (routeBody_keeps _ _)
  case slotmapWrite =>
    refine takeCommand_keeps fun _ => checkedWrite_keeps fun v => ?_
    split
    · exact slotmapBody_keeps _ _ v
    · exact .refl v
  case zoneWrite =>
    refine takeCommand_keeps fun _ => checkedWrite_keeps fun v => ?_
    split
    · exact zoneBody_keeps _ _ _ v
    · exact .refl v
  case loopWrite =>
    refine takeCommand_keeps fun _ => checkedWrite_keeps fun v => ?_
    split
    · exact loopBody_keeps _ _ _ v
    · exact .refl v
  case descWrite =>
    refine takeCommand_keeps fun _ => checkedWrite_keeps fun v => ?_
    split
    · exact descBody_keeps _ _ _ v
    · exact .refl v
  case endpointWrite =>
    refine takeCommand_keeps fun _ => checkedWrite_keeps fun v => ?_
    split
    · exact endpointBody_keeps _ _ v
    · exact .refl v
  case gateWrite =>
    refine takeCommand_keeps fun _ => checkedWrite_keeps fun v => ?_
    split
    · exact gateBody_keeps _ _ _ v
    · exact .refl v
  case policyWrite =>
    refine takeCommand_keeps fun _ => checkedWrite_keeps fun v => ?_
    split
    · exact policyBody_keeps _ _ v
    · exact .refl v
  case configWrite => exact takeCommand_keeps fun u => checkedWrite_keeps (configBody_keeps _ _)
  case callStart => exact takeCue_keeps fun u => callStartBody_keeps _ _ _ _ _ _ u
  case callEnd => exact takeCue_keeps fun u => callEndBody_keeps _ u
  case callCancel => exact takeCue_keeps fun u => callCancelBody_keeps _ u
  case marker => exact takeMarker_keeps (markerBody_keeps _)
  case unknownCommandCode => exact takeCommand_keeps fun u => .refl u
  case unknownCueCode => exact takeCue_keeps fun u => .refl u
  -- Rows that are no COMMAND or CUE take nothing.
  all_goals exact .refl s

theorem serve_keeps (s : State) : KeepsTables s (serve s) := by
  have served : ∀ (n : Nat) (u : State), KeepsTables u (serveUpTo n u) := by
    intro n
    induction n with
    | zero => exact .refl
    | succ n ih =>
      intro u
      unfold serveUpTo
      split
      · exact (takeRow_keeps _ u).trans (ih _)
      · exact .refl u
  exact served _ s

/-! ### Frames and events -/

theorem intakeA_keeps (rs : List Record) (s : State) : KeepsTables s (intakeA rs s) := by
  refine .forEach (fun r u => ?_) rs s
  split
  · refine KeepsTables.trans ?_ (serve_keeps _)
    unfold takeInA
    split
    · split
      · exact .of_tables (joinCommand_tables u _)
      · split
        · exact .of_tables (joinCue_tables u _)
        · exact .refl u
    · exact .refl u
  · exact .refl u

/-- A change that keeps the tables, then an observation of a fault condition. -/
theorem observe_keeps {s u : State} (h : u.tables = s.tables) (f : FaultRef) (b : Bool) : KeepsTables s (observe f b u) :=
  .of_tables ((tables_of_still (observe_still u f b)).trans h)

theorem frameFromA_keeps (f : DownFrame) (order : List MsTask) (s : State) : KeepsTables s (frameFromA f order s) := by
  have locked : KeepsTables s (lockA s) := by
    unfold lockA
    split
    · exact observe_keeps (s := s) (u := { s with portA := .locked }) rfl _ _
    · exact .of_tables rfl
  exact locked.trans ((intakeA_keeps _ _).trans ((downstream_keeps _ _ _ _ _).trans (serve_keeps _)))

/-- The values after reset meet every invariant, and call memory is kept by a soft reset (O3). -/
theorem KeepsTables.of_reset {s t : State} (h : t.tables = { State.reset with mem := t.mem }.tables)
    (mem : s.mem.wf = true → t.mem.wf = true) : KeepsTables s t := by
  obtain ⟨⟨-, pages, routes, nodes, bound, kinds, range, gains, noise⟩, -⟩ := resetMeetsTheInvariants
  have base : KeepsTables s { State.reset with mem := t.mem } :=
    ⟨mem, fun _ => pages, fun _ => routes, fun _ => nodes, fun _ => bound, fun _ => kinds, fun _ => range, fun _ _ => gains,
      fun _ => noise⟩
  exact base.trans (.of_tables h)

theorem softReset_keeps (s : State) : KeepsTables s (softReset s) := .of_reset rfl id

theorem localTiming_keeps (order : List MsTask) (s : State) : KeepsTables s (localTiming order s) := by
  unfold localTiming
  split
  · exact softReset_keeps s
  · exact (generatedFrame_keeps order s).trans (serve_keeps _)

theorem inService_still {f : State → State} (h : ∀ s, (f s).still = s.still) (s : State) : (inService f s).still = s.still := by
  unfold inService
  split
  · exact h s
  · rfl

/-- A command that may be executed or not. -/
theorem KeepsTables.ite {p : Prop} [Decidable p] {s t : State} (h : KeepsTables s t) : KeepsTables s (if p then t else s) := by
  split
  · exact h
  · exact .refl s

/-- Every command keeps the tables' invariants. -/
theorem exec_keeps (c : Instr) {s t : State} (h : exec c s = .next t) : KeepsTables s t := by
  have row : ∀ u, exec c s = .next u → KeepsTables s u → KeepsTables s t := by
    intro u hu keeps
    obtain rfl : u = t := by rw [hu] at h; exact Host.Outcome.next.inj h
    exact keeps
  have taken : exec c s = .next (takeRow c s) → KeepsTables s t := fun e => row _ e (takeRow_keeps c s)
  cases c
  case powerOnReset => exact row _ rfl (.of_reset rfl fun _ => rfl)
  case softResetEffect at_ =>
    refine row _ rfl (.ite ?_)
    cases at_ with
    | frame f order => exact (softReset_keeps s).trans (frameFromA_keeps f order _)
    | localTiming => exact .ite (softReset_keeps s)
  case downstreamFrameArrival f order =>
    refine row _ rfl (KeepsTables.trans ?_ (frameFromA_keeps f order _))
    exact .ite (softReset_keeps s)
  case badFrame order => exact row _ rfl (.ite ((generatedFrame_keeps order s).trans (serve_keeps _)))
  case portASilence order =>
    refine row _ rfl ?_
    split
    · exact .refl s
    · have lost : KeepsTables s (loseA s) :=
        (observe_keeps (s := s) (u := { s with portA := .lost }) rfl _ _).trans (.of_still (sourceLoss_still _))
      exact lost.trans (localTiming_keeps order _)
  case localTimingFrame order => exact row _ rfl (.ite (localTiming_keeps order s))
  case returnFrameArrival f =>
    have locked : KeepsTables s (lockB s) := by
      unfold lockB
      split
      · exact observe_keeps (s := s) (u := { s with portB := .locked }) rfl _ _
      · exact .of_tables rfl
    exact row _ rfl (locked.trans ((KeepsTables.of_tables (intakeB_tables _ _)).trans
      ((KeepsTables.of_tables (sendReturn_tables _ _ _)).trans (serve_keeps _))))
  case badReturnFrame => exact row _ rfl (.ite ((KeepsTables.of_tables (sendReturn_tables _ _ _)).trans (serve_keeps _)))
  case portBSilence =>
    refine row _ rfl ?_
    split
    · exact .refl s
    · exact observe_keeps (s := s) (u := { s with portB := .lost }) rfl _ _
  case endpointLost e => exact row _ rfl (.of_tables (presenceTest_tables s e))
  case idleDeadlineExpiry z => exact row _ rfl (.of_still (idleTest_still s z))
  case wakeDeadlineExpiry c => exact row _ rfl (.of_still (inService_still (fun u => wakingTest_still u c) s))
  case tailEnd c => exact row _ rfl (.of_still (inService_still (fun u => tailTest_still u c) s))
  case pendingExpiry c => exact row _ rfl (.of_still (inService_still (fun u => pendingTest_still u c) s))
  case liveMaximum c => exact row _ rfl (.of_still (inService_still (fun u => liveMaximumTest_still u c) s))
  case windowExpiry g => exact row _ rfl (.of_tables (windowTest_tables s g))
  case escalationReset f => exact row _ rfl (.ite (.of_tables rfl))
  case retryExpiry f => exact row _ rfl (.ite (.of_still (expireRetry_still s f)))
  -- The rows of COMMANDs and CUEs are the taking of their record.
  all_goals exact taken rfl

/-- Settles O58: a step executes one command, and every command keeps the invariants. -/
theorem stepKeepsTheTables : Obligations.StepKeepsTheTables := by
  intro s t h
  have keeps : KeepsTables s t := by
    unfold step at h
    split at h
    · rename_i c rest _
      exact KeepsTables.trans (t := { s with pending := rest }) (.of_tables rfl) (exec_keeps c h)
    · split at h
      · exact exec_keeps _ h
      · cases h; exact .refl s
  exact ⟨keeps.mem, keeps.pages, keeps.routes, keeps.nodes, keeps.bound, keeps.kinds, keeps.range, keeps.gains, keeps.noise⟩

end Sys2Proof.Machine
end

section
/-! The reads (R131, R151, R152, R162): the layouts of Table 11-6 and the groups of Table 11-5 as the statement of
ReadsAnswerAndChangeNothing spells them. -/

namespace Sys2Proof.Machine

/-! ### Bytes (section 11.1) -/

theorem bigEndian_length : ∀ n v : Nat, (bigEndian n v).length = n
  | 0, _ => rfl
  | n + 1, v => by rw [bigEndian, List.length_cons, bigEndian_length n]

theorem bigEndian_getElem? : ∀ n v k : Nat, k < n → (bigEndian n v)[k]? = some (BitVec.ofNat 8 (v / 256 ^ (n - 1 - k)))
  | n + 1, v, 0, _ => rfl
  | n + 1, v, k + 1, h => by
    rw [bigEndian, List.getElem?_cons_succ, bigEndian_getElem? n v k (by omega)]
    congr 4
    omega

theorem padTo_eq_take (n : Nat) (l : List Byte) : padTo n l = (l ++ List.replicate n 0).take n := by
  apply List.ext_getElem
  · simp [padTo]
  · intro i hi _
    have lt : i < n := by simpa [padTo] using hi
    rw [List.getElem_take]
    simp only [padTo, byteAt, List.getElem_map, List.getElem_range, List.getD_eq_getElem?_getD, List.getElem_append]
    split
    · simp [*]
    · simp [List.getElem?_eq_none (Nat.le_of_not_lt ‹_›)]

theorem optIndexByte_eq {n : Nat} (o : Option (Fin n)) : optIndexByte o = (o.map fun i => (BitVec.ofNat 8 i.val : Byte)).getD 0xFF := by
  cases o <;> rfl

theorem indexOf_val {n : Nat} (i : Fin n) : indexOf n i.val = some i := by
  simp [indexOf]

theorem indexOf_none {n v : Nat} (h : n ≤ v) : indexOf n v = none := dif_neg (by omega)

/-! ### The order of a read's refusals (R151, R152) -/

section
variable (s : State) (index kind : Byte)

theorem indexed_ok {n : Nat} {index : Byte} {i : Fin n} (h : i.val = index.toNat) (layout : Fin n → List Byte) :
    indexed n index layout = .ok (layout i) := by
  unfold indexed; rw [← h, indexOf_val]

theorem indexed_error {n : Nat} {index : Byte} (h : n ≤ index.toNat) (layout : Fin n → List Byte) :
    indexed n index layout = .error .badIndex := by
  unfold indexed; rw [indexOf_none h]

theorem faultLayout_badKind {kind : Byte} (h : kind.toNat = 0 ∨ 11 < kind.toNat) (first n : Nat) (ref : Fin n → FaultRef) :
    faultLayout s kind first n ref = .error .badIndex := if_pos h

theorem faultLayout_otherKind {kind : Byte} (h : 1 ≤ kind.toNat ∧ kind.toNat ≤ 11) {first n : Nat}
    (other : kind.toNat < first ∨ first + n ≤ kind.toNat) (ref : Fin n → FaultRef) :
    faultLayout s kind first n ref = .error .badValue := by
  unfold faultLayout
  rw [if_neg (by omega)]
  split
  · rfl
  · rw [indexOf_none (by omega)]

theorem faultLayout_ok {kind : Byte} {first n : Nat} {k : Fin n} (h : kind.toNat = k.val + first) (lo : 1 ≤ first) (hi : first + n ≤ 12)
    (ref : Fin n → FaultRef) : faultLayout s kind first n ref = .ok (s.faultStatus (ref k)) := by
  unfold faultLayout
  rw [if_neg (by omega), if_neg (by omega), show kind.toNat - first = k.val by omega, indexOf_val]

theorem statusLayout_device : s.statusLayout 0 index kind = indexed 32 index s.deviceStatus := rfl
theorem statusLayout_zone : s.statusLayout 1 index kind = indexed 32 index s.zoneStatus := rfl
theorem statusLayout_endpoint : s.statusLayout 2 index kind = indexed 48 index s.endpointStatus := rfl
theorem statusLayout_call : s.statusLayout 3 index kind = indexed 16 index s.callStatus := rfl
theorem statusLayout_gate : s.statusLayout 4 index kind = indexed 2 index s.gateStatus := rfl
theorem statusLayout_deviceFault : s.statusLayout 5 index kind = faultLayout s kind 9 3 .device := rfl

theorem statusLayout_endpointFault {e : EndpointId} (h : e.val = index.toNat) :
    s.statusLayout 6 index kind = faultLayout s kind 1 6 (.endpoint e) := by
  show (match indexOf 48 index.toNat with
    | some e => faultLayout s kind 1 6 (.endpoint e)
    | none => .error .badIndex) = _
  rw [← h, indexOf_val]

theorem statusLayout_endpointFault_none (h : 48 ≤ index.toNat) : s.statusLayout 6 index kind = .error .badIndex := by
  show (match indexOf 48 index.toNat with
    | some e => faultLayout s kind 1 6 (.endpoint e)
    | none => .error .badIndex) = _
  rw [indexOf_none h]

theorem statusLayout_loopFault {z : ZoneId} {l : ParamId} (h : z.val = index.toNat) (bound : s.loopOf z = some l) :
    s.statusLayout 7 index kind = faultLayout s kind 7 2 (.loop l) := by
  show (match (indexOf 32 index.toNat).bind s.loopOf with
    | some l => faultLayout s kind 7 2 (.loop l)
    | none => .error .badIndex) = _
  rw [← h, indexOf_val, Option.bind_some, bound]

theorem statusLayout_loopFault_none (h : 32 ≤ index.toNat ∨ ∃ z : ZoneId, z.val = index.toNat ∧ s.loopOf z = none) :
    s.statusLayout 7 index kind = .error .badIndex := by
  show (match (indexOf 32 index.toNat).bind s.loopOf with
    | some l => faultLayout s kind 7 2 (.loop l)
    | none => .error .badIndex) = _
  rcases h with out | ⟨z, hz, unbound⟩
  · rw [indexOf_none out, Option.bind_none]
  · rw [← hz, indexOf_val, Option.bind_some, unbound]

theorem statusLayout_noClass {cls : Byte} (h : 7 < cls.toNat) : s.statusLayout cls index kind = .error .badValue := by
  have ne : ∀ c : Byte, c.toNat ≤ 7 → cls ≠ c := fun c hc e => by subst e; omega
  unfold State.statusLayout
  rw [if_neg (ne 0 (by decide)), if_neg (ne 1 (by decide)), if_neg (ne 2 (by decide)), if_neg (ne 3 (by decide)),
    if_neg (ne 4 (by decide)), if_neg (ne 5 (by decide)), if_neg (ne 6 (by decide)), if_neg (ne 7 (by decide))]

end

/-! ### Replies of reads -/

section
variable {s : State} {src : Node} {req : Byte}

/-- Nothing that a layout shows changes when a command leaves its queue, but for the length of the command queue and the hold state. -/
theorem leaveCommand_zone (s : State) (z : ZoneId) : (leaveCommand s).zone z = s.zone z := by simp [State.zone]

theorem leaveCommand_loopOf (s : State) (z : ZoneId) : (leaveCommand s).loopOf z = s.loopOf z := by simp [State.loopOf]

theorem leaveCommand_descOf (s : State) (z : ZoneId) : (leaveCommand s).descOf z = s.descOf z := by simp [State.descOf]

theorem leaveCommand_tableGroup (s : State) (t : Table) (i g : Nat) : (leaveCommand s).tableGroup t i g = s.tableGroup t i g := by
  cases t <;> simp [State.tableGroup, State.loopGroup, State.descGroup, funext (leaveCommand_loopOf s), funext (leaveCommand_descOf s)]

theorem leaveCommand_boundFlag (s : State) (t : Table) (i : Nat) : (leaveCommand s).boundFlag t i = s.boundFlag t i := by
  cases t <;> simp [State.boundFlag, funext (leaveCommand_loopOf s), funext (leaveCommand_descOf s)]

/-- A command that is ready and changes nothing but its reply. -/
theorem placeReply_leave (code : Byte) (st : Status) (result : List Byte) :
    placeReply src code req (leaveCommand s, .normal st result) = s.answered (s.reply src code req st result) := by
  simp [placeReply, State.answered, State.reply, replyRecord, ownRecord]

theorem readPart_reply (code part : Byte) (layout : List Byte) (bound : Bool) :
    placeReply src code req (readPart layout part bound (leaveCommand s)) = s.answered (
      if part.toNat < (layout.length + 8) / 9 then
        s.reply src code req .ok (BitVec.ofNat 8 ((layout.length + 8) / 9 * 16 + bound.toNat) :: padTo 9 (layout.drop (9 * part.toNat)))
      else s.reply src code req .badValue []) := by
  unfold readPart partCount
  split
  · exact placeReply_leave _ _ _
  · exact placeReply_refuse _ _

variable {cls index kind part : Byte}

theorem exec_statusRead (ready : s.commandReady (.statusRead src req cls index kind part) src) :
    exec (.statusRead src req cls index kind part) s =
      .next (placeReply src 0x04 req (statusReadBody cls index kind part (leaveCommand s))) :=
  congrArg Host.Outcome.next (takeCommand_ready ready)

theorem exec_statusRead_ok (ready : s.commandReady (.statusRead src req cls index kind part) src) {layout : List Byte}
    (h : (leaveCommand s).statusLayout cls index kind = .ok layout) :
    exec (.statusRead src req cls index kind part) s = .next (s.answered (
      if part.toNat < (layout.length + 8) / 9 then
        s.reply src 0x04 req .ok (BitVec.ofNat 8 ((layout.length + 8) / 9 * 16) :: padTo 9 (layout.drop (9 * part.toNat)))
      else s.reply src 0x04 req .badValue [])) := by
  rw [exec_statusRead ready, statusReadBody, h]
  exact congrArg Host.Outcome.next (readPart_reply 0x04 part layout false)

theorem exec_statusRead_error (ready : s.commandReady (.statusRead src req cls index kind part) src) {st : Status}
    (h : (leaveCommand s).statusLayout cls index kind = .error st) :
    exec (.statusRead src req cls index kind part) s = .next (s.answered (s.reply src 0x04 req st [])) := by
  rw [exec_statusRead ready, statusReadBody, h]
  exact congrArg Host.Outcome.next (placeReply_refuse 0x04 st)

end

/-! ### The refusals and the first part of the device status -/

/-- A code byte from its value. -/
theorem byte_eq {b c : Byte} (h : b.toNat = c.toNat) : b = c := BitVec.eq_of_toNat_eq h

section
variable {s : State} {cls index kind : Byte}

theorem statusLayout_badIndex (h : cls.toNat ≤ 1 ∧ 32 ≤ index.toNat ∨ cls.toNat = 2 ∧ 48 ≤ index.toNat ∨
    cls.toNat = 3 ∧ 16 ≤ index.toNat ∨ cls.toNat = 4 ∧ 2 ≤ index.toNat) : s.statusLayout cls index kind = .error .badIndex := by
  rcases h with ⟨c, i⟩ | ⟨c, i⟩ | ⟨c, i⟩ | ⟨c, i⟩
  · rcases Nat.le_one_iff_eq_zero_or_eq_one.mp c with c | c
    · obtain rfl : cls = 0 := byte_eq c
      rw [statusLayout_device, indexed_error i]
    · obtain rfl : cls = 1 := byte_eq c
      rw [statusLayout_zone, indexed_error i]
  · obtain rfl : cls = 2 := byte_eq c
    rw [statusLayout_endpoint, indexed_error i]
  · obtain rfl : cls = 3 := byte_eq c
    rw [statusLayout_call, indexed_error i]
  · obtain rfl : cls = 4 := byte_eq c
    rw [statusLayout_gate, indexed_error i]

/-- A fault read of a subject or a kind that is none (R131, log 48). -/
theorem statusLayout_fault_badIndex (h : (5 ≤ cls.toNat ∧ cls.toNat ≤ 7 ∧ (kind = 0 ∨ 11 < kind.toNat)) ∨
    (cls = 6 ∧ 48 ≤ index.toNat) ∨ (cls = 7 ∧ (32 ≤ index.toNat ∨ ∃ z : ZoneId, z.val = index.toNat ∧ s.loopOf z = none))) :
    s.statusLayout cls index kind = .error .badIndex := by
  rcases h with ⟨lo, hi, k⟩ | ⟨rfl, i⟩ | ⟨rfl, i⟩
  · have bad : kind.toNat = 0 ∨ 11 < kind.toNat := k.imp_left fun e => by rw [e]; rfl
    obtain c | c | c : cls.toNat = 5 ∨ cls.toNat = 6 ∨ cls.toNat = 7 := by omega
    · obtain rfl : cls = 5 := byte_eq c
      rw [statusLayout_deviceFault, faultLayout_badKind s bad]
    · obtain rfl : cls = 6 := byte_eq c
      rcases Nat.lt_or_ge index.toNat 48 with lt | ge
      · rw [statusLayout_endpointFault s index kind (e := ⟨index.toNat, lt⟩) rfl, faultLayout_badKind s bad]
      · exact statusLayout_endpointFault_none s index kind ge
    · obtain rfl : cls = 7 := byte_eq c
      rcases Nat.lt_or_ge index.toNat 32 with lt | ge
      · cases bound : s.loopOf ⟨index.toNat, lt⟩ with
        | none => exact statusLayout_loopFault_none s index kind (.inr ⟨_, rfl, bound⟩)
        | some l => rw [statusLayout_loopFault s index kind rfl bound, faultLayout_badKind s bad]
      · exact statusLayout_loopFault_none s index kind (.inl ge)
  · exact statusLayout_endpointFault_none s index kind i
  · exact statusLayout_loopFault_none s index kind i

/-- A fault read of a kind that its subject does not have (R131). -/
theorem statusLayout_fault_badValue (h : (cls = 5 ∧ 1 ≤ kind.toNat ∧ kind.toNat < 9) ∨
    (cls = 6 ∧ index.toNat < 48 ∧ 6 < kind.toNat ∧ kind.toNat ≤ 11) ∨
    (cls = 7 ∧ (∃ (z : ZoneId) (l : ParamId), z.val = index.toNat ∧ s.loopOf z = some l) ∧
      (1 ≤ kind.toNat ∧ kind.toNat < 7 ∨ 8 < kind.toNat ∧ kind.toNat ≤ 11))) :
    s.statusLayout cls index kind = .error .badValue := by
  rcases h with ⟨rfl, lo, hi⟩ | ⟨rfl, i, lo, hi⟩ | ⟨rfl, ⟨z, l, hz, bound⟩, k⟩
  · rw [statusLayout_deviceFault, faultLayout_otherKind s ⟨lo, by omega⟩ (.inl hi)]
  · rw [statusLayout_endpointFault s index kind (e := ⟨index.toNat, i⟩) rfl, faultLayout_otherKind s ⟨by omega, hi⟩ (.inr (by omega))]
  · rw [statusLayout_loopFault s index kind hz bound, faultLayout_otherKind s (by omega) (by omega)]

end

theorem deviceStatus_length (s : State) (bus : Fin 32) : (s.deviceStatus bus).length = 29 := by
  simp [State.deviceStatus, bigEndian_length]

/-- The first nine bytes of the device status: service state, node address, the millisecond count, half the frame counter. -/
theorem deviceStatus_first (s : State) (bus : Fin 32) : padTo 9 (s.deviceStatus bus) =
    [serviceCode s.service, s.node.setWidth 8] ++ bigEndian 6 (min s.now (2 ^ 48 - 1)) ++ [s.frameCounter.extractLsb' 8 8] := by
  have counter : bigEndian 2 s.frameCounter.toNat = [s.frameCounter.extractLsb' 8 8] ++ [BitVec.ofNat 8 s.frameCounter.toNat] := by
    have high : BitVec.ofNat 8 (s.frameCounter.toNat / 256) = s.frameCounter.extractLsb' 8 8 := by
      apply BitVec.eq_of_toNat_eq
      simp [BitVec.extractLsb'_toNat, Nat.shiftRight_eq_div_pow]
    simp [bigEndian, high]
  have count : capBytes 6 s.now = min s.now (2 ^ 48 - 1) := by norm_num [capBytes]
  have split_ : ∃ rest, s.deviceStatus bus = ([serviceCode s.service, s.node.setWidth 8] ++ bigEndian 6 (min s.now (2 ^ 48 - 1)) ++
      [s.frameCounter.extractLsb' 8 8]) ++ rest := by
    simp only [State.deviceStatus, counter, count, List.append_assoc]
    exact ⟨_, rfl⟩
  obtain ⟨rest, h⟩ := split_
  rw [h, padTo_eq_take, List.append_assoc, List.take_left']
  simp [bigEndian_length]

theorem exec_statusRead_device {s : State} {src : Node} {req index kind : Byte}
    (ready : s.commandReady (.statusRead src req 0 index kind 0) src) (h : index.toNat < 32) :
    exec (.statusRead src req 0 index kind 0) s = .next (s.answered (s.reply src 0x04 req .ok
      ([0x40, serviceCode s.service, s.node.setWidth 8] ++ bigEndian 6 (min s.now (2 ^ 48 - 1)) ++
        [s.frameCounter.extractLsb' 8 8]))) := by
  have layout := (statusLayout_device (leaveCommand s) index kind).trans (indexed_ok (i := ⟨index.toNat, h⟩) rfl _)
  have first := deviceStatus_first (leaveCommand s) ⟨index.toNat, h⟩
  rw [exec_statusRead_ok ready layout, deviceStatus_length, if_pos (by decide)]
  rw [leaveCommand_service, leaveCommand_node, leaveCommand_now, leaveCommand_frameCounter] at first
  rw [show 9 * (0 : Byte).toNat = 0 from rfl, List.drop_zero, first]
  rfl

/-! ### TABLE_READ (R151) -/

theorem tableIndexOk_iff (t : Table) (i : Nat) : tableIndexOk t i = true ↔ (tableRange t).1 ≤ i ∧ i ≤ (tableRange t).2 := by
  cases t <;> simp only [tableIndexOk, tableRange, decide_eq_true_eq] <;> omega

theorem groupCount_eq (t : Table) : groupCount t = lastGroup t + 1 := by cases t <;> rfl

theorem readableGroup_iff (t : Table) (g : Nat) :
    readableGroup t g = true ↔ g ≤ lastGroup t ∧ ((t = .loop ∨ t = .desc) → g ≠ 3) := by
  unfold readableGroup
  rw [decide_eq_true_eq, groupCount_eq, Nat.lt_succ_iff, not_and]

theorem tableOf_none {n : Nat} (h : 9 ≤ n) : tableOf n = none := by
  obtain ⟨k, rfl⟩ := Nat.exists_eq_add_of_le' h
  rfl

section
variable {s : State} {src : Node} {req table index group part : Byte}

theorem exec_tableRead (ready : s.commandReady (.tableRead src req table index group part) src) :
    exec (.tableRead src req table index group part) s =
      .next (placeReply src 0x0F req (tableReadBody table index group part (leaveCommand s))) :=
  congrArg Host.Outcome.next (takeCommand_ready ready)

theorem exec_tableRead_refused (ready : s.commandReady (.tableRead src req table index group part) src) {st : Status}
    (h : tableReadBody table index group part (leaveCommand s) = refuse st (leaveCommand s)) :
    exec (.tableRead src req table index group part) s = .next (s.answered (s.reply src 0x0F req st [])) := by
  rw [exec_tableRead ready, h]
  exact congrArg Host.Outcome.next (placeReply_refuse 0x0F st)

theorem tableReadBody_eq {t : Table} (ht : tableOf table.toNat = some t) : tableReadBody table index group part s =
    if tableIndexOk t index.toNat = false then refuse .badIndex s
    else if readableGroup t group.toNat = false then refuse .badValue s
    else readPart (s.tableGroup t index.toNat group.toNat) part (s.boundFlag t index.toNat) s := by
  unfold tableReadBody
  rw [ht]

end

/-! ### What stands in the layouts (Table 11-6) -/

/-- Every fault record stands in the list of all of them (R115). -/
theorem mem_allFaults (f : FaultRef) : f ∈ allFaults := by
  cases f <;> simp [allFaults]

theorem faultKind_le (f : FaultRef) : 1 ≤ faultKind f ∧ faultKind f ≤ 11 := by
  cases f <;> simp only [faultKind] <;> omega

/-- A bit of the set of kinds: some record of the kind passes the test (R130, R131). -/
theorem kindMask_testBit (p : FaultRef → Bool) (k : Nat) :
    (kindMask p).toNat.testBit k = true ↔ ∃ f, faultKind f = k + 1 ∧ p f = true := by
  have fold : ∀ (l : List FaultRef) (m : BitVec 16),
      (l.foldl (fun m f => if p f then m ||| BitVec.twoPow 16 (faultKind f - 1) else m) m).getLsbD k = true ↔
        m.getLsbD k = true ∨ ∃ f ∈ l, faultKind f = k + 1 ∧ p f = true := by
    intro l
    induction l with
    | nil => simp
    | cons f l ih =>
      intro m
      have bit : (BitVec.twoPow 16 (faultKind f - 1)).getLsbD k = true ↔ faultKind f = k + 1 := by
        have := faultKind_le f
        rw [BitVec.getLsbD_twoPow, Bool.and_eq_true, decide_eq_true_eq, decide_eq_true_eq]
        omega
      rw [List.foldl_cons, ih]
      by_cases hp : p f = true
      · rw [if_pos hp, BitVec.getLsbD_or, Bool.or_eq_true, bit]
        simp [hp, or_assoc]
      · rw [if_neg hp]
        simp [hp]
  rw [BitVec.testBit_toNat, kindMask, fold]
  simp [mem_allFaults]

theorem faultCount_eq (s : State) (st : FaultState) : s.faultCount st = (allFaults.filter fun f => (s.fault f).state == st).length :=
  List.countP_eq_length_filter

theorem deviceStatus_eq (s : State) (bus : Fin 32) : s.deviceStatus bus =
    [serviceCode s.service, s.node.setWidth 8] ++ timeBytes 6 (some s.now) ++
      bigEndian 2 s.frameCounter.toNat ++ [portStateCode s.portA, portStateCode s.portB] ++
      [s.cmdQueue.length, s.cueQueue.length, s.replies.length, s.events.length, s.directives.length].map (BitVec.ofNat 8) ++
      [holdStateCode s.hold] ++ bigEndian 3 s.busPeaks[bus] ++ [flagByte s.busClips[bus], flagByte s.alert] ++
      bigEndian 2 (allFaults.filter fun f => (s.fault f).state == .latched).length ++
      bigEndian 2 (allFaults.filter fun f => (s.fault f).state == .retryWait).length ++ bigEndian 2 s.stickyKinds.toNat := by
  simp only [State.deviceStatus, faultCount_eq, timeBytes, List.append_assoc]
  rfl

theorem kindStatus_length (s : State) (z : ZoneId) : (s.kindStatus z).length = 12 := by
  have time : ∀ o, (timeBytes 4 o).length = 4 := fun o => by cases o <;> exact bigEndian_length _ _
  unfold State.kindStatus
  split
  · split
    · simp [LoopRecord.status, bigEndian_length, time]
    · simp [unboundStatus]
  · split
    · simp [DescRecord.status, bigEndian_length]
    · simp [unboundStatus]
  · rfl
  · rfl

section
variable {s : State} {z : ZoneId}

theorem kindStatus_plain (k : (s.zone z).kind = .foyer ∨ (s.zone z).kind = .lounge) : s.kindStatus z = List.replicate 12 0 := by
  unfold State.kindStatus
  rcases k with k | k <;> rw [k]

theorem kindStatus_loop {l : ParamId} (k : (s.zone z).kind = .loop) (bound : s.loopOf z = some l) :
    s.kindStatus z = s.loops[l].status s.now := by
  unfold State.kindStatus
  rw [k]; simp only; rw [bound]

theorem kindStatus_desc {d : ParamId} (k : (s.zone z).kind = .desc) (bound : s.descOf z = some d) :
    s.kindStatus z = s.descs[d].status s.ingressPeaks[s.descs[d].voiceSlot] := by
  unfold State.kindStatus
  rw [k]; simp only; rw [bound]

theorem kindStatus_desc_tail (k : (s.zone z).kind = .desc) : (s.kindStatus z).drop 6 = List.replicate 6 0 := by
  cases bound : s.descOf z with
  | some d =>
    rw [kindStatus_desc k bound]
    rfl
  | none =>
    unfold State.kindStatus
    rw [k]; simp only; rw [bound]
    exact List.drop_left' (by simp [unboundStatus])

end

theorem sourceBytes_eq (r : Source) : sourceBytes r = match r with
    | .stored ids n => [0, BitVec.ofNat 8 ids.length] ++
        ((ids.map fun i : MessageId => (BitVec.ofNat 8 i.val : Byte)) ++ List.replicate 4 0).take 4 ++ [BitVec.ofNat 8 n]
    | .live slot pre => [1, Config.liveIdCount, BitVec.ofNat 8 slot.val, (pre.map fun i => BitVec.ofNat 8 i.val).getD 0xFF, 0, 0,
        Config.liveRepeatCount] := by
  cases r with
  | stored ids n => simp only [sourceBytes, padTo_eq_take]
  | live slot pre => simp only [sourceBytes, optIndexByte_eq]

theorem guardLeft_eq (r : Gate) (now : Nat) : r.guardLeft now = (r.lastClose.map fun q => r.reopenGuard * 1000 - (now - q)).getD 0 := by
  unfold Gate.guardLeft
  cases r.lastClose <;> rfl

/-! ### What stands in the groups (Table 11-5) -/

theorem entryAt_val {α : Type} {n : Nat} (v : Vector α n) (i : Fin n) : entryAt v i.val = some v[i] := by
  simp [entryAt]

theorem loopGroup_eq (s : State) (z : ZoneId) (g : Nat) :
    s.loopGroup z.val g = (((s.loopOf z).map fun l => s.loops[l]).getD ({} : LoopRecord)).group g := by
  unfold State.loopGroup
  rw [indexOf_val, Option.bind_some]
  cases s.loopOf z <;> rfl

theorem descGroup_eq (s : State) (z : ZoneId) (g : Nat) :
    s.descGroup z.val g = (((s.descOf z).map fun d => s.descs[d]).getD ({} : DescRecord)).group g := by
  unfold State.descGroup
  rw [indexOf_val, Option.bind_some]
  cases s.descOf z <;> rfl

/-- Settles O36. The refusals and replies come from `exec_statusRead_ok`, `exec_statusRead_error` and their likes for TABLE_READ; each
layout and group is then read off its definition. -/
theorem readsAnswerAndChangeNothing : Obligations.ReadsAnswerAndChangeNothing := by
  refine ⟨?_, ?_, ?_, fun n v => ⟨bigEndian_length n v, bigEndian_getElem? n v⟩, padTo_eq_take, by decide⟩
  · intro src req cls index kind part s ready
    refine ⟨fun layout h => exec_statusRead_ok ready h, fun h => exec_statusRead_error ready (statusLayout_noClass _ _ _ h),
      fun h => exec_statusRead_error ready (statusLayout_badIndex h), ?_, fun h => ?_, fun h => ?_⟩
    · rintro rfl h rfl
      exact exec_statusRead_device ready h
    · refine exec_statusRead_error ready (statusLayout_fault_badIndex ?_)
      simpa only [leaveCommand_loopOf] using h
    · refine exec_statusRead_error ready (statusLayout_fault_badValue ?_)
      simpa only [leaveCommand_loopOf] using h
  · intro src req table index group part s ready
    refine ⟨fun h => exec_tableRead_refused ready ?_, fun t ht => ⟨fun h => exec_tableRead_refused ready ?_, fun lo hi =>
      ⟨fun h => exec_tableRead_refused ready ?_, fun hg field layout hl => ?_⟩⟩⟩
    · rw [tableReadBody, tableOf_none h]
    · rw [tableReadBody_eq ht, if_pos]
      rw [← Bool.not_eq_true, tableIndexOk_iff]; omega
    · have inside := (tableIndexOk_iff t index.toNat).mpr ⟨lo, hi⟩
      rw [tableReadBody_eq ht, if_neg (by simp [inside]), if_pos]
      rw [← Bool.not_eq_true, readableGroup_iff]
      rintro ⟨small, field⟩
      rcases h with big | ⟨released, three⟩
      · omega
      · exact field released three
    · have inside := (tableIndexOk_iff t index.toNat).mpr ⟨lo, hi⟩
      have named := (readableGroup_iff t group.toNat).mpr ⟨hg, field⟩
      rw [exec_tableRead ready, tableReadBody_eq ht, if_neg (by simp [inside]), if_neg (by simp [named]), leaveCommand_tableGroup,
        leaveCommand_boundFlag, ← hl]
      exact congrArg Host.Outcome.next (readPart_reply 0x0F part layout _)
  · intro s index kind fl tm hfl htm
    obtain rfl : fl = flagByte := hfl
    obtain rfl : tm = timeBytes := by
      rw [htm]; funext k o; cases o <;> rfl
    refine ⟨?_, ?_, ?_, ?_, ?_, ?_, ?_, ?_, ?_, ?_, ?_, ?_, ?_, ?_, ?_, ?_⟩
    · intro bus hbus
      refine ⟨s.stickyKinds.toNat, kindMask_testBit _, ?_⟩
      rw [statusLayout_device, indexed_ok hbus, deviceStatus_eq]
    · rintro z r hz rfl
      refine ⟨s.kindStatus z, kindStatus_length s z, ?_, kindStatus_plain, fun l k bound => kindStatus_loop k bound,
        kindStatus_desc_tail, fun d k bound => ?_⟩
      · rw [statusLayout_zone, indexed_ok hz, State.zoneStatus, optIndexByte_eq]
      · rw [kindStatus_desc k bound]
        exact List.take_left' (by simp [bigEndian_length])
    · rintro e r he rfl
      rw [statusLayout_endpoint, indexed_ok he, State.endpointStatus, reset_endpoint]
    · rintro c r hc rfl
      refine ⟨fun free => ?_, fun taken => ?_⟩
      · rw [statusLayout_call, indexed_ok hc, State.callStatus]
        simp only [free, if_true]; rfl
      · rw [statusLayout_call, indexed_ok hc, State.callStatus]
        simp only [taken, if_false, optIndexByte_eq]
        cases (s.call c).origin <;> cases (s.call c).source <;> simp only [originBytes, sourceBytes_eq] <;> rfl
    · rintro g r hg rfl
      rw [statusLayout_gate, indexed_ok hg, State.gateStatus, optIndexByte_eq, guardLeft_eq]
    · rintro bytes rfl
      refine ⟨fun k hk => ?_, fun e k he hk => ?_, fun z l k hz bound hk => ?_⟩
      · rw [statusLayout_deviceFault, faultLayout_ok s hk (by decide) (by decide)]; rfl
      · rw [statusLayout_endpointFault s index kind he, faultLayout_ok s hk (by decide) (by decide)]; rfl
      · rw [statusLayout_loopFault s index kind hz bound, faultLayout_ok s hk (by decide) (by decide)]; rfl
    · rintro i r rfl
      simp only [State.tableGroup, entryAt_val]; rfl
    · intro i
      simp only [State.tableGroup, entryAt_val]
      cases s.slotMap[i] <;> rfl
    · rintro z r rfl
      simp only [State.tableGroup, entryAt_val]
      refine ⟨rfl, ?_, rfl, ?_⟩
      · show [optIndexByte (s.zone z).primary, optIndexByte (s.zone z).standby] = _
        rw [optIndexByte_eq, optIndexByte_eq]
      · simp [Zone.group]; rfl
    · rintro z r rfl
      simp only [State.tableGroup, loopGroup_eq, State.boundFlag, indexOf_val]
      refine ⟨?_, ?_, ?_, rfl⟩ <;> simp [LoopRecord.group]
    · rintro z r rfl
      simp only [State.tableGroup, descGroup_eq, State.boundFlag, indexOf_val]
      refine ⟨?_, ?_, rfl, rfl⟩ <;> simp [DescRecord.group]
    · rintro e r rfl
      simp only [State.tableGroup, entryAt_val]; rfl
    · rintro g r rfl
      simp only [State.tableGroup, entryAt_val]
      refine ⟨rfl, ?_, ?_⟩
      · simp [Gate.group]; rfl
      · simp [Gate.group, padTo_eq_take]; exact ⟨rfl, rfl⟩
    · rintro k p rfl
      simp only [State.tableGroup, Nat.add_sub_cancel, entryAt_val]; rfl
    · rintro r rfl
      refine ⟨?_, rfl, rfl, rfl⟩
      simp [State.tableGroup, ConfigTable.group]
    · intro t i nl nd
      cases t
      case loop => exact absurd rfl nl
      case desc => exact absurd rfl nd
      all_goals rfl

end Sys2Proof.Machine
end

section
/-! The writes of one part to ROUTE and SLOTMAP (R9, R43, R143), and what the issue of directives makes of their queue (R42, R142). -/

namespace Sys2Proof.Machine

/-! ### The directive queue (R142) -/

theorem joinDirective_keys (d : Directive) : ∀ l : List Directive, l.map Directive.key <+: (joinDirective d l).map Directive.key
  | [] => List.nil_prefix
  | x :: rest => by
    unfold joinDirective
    split
    · next same =>
      have key : d.key = x.key := by simp [Directive.key, same]
      simp [key]
    · simpa using joinDirective_keys d rest

theorem mem_joinDirective_self (d : Directive) : ∀ l : List Directive, d ∈ joinDirective d l
  | [] => List.mem_singleton_self d
  | x :: rest => by
    unfold joinDirective
    split
    · exact List.mem_cons_self
    · exact List.mem_cons_of_mem _ (mem_joinDirective_self d rest)

/-- A waiting directive of another endpoint or code stays as it is. -/
theorem mem_joinDirective_of_ne {d x : Directive} (ne : d.key ≠ x.key) : ∀ {l : List Directive}, x ∈ l → x ∈ joinDirective d l
  | y :: rest, h => by
    unfold joinDirective
    split
    · next same =>
      rcases List.mem_cons.mp h with rfl | h
      · exact absurd (by simp [Directive.key, same]) ne
      · exact List.mem_cons_of_mem _ h
    · rcases List.mem_cons.mp h with rfl | h
      · exact List.mem_cons_self
      · exact List.mem_cons_of_mem _ (mem_joinDirective_of_ne ne h)

/-- The queue after several directives joined it, one after another. -/
def joinAll (ds q : List Directive) : List Directive := ds.foldl (fun q d => joinDirective d q) q

theorem joinAll_cons (d : Directive) (ds q : List Directive) : joinAll (d :: ds) q = joinAll ds (joinDirective d q) := rfl

theorem joinAll_keys (ds : List Directive) : ∀ q, q.map Directive.key <+: (joinAll ds q).map Directive.key := by
  induction ds with
  | nil => exact fun q => List.prefix_refl _
  | cons d ds ih => exact fun q => (joinDirective_keys d q).trans (ih _)

theorem mem_joinAll {x : Directive} {ds : List Directive} : ∀ {q}, x ∈ joinAll ds q → x ∈ q ∨ x ∈ ds := by
  induction ds with
  | nil => exact fun h => .inl h
  | cons d ds ih =>
    intro q h
    rcases ih (joinAll_cons d ds q ▸ h) with h | h
    · exact (mem_joinDirective h).elim (fun e => .inr (by simp [e])) .inl
    · exact .inr (List.mem_cons_of_mem _ h)

theorem mem_joinAll_of_ne {x : Directive} {ds : List Directive} (ne : ∀ d ∈ ds, d.key ≠ x.key) :
    ∀ {q}, x ∈ q → x ∈ joinAll ds q := by
  induction ds with
  | nil => exact fun h => h
  | cons d ds ih =>
    exact fun h => ih (fun y hy => ne y (List.mem_cons_of_mem _ hy)) (mem_joinDirective_of_ne (ne d List.mem_cons_self) h)

/-- Directives of which no two are of one endpoint and code all wait after they joined. -/
theorem mem_joinAll_self {ds : List Directive} (distinct : (ds.map Directive.key).Nodup) : ∀ {d}, d ∈ ds → ∀ q, d ∈ joinAll ds q := by
  induction ds with
  | nil => exact fun h => absurd h List.not_mem_nil
  | cons x ds ih =>
    obtain ⟨new, rest⟩ := List.nodup_cons.mp distinct
    intro d h q
    rcases List.mem_cons.mp h with rfl | h
    · exact mem_joinAll_of_ne (fun y hy e => new (e ▸ List.mem_map_of_mem hy)) (mem_joinDirective_self d q)
    · exact ih rest h _

/-! ### LISTEN worked out anew (R43) -/

section
variable (before s : State)

/-- The LISTEN directive that a change of the slot map or of a zone's enable issues to an endpoint, if it issues one. -/
def State.listenIssued (e : EndpointId) : Option Directive :=
  (s.zoneOfEndpoint e).bind fun z =>
    if before.listenSlot z ≠ s.listenSlot z ∧ s.service = .service ∧ (s.endpoint e).presence = .present then
      some { endpoint := e, code := .listen, dest := (s.endpoint e).node, value := optIndexByte (s.listenSlot z) }
    else none

variable {before s}

theorem listenIssued_some {e : EndpointId} {d : Directive} : before.listenIssued s e = some d ↔
    ∃ z, s.zoneOfEndpoint e = some z ∧ before.listenSlot z ≠ s.listenSlot z ∧ s.service = .service ∧
      (s.endpoint e).presence = .present ∧
      d = { endpoint := e, code := .listen, dest := (s.endpoint e).node, value := optIndexByte (s.listenSlot z) } := by
  simp only [State.listenIssued, Option.bind_eq_some_iff, Option.ite_none_right_eq_some, Option.some.injEq, and_assoc, eq_comm (a := d)]

variable (before s)

/-- A run over endpoints whose change for each of them is at most one directive, which does not depend on the queue. -/
theorem forEach_joinAll {α : Type} {f : α → State → State} {issued : State → α → Option Directive}
    (one : ∀ a u, f a u = { u with directives := joinAll (issued u a).toList u.directives })
    (free : ∀ a (u : State) q, issued { u with directives := q } a = issued u a) (l : List α) :
    forEach l f s = { s with directives := joinAll (l.filterMap (issued s)) s.directives } := by
  induction l generalizing s with
  | nil => rfl
  | cons a l ih =>
    have same : issued { s with directives := joinAll (issued s a).toList s.directives } = issued s := funext fun b => free b s _
    rw [forEach_cons, one, ih, same, List.filterMap_cons]
    cases issued s a <;> rfl

theorem relisten_eq : relisten before s =
    { s with directives := joinAll (allEndpoints.filterMap (before.listenIssued s)) s.directives } := by
  refine forEach_joinAll s (issued := before.listenIssued) (fun e u => ?_) (fun e u q => rfl) _
  unfold State.listenIssued
  cases u.zoneOfEndpoint e with
  | none => rfl
  | some z =>
    simp only [Option.bind_some]
    by_cases moved : before.listenSlot z ≠ u.listenSlot z
    · rw [if_pos moved]
      rcases issue_cases e .listen (optIndexByte (u.listenSlot z)) u with ⟨service, present, eq⟩ | ⟨no, eq⟩
      · rw [eq, if_pos ⟨moved, service, present⟩]; rfl
      · rw [eq, if_neg (fun h => no h.2)]; rfl
    · rw [if_neg moved, if_neg (fun h => moved h.1)]; rfl

variable {before s}

theorem relisten_configuration (h : s.service ≠ .service) : relisten before s = s := by
  have none_issued : allEndpoints.filterMap (before.listenIssued s) = [] := by
    rw [List.filterMap_eq_nil_iff]
    intro e _
    rw [Option.eq_none_iff_forall_ne_some]
    intro d eq
    obtain ⟨_, -, -, service, -⟩ := listenIssued_some.mp eq
    exact h service
  rw [relisten_eq, none_issued]; rfl

theorem listenIssued_nodup : ((allEndpoints.filterMap (before.listenIssued s)).map Directive.key).Nodup := by
  refine List.Nodup.map_on ?_ ((List.nodup_finRange 48).filterMap ?_)
  · intro d hd x hx same
    obtain ⟨e, -, he⟩ := List.mem_filterMap.mp hd
    obtain ⟨e', -, he'⟩ := List.mem_filterMap.mp hx
    have : e = e' := by
      obtain ⟨_, -, -, -, -, rfl⟩ := listenIssued_some.mp he
      obtain ⟨_, -, -, -, -, rfl⟩ := listenIssued_some.mp he'
      exact congrArg Prod.fst same
    subst this
    exact Option.some.inj (he.symm.trans he')
  · intro e e' d he he'
    obtain ⟨_, -, -, -, -, rfl⟩ := listenIssued_some.mp (Option.mem_def.mp he)
    obtain ⟨_, -, -, -, -, eq⟩ := listenIssued_some.mp (Option.mem_def.mp he')
    exact congrArg Directive.endpoint eq

/-- What LISTEN worked out anew makes of the directive queue. -/
theorem relisten_issues (service : s.service = .service) :
    QueueIssues s (relisten before s) fun d => ∃ e z, (s.endpoint e).presence = .present ∧ s.zoneOfEndpoint e = some z ∧
      before.listenSlot z ≠ s.listenSlot z ∧
      d = { endpoint := e, code := .listen, dest := (s.endpoint e).node, value := optIndexByte (s.listenSlot z) } := by
  have issued : ∀ d, (∃ e z, (s.endpoint e).presence = .present ∧ s.zoneOfEndpoint e = some z ∧
      before.listenSlot z ≠ s.listenSlot z ∧
      d = { endpoint := e, code := .listen, dest := (s.endpoint e).node, value := optIndexByte (s.listenSlot z) }) ↔
      d ∈ allEndpoints.filterMap (before.listenIssued s) := by
    intro d
    simp only [List.mem_filterMap, listenIssued_some]
    exact ⟨fun ⟨e, z, present, zone, moved, eq⟩ => ⟨e, List.mem_finRange e, z, zone, moved, service, present, eq⟩,
      fun ⟨e, _, z, zone, moved, _, present, eq⟩ => ⟨e, z, present, zone, moved, eq⟩⟩
  simp only [QueueIssues, issued, relisten_eq]
  exact ⟨joinAll_keys _ _, fun d h => mem_joinAll_self listenIssued_nodup h _, fun d h => mem_joinAll h,
    fun d h ne => mem_joinAll_of_ne ne h⟩

end

/-! ### Writes of one part (R149, R161) -/

section
variable {s : State} {src : Node} {req : Byte} {w : TableWrite}

theorem preCheck_none {t : Table} (index : tableIndexOk t w.index.toNat = true) (group : w.group.toNat < groupCount t)
    (second : w.second = false) : preCheck t w = none := by
  simp [preCheck, index, second, Nat.not_le.mpr group]

theorem checkedWrite_passes {t : Table} (h : preCheck t w = none) (body : State → State × Answer) :
    checkedWrite t w body s = body s := by
  unfold checkedWrite; rw [h]

/-- What a command's leaving the queue can touch, as a record update. -/
theorem leaveCommand_eq (s : State) : ∃ hold flag,
    leaveCommand s = { s with cmdQueue := s.cmdQueue.tail, hold := hold, holdFlag := flag } := by
  unfold leaveCommand flowOnLeave
  simp only
  split
  · exact ⟨_, _, rfl⟩
  · exact ⟨_, _, rfl⟩

/-- The reply of a write that passed, beside whatever it changed. -/
theorem placeReply_written {t : State} (code : Byte) (clamped : Bool) (i : Nat) (replies : t.replies = s.replies)
    (node : t.node = s.node) : placeReply src code req (written clamped i t) =
      { t with replies := s.replies ++ [s.reply src code req (if clamped then .clamped else .ok) [BitVec.ofNat 8 i]] } := by
  rw [written, placeReply_normal, replies, reply_node node]

theorem flagOf_eq_none {b : Byte} (h : 1 < b.toNat) : flagOf b = none := by
  have h0 : b ≠ 0 := fun e => by subst e; exact absurd h (by decide)
  have h1 : b ≠ 1 := fun e => by subst e; exact absurd h (by decide)
  rw [flagOf, if_neg h0, if_neg h1]

/-! ### ROUTE_WRITE -/

theorem exec_routeWrite (ready : s.commandReady (.routeWrite src req w) src) (group : w.group = 0) (second : w.second = false)
    {i : Fin 128} (hi : i.val = w.index.toNat) :
    exec (.routeWrite src req w) s = .next (placeReply src 0x80 req (routeBody i w.data (leaveCommand s))) := by
  have at_i : (⟨w.index.toNat, w.index.isLt⟩ : Fin 128) = i := Fin.ext hi.symm
  have pass : preCheck .route w = none := preCheck_none (by simp [tableIndexOk]; omega) (by rw [group]; decide) second
  refine congrArg Host.Outcome.next ((takeCommand_ready ready).trans ?_)
  rw [routeWriteBody, checkedWrite_passes pass, at_i, codeOf, tableWriteCode, group]
  rfl

theorem routeBody_free {i : Fin 128} {d : List Byte} (free : byteAt d 0 = 0) : routeBody i d s = written false i.val (setRoute i {} s) := by
  unfold routeBody
  rw [free]; rfl

theorem routeBody_badFlag {i : Fin 128} {d : List Byte} (bad : 1 < (byteAt d 0).toNat) : routeBody i d s = refuse .badValue s := by
  unfold routeBody
  rw [flagOf_eq_none bad]

theorem routeBody_badField {i : Fin 128} {d : List Byte} (set : byteAt d 0 = 1)
    (bad : 64 ≤ (byteAt d 1).toNat ∨ 32 ≤ (byteAt d 2).toNat) : routeBody i d s = refuse .badValue s := by
  unfold routeBody
  rw [set, show flagOf 1 = some true from rfl]
  rcases bad with bad | bad
  · rw [indexOf_none bad]
  · rw [indexOf_none bad]
    cases indexOf 64 (byteAt d 1).toNat <;> rfl

theorem routeBody_put {i : Fin 128} {d : List Byte} {slot : Fin 64} {bus : Fin 32} (set : byteAt d 0 = 1)
    (hs : slot.val = (byteAt d 1).toNat) (hb : bus.val = (byteAt d 2).toNat) (free : s.routeHolder i slot bus = none) :
    routeBody i d s =
      written false i.val (setRoute i { inUse := true, slot := slot, bus := bus, gain := (word16 d 3).toNat } s) := by
  unfold routeBody
  rw [set, show flagOf 1 = some true from rfl, ← hs, ← hb, indexOf_val, indexOf_val]
  simp only [free]

theorem routeBody_gain {i j : Fin 128} {d : List Byte} {slot : Fin 64} {bus : Fin 32} (set : byteAt d 0 = 1)
    (hs : slot.val = (byteAt d 1).toNat) (hb : bus.val = (byteAt d 2).toNat) (held : s.routeHolder i slot bus = some j) :
    routeBody i d s = written false j.val (setRoute j { s.routes[j] with gain := (word16 d 3).toNat } s) := by
  unfold routeBody
  rw [set, show flagOf 1 = some true from rfl, ← hs, ← hb, indexOf_val, indexOf_val]
  simp only [held]

theorem routeHolder_eq_none_iff {i : Fin 128} {slot : Fin 64} {bus : Fin 32} : s.routeHolder i slot bus = none ↔
    ∀ j : Fin 128, j ≠ i → ¬ (s.routes[j].inUse = true ∧ s.routes[j].slot = slot ∧ s.routes[j].bus = bus) := by
  simp only [State.routeHolder, List.find?_eq_none, List.mem_finRange, true_imp_iff, Bool.and_eq_true, bne_iff_ne, beq_iff_eq,
    and_assoc, not_and]

/-- Where no two in-use entries share a slot and bus, the holder is the one entry that has them (R8). -/
theorem routeHolder_eq_some {i j : Fin 128} {slot : Fin 64} {bus : Fin 32} (distinct : s.RoutesDistinct) (ne : j ≠ i)
    (used : s.routes[j].inUse = true) (hs : s.routes[j].slot = slot) (hb : s.routes[j].bus = bus) :
    s.routeHolder i slot bus = some j := by
  cases found : s.routeHolder i slot bus with
  | none => exact absurd ⟨used, hs, hb⟩ (routeHolder_eq_none_iff.mp found j ne)
  | some k =>
    have holds := List.find?_some found
    simp only [Bool.and_eq_true, beq_iff_eq] at holds
    obtain ⟨⟨⟨-, used'⟩, hs'⟩, hb'⟩ := holds
    by_contra other
    exact other (congrArg some (distinct k j used' used (hs'.trans hs.symm) (hb'.trans hb.symm)))

theorem placeReply_setRoute (i j : Fin 128) (r : Route) : placeReply src 0x80 req (written false i.val (setRoute j r (leaveCommand s))) =
    { s.answered (s.reply src 0x80 req .ok [BitVec.ofNat 8 i.val]) with routes := s.routes.set j r } := by
  rw [placeReply_written (s := s) _ _ _ (by simp [setRoute]) (by simp [setRoute])]
  simp [setRoute, State.answered]

theorem leaveCommand_routeHolder (i : Fin 128) (slot : Fin 64) (bus : Fin 32) :
    (leaveCommand s).routeHolder i slot bus = s.routeHolder i slot bus := by simp [State.routeHolder]

/-! ### SLOTMAP_WRITE -/

theorem exec_slotmapWrite (ready : s.commandReady (.slotmapWrite src req w) src) (group : w.group = 0) (second : w.second = false)
    {i : Fin 64} (hi : i.val = w.index.toNat) :
    exec (.slotmapWrite src req w) s = .next (placeReply src 0x84 req (slotmapBody i w.data (leaveCommand s))) := by
  have pass : preCheck .slotmap w = none := preCheck_none (by simp [tableIndexOk]; omega) (by rw [group]; decide) second
  refine congrArg Host.Outcome.next ((takeCommand_ready ready).trans ?_)
  rw [slotmapWriteBody, checkedWrite_passes pass, ← hi, indexOf_val, codeOf, tableWriteCode, group]
  rfl

theorem slotEntryOf_none {d : List Byte} (bad : 2 < (byteAt d 0).toNat ∨ byteAt d 0 = 2 ∧ 32 ≤ (byteAt d 1).toNat) :
    slotEntryOf d = none := by
  unfold slotEntryOf
  rcases bad with bad | ⟨zone, bad⟩
  · have ne : ∀ b : Byte, b.toNat ≤ 2 → byteAt d 0 ≠ b := fun b hb e => by rw [e] at bad; omega
    rw [if_neg (ne 0 (by decide)), if_neg (ne 1 (by decide)), if_neg (ne 2 (by decide))]
  · rw [zone, indexOf_none bad]; rfl

theorem slotEntryOf_some {d : List Byte} {v : SlotEntry} (h : (byteAt d 0 = 0 ∧ v = .pass) ∨ (byteAt d 0 = 1 ∧ v = .silence) ∨
    (byteAt d 0 = 2 ∧ ∃ z : ZoneId, z.val = (byteAt d 1).toNat ∧ v = .zone z)) : slotEntryOf d = some v := by
  unfold slotEntryOf
  rcases h with ⟨h, rfl⟩ | ⟨h, rfl⟩ | ⟨h, z, hz, rfl⟩
  · rw [h]; rfl
  · rw [h]; rfl
  · rw [h, ← hz, indexOf_val]; rfl

theorem slotmapBody_eq {i : Fin 64} {d : List Byte} {v : SlotEntry} (h : slotEntryOf d = some v) :
    slotmapBody i d s = written false i.val (relisten s { s with slotMap := s.slotMap.set i v }) := by
  unfold slotmapBody; rw [h]

theorem slotmapBody_refuses {i : Fin 64} {d : List Byte} (h : slotEntryOf d = none) : slotmapBody i d s = refuse .badValue s := by
  unfold slotmapBody; rw [h]

end

/-- Settles O47: the three forms of a route write by who holds the slot and bus; a slot-map write is the entry and the LISTENs it issues. -/
theorem routeAndSlotmapWrites : Obligations.RouteAndSlotmapWrites := by
  refine ⟨fun src req w s i ready group second hi => ?_, fun src req w s i ready group second hi => ?_⟩
  · rw [exec_routeWrite ready group second hi]
    refine ⟨fun free => ?_, fun bad => ?_, fun slot bus set hs hb => ⟨fun free => ?_, fun j distinct ne used sj bj => ?_⟩⟩
    · rw [routeBody_free free, placeReply_setRoute]
    · rcases bad with bad | ⟨set, bad⟩
      · rw [routeBody_badFlag bad, placeReply_refuse]
      · rw [routeBody_badField set bad, placeReply_refuse]
    · have none_holds : (leaveCommand s).routeHolder i slot bus = none :=
        (leaveCommand_routeHolder i slot bus).trans (routeHolder_eq_none_iff.mpr free)
      rw [routeBody_put set hs hb none_holds, placeReply_setRoute]
    · have j_holds : (leaveCommand s).routeHolder i slot bus = some j :=
        (leaveCommand_routeHolder i slot bus).trans (routeHolder_eq_some distinct ne used sj bj)
      rw [routeBody_gain set hs hb j_holds, placeReply_setRoute, leaveCommand_routes]
  · rw [exec_slotmapWrite ready group second hi]
    refine ⟨fun bad => ?_, fun v entry => ?_⟩
    · rw [slotmapBody_refuses (slotEntryOf_none bad), placeReply_refuse]
    · obtain ⟨hold, flag, left⟩ := leaveCommand_eq s
      rw [slotmapBody_eq (slotEntryOf_some entry), State.answered, left]
      refine ⟨_, rfl, ?_, fun service => ?_, fun service => ?_⟩
      · rw [relisten_eq]; rfl
      · rw [relisten_configuration (by simp [service])]; rfl
      · rw [relisten_eq]
        have issues := relisten_issues (before := { s with cmdQueue := s.cmdQueue.tail, hold := hold, holdFlag := flag })
          (s := { s with cmdQueue := s.cmdQueue.tail, hold := hold, holdFlag := flag, slotMap := s.slotMap.set i v }) service
        rwa [relisten_eq] at issues

end Sys2Proof.Machine
end

section
/-! Commanded power worked out anew (R39, R41) and the writes of a zone's settings (R21, R27, R40). -/

namespace Sys2Proof.Machine

/-! ### Entries of states with the same `still` -/

section
variable {s t : State}

theorem still_endpoint (h : t.still = s.still) (e : EndpointId) : (t.endpoint e).still = (s.endpoint e).still := by
  have entry := congrArg (fun v : Vector Endpoint 48 => v[e]) (congrArg State.endpoints h)
  simpa [State.still, State.endpoint] using entry

theorem still_zone (h : t.still = s.still) (z : ZoneId) : (t.zone z).still = (s.zone z).still := by
  have entry := congrArg (fun v : Vector Zone 32 => v[z]) (congrArg State.zones h)
  simpa [State.still, State.zone] using entry

/-! ### Commanded power -/

theorem issuePower_eq (e : EndpointId) (s : State) : ∃ es ds, issuePower e s = { s with endpoints := es, directives := ds } := by
  unfold issuePower
  split
  · exact ⟨_, _, rfl⟩
  · exact ⟨_, _, rfl⟩

/-- Work on commanded power touches the endpoint records and the directive queue alone. -/
theorem recommand_eq (e : EndpointId) (s : State) : ∃ es ds, recommand e s = { s with endpoints := es, directives := ds } := by
  unfold recommand
  split
  · obtain ⟨es, ds, eq⟩ := issuePower_eq e (modEndpoint e (fun r => { r with commanded := s.commandedPower e }) s)
    exact ⟨es, ds, eq⟩
  · exact ⟨_, _, rfl⟩

theorem whenSome_recommand_eq (o : Option EndpointId) (s : State) :
    ∃ es ds, whenSome o recommand s = { s with endpoints := es, directives := ds } := by
  cases o with
  | none => exact ⟨_, _, rfl⟩
  | some e => exact recommand_eq e s

theorem recommandZone_eq (z : ZoneId) (s : State) : ∃ es ds, recommandZone z s = { s with endpoints := es, directives := ds } := by
  unfold recommandZone
  obtain ⟨_, _, first⟩ := whenSome_recommand_eq (s.zone z).primary s
  obtain ⟨es, ds, second⟩ := whenSome_recommand_eq (s.zone z).standby (whenSome (s.zone z).primary recommand s)
  exact ⟨es, ds, by rw [second, first]⟩

theorem issuePower_commanded (e x : EndpointId) (s : State) :
    ((issuePower e s).endpoint x).commanded = (s.endpoint x).commanded := by
  unfold issuePower
  split
  · rw [modEndpoint_endpoint]
    split
    · next same => subst same; rfl
    · rfl
  · rfl

theorem recommand_commanded {e : EndpointId} (used : (s.endpoint e).inUse = true) :
    ((recommand e s).endpoint e).commanded = s.commandedPower e := by
  unfold recommand
  split
  · rw [issuePower_commanded, modEndpoint_endpoint, if_pos rfl]
  · next same => exact (by_contra fun ne => same ⟨used, fun eq => ne eq.symm⟩)

theorem recommand_other {e x : EndpointId} (ne : x ≠ e) : ((recommand e s).endpoint x).commanded = (s.endpoint x).commanded := by
  unfold recommand
  split
  · rw [issuePower_commanded, modEndpoint_endpoint, if_neg ne]
  · rfl

/-- What decides an endpoint's commanded state (Table 2-5) beside its role and place. -/
theorem commandedPower_congr {e : EndpointId} (role : (t.endpoint e).role = (s.endpoint e).role)
    (place : (t.endpoint e).place = (s.endpoint e).place) (service : t.service = s.service) (now : t.now = s.now)
    (zones : t.zones = s.zones) (calls : t.calls = s.calls) : t.commandedPower e = s.commandedPower e := by
  have zone : t.zone = s.zone := by funext z; simp [State.zone, zones]
  have claimant : t.claimant = s.claimant := by funext z; simp [State.claimant, State.call, calls]
  simp only [State.commandedPower, role, place, service, now, zone, claimant]

theorem recommand_commandedPower (e x : EndpointId) (s : State) : (recommand e s).commandedPower x = s.commandedPower x := by
  have entry := still_endpoint (recommand_still s e) x
  have role := congrArg Endpoint.role entry
  have place := congrArg Endpoint.place entry
  obtain ⟨es, ds, eq⟩ := recommand_eq e s
  rw [eq] at role place ⊢
  exact commandedPower_congr role place rfl rfl rfl rfl

theorem recommandZone_commandedPower (z : ZoneId) (x : EndpointId) (s : State) :
    (recommandZone z s).commandedPower x = s.commandedPower x := by
  unfold recommandZone
  rw [whenSome_keeps _ (fun u => u.commandedPower x) fun e u => recommand_commandedPower e x u,
    whenSome_keeps _ (fun u => u.commandedPower x) fun e u => recommand_commandedPower e x u]

/-- The in-use endpoints of a zone have the commanded state of Table 2-5 once it was worked out. -/
theorem recommandZone_commanded {z : ZoneId} {e : EndpointId} (named : (s.zone z).primary = some e ∨ (s.zone z).standby = some e)
    (used : (s.endpoint e).inUse = true) : ((recommandZone z s).endpoint e).commanded = (recommandZone z s).commandedPower e := by
  rw [recommandZone_commandedPower]
  unfold recommandZone
  have usedAfter : ((whenSome (s.zone z).primary recommand s).endpoint e).inUse = true := by
    have entry := still_endpoint (whenSome_keeps s State.still (fun x u => recommand_still u x) (s.zone z).primary) e
    exact (congrArg Endpoint.inUse entry).trans used
  have powerAfter : (whenSome (s.zone z).primary recommand s).commandedPower e = s.commandedPower e :=
    whenSome_keeps s (fun u => u.commandedPower e) (fun x u => recommand_commandedPower x e u) _
  by_cases second : (s.zone z).standby = some e
  · rw [second]
    exact (recommand_commanded usedAfter).trans powerAfter
  · have first : (s.zone z).primary = some e := named.resolve_right second
    have done : ((whenSome (s.zone z).primary recommand s).endpoint e).commanded = s.commandedPower e := by
      rw [first]; exact recommand_commanded used
    cases standby : (s.zone z).standby with
    | none => exact done
    | some b => exact (recommand_other fun same : e = b => second (same ▸ standby)).trans done

end

/-! ### ZONE_WRITE -/

section
variable {s : State} {src : Node} {req : Byte} {w : TableWrite} {z : ZoneId}

theorem exec_zoneWrite (ready : s.commandReady (.zoneWrite src req w) src) (second : w.second = false) (hz : z.val = w.index.toNat) :
    exec (.zoneWrite src req w) s =
      .next (placeReply src (BitVec.ofNat 8 (0x88 + w.group.toNat)) req (zoneBody z w.group w.data (leaveCommand s))) := by
  have pass : preCheck .zone w = none := preCheck_none (by simp [tableIndexOk]; omega) w.group.isLt second
  refine congrArg Host.Outcome.next ((takeCommand_ready ready).trans ?_)
  rw [zoneWriteBody, checkedWrite_passes pass, ← hz, indexOf_val]
  rfl

theorem zoneIdle_eq {d : List Byte} {p : IdlePolicy} (h : idlePolicyOf (byteAt d 0) = some p) : zoneIdle z d s =
    written (clamps 1 3600 (word16 d 1).toNat) z.val
      (recommandZone z (modZone z (fun r => r.withIdle p (clampTo 1 3600 (word16 d 1).toNat) s.now) s)) := by
  unfold zoneIdle; rw [h]

theorem zoneIdle_refuses {d : List Byte} (h : 1 < (byteAt d 0).toNat) : zoneIdle z d s = refuse .badValue s := by
  have none_named : idlePolicyOf (byteAt d 0) = none := by
    have h0 : byteAt d 0 ≠ 0 := fun e => by rw [e] at h; exact absurd h (by decide)
    have h1 : byteAt d 0 ≠ 1 := fun e => by rw [e] at h; exact absurd h (by decide)
    rw [idlePolicyOf, if_neg h0, if_neg h1]
  unfold zoneIdle; rw [none_named]

theorem zoneEndpoints_service {d : List Byte} (h : s.service = .service) : zoneEndpoints z d s = refuse .wrongState s := if_pos h

theorem zoneEndpoints_noField {d : List Byte} (h : s.service = .configuration)
    (bad : endpointField (byteAt d 0) = none ∨ endpointField (byteAt d 1) = none) : zoneEndpoints z d s = refuse .badValue s := by
  unfold zoneEndpoints
  rw [if_neg (by simp [h])]
  rcases bad with bad | bad
  · rw [bad]
  · rw [bad]
    cases endpointField (byteAt d 0) <;> rfl

theorem zoneEndpoints_eq {d : List Byte} {p b : Option EndpointId} (h : s.service = .configuration)
    (hp : endpointField (byteAt d 0) = some p) (hb : endpointField (byteAt d 1) = some b) : zoneEndpoints z d s =
      if b ≠ none ∧ (p = none ∨ p = b) then refuse .badValue s
      else written false z.val (modZone z (fun r => { r with primary := p, standby := b }) s) := by
  unfold zoneEndpoints
  rw [if_neg (by simp [h]), hp, hb]
  simp only [Option.isSome_iff_ne_none]

theorem withIdle_eq (r : Zone) (p : IdlePolicy) (time now : Nat) : r.withIdle p time now = { r with
    idlePolicy := p, idleTime := time
    idleDeadline := if p = .alwaysOn then none else if r.idlePolicy = .alwaysOn then some (now + time * 1000) else r.idleDeadline } := by
  unfold Zone.withIdle
  cases p <;> cases r.idlePolicy <;> rfl

end

/-- The reply's status of a write with a clamped field (R161). -/
theorem clampStatus_eq (lo hi v : Nat) :
    (if clamps lo hi v then Status.clamped else Status.ok) = if clampTo lo hi v = v then .ok else .clamped := by
  by_cases same : clampTo lo hi v = v <;> simp [clamps, same]

/-- Settles O48: one group of a zone record each; the idle group alone reaches beyond the record, to the commanded states of its
endpoints. -/
theorem zoneSettingsWrites : Obligations.ZoneSettingsWrites := by
  intro src req w s z ready second hz
  obtain ⟨hold, flag, left⟩ := leaveCommand_eq s
  rw [exec_zoneWrite ready second hz]
  refine ⟨fun group => ?_, fun group => ?_, fun group => ?_⟩ <;> rw [group]
  · have step : clampTo 1 65535 (word16 w.data 6).toNat = max 1 (word16 w.data 6).toNat := by
      have := (word16 w.data 6).isLt
      unfold clampTo; omega
    have status : (if clamps 1 65535 (word16 w.data 6).toNat then Status.clamped else Status.ok) =
        if word16 w.data 6 = 0 then .clamped else .ok := by
      rw [clampStatus_eq, step]
      by_cases zero : word16 w.data 6 = 0
      · rw [if_pos zero, zero]; rfl
      · have pos : (word16 w.data 6).toNat ≠ 0 := fun h => zero (BitVec.eq_of_toNat_eq h)
        rw [if_neg zero, if_pos (by omega)]
    show Host.Outcome.next (placeReply src 0x8B req (zoneGains z w.data (leaveCommand s))) = _
    rw [zoneGains, placeReply_written (s := s) _ _ _ (by simp) (by simp), status, step, State.answered, left]
    rfl
  · show (_ → Host.Outcome.next (placeReply src 0x8A req (zoneIdle z w.data (leaveCommand s))) = _) ∧
      (∀ p time, _ → _ → ∃ t, Host.Outcome.next (placeReply src 0x8A req (zoneIdle z w.data (leaveCommand s))) = .next t ∧ _)
    refine ⟨fun bad => ?_, fun p time policy ht => ?_⟩
    · rw [zoneIdle_refuses bad, placeReply_refuse]
    · have time_eq : clampTo 1 3600 (word16 w.data 1).toNat = time := ht ▸ rfl
      have status := clampStatus_eq 1 3600 (word16 w.data 1).toNat
      rw [time_eq] at status
      obtain ⟨u, hu⟩ : ∃ u, u = modZone z (fun r => r.withIdle p time (leaveCommand s).now) (leaveCommand s) := ⟨_, rfl⟩
      have worked := fun e => recommandZone_commanded (s := u) (z := z) (e := e)
      obtain ⟨es, ds, touched⟩ := recommandZone_eq z u
      rw [zoneIdle_eq policy, time_eq, ← hu]
      rw [touched] at worked ⊢
      rw [placeReply_written (s := s) _ _ _ (by simp [hu]) (by simp [hu]), status]
      refine ⟨_, rfl, rfl, ?_, fun e named used => ?_, ?_, ?_, ?_⟩
      · show u.zones = _
        rw [hu, left]
        show s.zones.set z ((s.zone z).withIdle p time s.now) = _
        rw [withIdle_eq]
      · have record : (u.zone z).primary = (s.zone z).primary ∧ (u.zone z).standby = (s.zone z).standby := by
          simp [hu, Zone.withIdle, leaveCommand_zone]
        have entry : u.endpoint e = s.endpoint e := by simp [hu, State.endpoint]
        exact worked e (by rwa [record.1, record.2]) (by rwa [entry])
      · simp [hu]
      · simp [hu]
      · simp [hu]
  · show (_ → Host.Outcome.next (placeReply src 0x89 req (zoneEndpoints z w.data (leaveCommand s))) = _) ∧
      (_ → (_ → Host.Outcome.next (placeReply src 0x89 req (zoneEndpoints z w.data (leaveCommand s))) = _) ∧
        ∀ p b, _ → _ → (_ → _ → Host.Outcome.next (placeReply src 0x89 req (zoneEndpoints z w.data (leaveCommand s))) = _) ∧
          (_ → Host.Outcome.next (placeReply src 0x89 req (zoneEndpoints z w.data (leaveCommand s))) = _))
    have service : (leaveCommand s).service = s.service := leaveCommand_service s
    refine ⟨fun serving => ?_, fun config => ⟨fun bad => ?_, fun p b hp hb => ⟨fun named clash => ?_, fun fine => ?_⟩⟩⟩
    · rw [zoneEndpoints_service (service.trans serving), placeReply_refuse]
    · rw [zoneEndpoints_noField (service.trans config) bad, placeReply_refuse]
    · rw [zoneEndpoints_eq (service.trans config) hp hb, if_pos ⟨named, clash⟩, placeReply_refuse]
    · have good : ¬ (b ≠ none ∧ (p = none ∨ p = b)) := by
        rintro ⟨named, clash⟩
        obtain ⟨some_p, ne⟩ := fine.resolve_left named
        exact clash.elim some_p ne
      rw [zoneEndpoints_eq (service.trans config) hp hb, if_neg good, placeReply_written (s := s) _ _ _ (by simp) (by simp),
        State.answered, left]
      rfl

end Sys2Proof.Machine
end

section
/-! The enable and disable of a zone in SERVICE, and the writes of its assignment (R14, R26, R27, R28, R53, R71, R125). -/

namespace Sys2Proof.Machine

/-! ### What a drop leaves alone -/

/-- What claims have no part in, beyond `still`: the fault records, each zone's side and protection, the loop records. -/
def State.unclaimed (s : State) : FaultTable × Vector (Side × Protection) 32 × Vector LoopRecord 8 :=
  (s.faults, s.zones.map fun r => (r.side, r.protection), s.loops)

section
variable (s : State)

theorem modZone_unclaimed (z : ZoneId) {f : Zone → Zone} (h : ∀ r, (f r).side = r.side ∧ (f r).protection = r.protection) :
    (modZone z f s).unclaimed = s.unclaimed := by
  have kept : (s.zones.set z (f s.zones[z])).map (fun r => (r.side, r.protection)) = s.zones.map fun r => (r.side, r.protection) :=
    map_set_same _ _ _ _ (Prod.ext (h s.zones[z]).1 (h s.zones[z]).2)
  simp only [State.unclaimed, modZone, kept]

theorem recommandZone_unclaimed (z : ZoneId) : (recommandZone z s).unclaimed = s.unclaimed := by
  obtain ⟨es, ds, eq⟩ := recommandZone_eq z s
  rw [eq]; rfl

theorem afterRelease_unclaimed (z : ZoneId) : (afterRelease z s).unclaimed = s.unclaimed := by
  unfold afterRelease
  rw [recommandZone_unclaimed, modZone_unclaimed]
  intro r
  split <;> exact ⟨rfl, rfl⟩

theorem pushEvent_unclaimed (n : Node) (code : Byte) (p : List Byte) : (pushEvent n code p s).unclaimed = s.unclaimed := by
  unfold pushEvent
  split
  · rfl
  · split <;> rfl

theorem reportCompletion_unclaimed (r : Call) (c : CallId) (out : CallOutcome) (d m : ZoneSet) :
    (reportCompletion r c out d m s).unclaimed = s.unclaimed := by
  unfold reportCompletion
  split
  · exact pushEvent_unclaimed s _ _ _
  · exact pushEvent_unclaimed s _ _ _

theorem completeCall_unclaimed (c : CallId) (why : Ending) : (completeCall c why s).unclaimed = s.unclaimed := by
  unfold completeCall
  rw [reportCompletion_unclaimed, forEach_keeps _ _ fun z u => afterRelease_unclaimed u z]
  rfl

theorem dropZone_unclaimed (z : ZoneId) : (dropZone z s).unclaimed = s.unclaimed := by
  unfold dropZone
  split
  · rfl
  · simp only
    split
    · rw [completeCall_unclaimed, afterRelease_unclaimed]; rfl
    · rw [afterRelease_unclaimed]; rfl

end

/-! ### Candidates and protection (R61, R125) -/

section
variable {s : State} {z : ZoneId}

/-- The end of an open-loop candidate touches the loop record of the zone alone. -/
theorem endCandidate_eq (z : ZoneId) (s : State) : ∃ ls, endCandidate z s = { s with loops := ls } ∧
    (∀ l, s.loopOf z = some l → ls = s.loops.set l { s.loops[l] with candidate := none, accumulator := 0 }) := by
  unfold endCandidate
  cases found : s.loopOf z with
  | none => exact ⟨s.loops, rfl, fun l h => nomatch h⟩
  | some l => exact ⟨_, rfl, fun l' h => by cases h; rfl⟩

theorem zone_of_still {r q : Zone} (h : r.still = q.still) :
    r = { q with side := r.side, idleDeadline := r.idleDeadline, protection := r.protection } := by
  calc r = { r.still with side := r.side, idleDeadline := r.idleDeadline, protection := r.protection } := rfl
    _ = { q.still with side := r.side, idleDeadline := r.idleDeadline, protection := r.protection } := by rw [h]

theorem zone_settings_of_still {r q : Zone} (h : r.still = q.still) : r.settings = q.settings := by
  simp only [Zone.settings, h]

theorem still_now {s t : State} (h : t.still = s.still) : t.now = s.now := (congrArg State.now h :)

theorem still_descs {s t : State} (h : t.still = s.still) : t.descs = s.descs := (congrArg State.descs h :)

theorem unclaimed_zone {s t : State} (h : t.unclaimed = s.unclaimed) (y : ZoneId) :
    (t.zone y).side = (s.zone y).side ∧ (t.zone y).protection = (s.zone y).protection := by
  have entry := congrArg (fun v : FaultTable × Vector (Side × Protection) 32 × Vector LoopRecord 8 => v.2.1[y]) h
  simpa [State.unclaimed, State.zone] using entry

theorem protectionOf_congr {s t : State} (faults : t.faults = s.faults) (active : (t.zone z).active = (s.zone z).active) :
    t.protectionOf z = s.protectionOf z := by
  have fault : t.fault = s.fault := by funext f; simp [State.fault, faults]
  have acts : t.actionableWith = s.actionableWith := by
    funext e p
    unfold State.actionableWith
    rw [fault]
  unfold State.protectionOf
  rw [active, acts]

/-- What a protection derived anew leaves of the zones' sides and of the fault records, and what it makes of the protection. -/
theorem deriveProtection_spec (z : ZoneId) (s : State) :
    (deriveProtection z s).faults = s.faults ∧
    (∀ y, ((deriveProtection z s).zone y).side = (s.zone y).side) ∧
    ((deriveProtection z s).zone z).protection = s.protectionOf z ∧
    ((deriveProtection z s).loops = s.loops ∨ (deriveProtection z s).loops = (endCandidate z s).loops) := by
  unfold deriveProtection
  simp only
  split
  · next same => exact ⟨rfl, fun _ => rfl, same.symm, .inl rfl⟩
  · have put : ∀ u : State, u = modZone z (fun r => { r with protection := s.protectionOf z }) s →
        u.faults = s.faults ∧ (∀ y, (u.zone y).side = (s.zone y).side) ∧ (u.zone z).protection = s.protectionOf z := by
      rintro u rfl
      refine ⟨rfl, fun y => ?_, ?_⟩
      · rw [modZone_zone]
        split
        · next same => subst same; rfl
        · rfl
      · rw [modZone_zone, if_pos rfl]
    obtain ⟨u, hu⟩ : ∃ u, u = modZone z (fun r => { r with protection := s.protectionOf z }) s := ⟨_, rfl⟩
    obtain ⟨faults, sides, protection⟩ := put u hu
    rw [← hu]
    split
    · obtain ⟨ls, ended, -⟩ := endCandidate_eq z u
      have kept := dropZone_unclaimed (endCandidate z u) z
      have kept_faults := congrArg Prod.fst kept
      have kept_loops := congrArg (fun v => v.2.2) kept
      have loops : (endCandidate z u).loops = (endCandidate z s).loops := by
        subst hu; unfold endCandidate
        show (whenSome (s.loopOf z) _ _).loops = _
        cases s.loopOf z <;> rfl
      refine ⟨kept_faults.trans ?_, fun y => (unclaimed_zone kept y).1.trans ?_, (unclaimed_zone kept z).2.trans ?_, .inr ?_⟩
      · rw [ended]; exact faults
      · rw [ended]; exact sides y
      · rw [ended]; exact protection
      · exact kept_loops.trans loops
    · exact ⟨faults, sides, protection, .inl (hu ▸ rfl)⟩

end

/-! ### Enable (R28) -/

/-- The loop record of a LOOP zone at its start values (R53). -/
def startLoop (z : ZoneId) (s : State) : State :=
  if (s.zone z).kind = .loop then whenSome (s.loopOf z) (fun l => modLoop l LoopRecord.start) s else s

/-- The description record of a DESC zone at its start values (R71). -/
def startDesc (z : ZoneId) (s : State) : State :=
  if (s.zone z).kind = .desc then whenSome (s.descOf z) (fun d => modDesc d DescRecord.start) s else s

/-- The first part of an enable: the zone on its PRIMARY side, its loop or description record at its start values. -/
def enableStart (z : ZoneId) (s : State) : State :=
  startDesc z (startLoop z (modZone z (fun r => { r with enabled := true, side := .primary }) s))

/-- The second part: protection derived anew, then gains and idle deadline. -/
def enableGains (z : ZoneId) (s : State) : State :=
  let s := setGains z (deriveProtection z s)
  modZone z (fun r => { r with idleDeadline := r.startDeadline s.now }) s

theorem enableZone_eq (z : ZoneId) (s : State) : enableZone z s = recommandZone z (enableGains z (enableStart z s)) := rfl

section
variable {s : State} {z : ZoneId}

theorem startLoop_eq (z : ZoneId) (s : State) : ∃ ls, startLoop z s = { s with loops := ls } ∧
    (∀ i : ParamId, ls[i].zone = s.loops[i].zone) ∧
    (∀ l, (s.zone z).kind = .loop → s.loopOf z = some l → ls = s.loops.set l s.loops[l].start) := by
  unfold startLoop
  split
  · cases found : s.loopOf z with
    | none => exact ⟨_, rfl, fun _ => rfl, fun l _ h => nomatch h⟩
    | some l =>
      refine ⟨s.loops.set l s.loops[l].start, rfl, fun i => ?_, fun l' _ h => by cases h; rfl⟩
      rw [vector_set_get]
      split
      · next same => subst same; rfl
      · rfl
  · next other => exact ⟨_, rfl, fun _ => rfl, fun l h => absurd h other⟩

theorem startDesc_eq (z : ZoneId) (s : State) : ∃ ds, startDesc z s = { s with descs := ds } ∧
    (∀ i : ParamId, ds[i].zone = s.descs[i].zone) ∧
    (∀ d, (s.zone z).kind = .desc → s.descOf z = some d → ds = s.descs.set d s.descs[d].start) := by
  unfold startDesc
  split
  · cases found : s.descOf z with
    | none => exact ⟨_, rfl, fun _ => rfl, fun l _ h => nomatch h⟩
    | some d =>
      refine ⟨s.descs.set d s.descs[d].start, rfl, fun i => ?_, fun d' _ h => by cases h; rfl⟩
      rw [vector_set_get]
      split
      · next same => subst same; rfl
      · rfl
  · next other => exact ⟨_, rfl, fun _ => rfl, fun l h => absurd h other⟩

theorem enableStart_eq (z : ZoneId) (s : State) : ∃ ls ds, enableStart z s =
      { s with zones := s.zones.set z { s.zone z with enabled := true, side := .primary }, loops := ls, descs := ds } ∧
    (∀ i : ParamId, ls[i].zone = s.loops[i].zone ∧ ds[i].zone = s.descs[i].zone) ∧
    (∀ l, (s.zone z).kind = .loop → s.loopOf z = some l → ls = s.loops.set l s.loops[l].start) ∧
    (∀ d, (s.zone z).kind = .desc → s.descOf z = some d → ds = s.descs.set d s.descs[d].start) := by
  obtain ⟨u, hu⟩ : ∃ u, u = modZone z (fun r => { r with enabled := true, side := .primary }) s := ⟨_, rfl⟩
  have kind : (u.zone z).kind = (s.zone z).kind := by rw [hu, modZone_zone, if_pos rfl]
  obtain ⟨ls, loops, loopZone, loopStart⟩ := startLoop_eq z u
  obtain ⟨ds, descs, descZone, descStart⟩ := startDesc_eq z { u with loops := ls }
  refine ⟨ls, ds, ?_, fun i => ⟨?_, ?_⟩, fun l hk hl => ?_, fun d hk hd => ?_⟩
  · rw [enableStart, ← hu, loops, descs, hu]; rfl
  · exact (loopZone i).trans (by rw [hu]; rfl)
  · exact (descZone i).trans (by rw [hu]; rfl)
  · exact (loopStart l (kind.trans hk) (by rw [hu]; exact hl)).trans (by rw [hu]; rfl)
  · exact (descStart d (kind.trans hk) (by rw [hu]; exact hd)).trans (by rw [hu]; rfl)

theorem loopOf_congr {s t : State} (h : ∀ i : ParamId, t.loops[i].zone = s.loops[i].zone) : t.loopOf = s.loopOf := by
  funext z
  simp only [State.loopOf, h]

theorem descOf_congr {s t : State} (h : ∀ i : ParamId, t.descs[i].zone = s.descs[i].zone) : t.descOf = s.descOf := by
  funext z
  simp only [State.descOf, h]

theorem startDeadline_eq (r : Zone) (now : Nat) :
    r.startDeadline now = if r.idlePolicy = .callsOnly then some (now + r.idleTime * 1000) else none := by
  unfold Zone.startDeadline
  cases r.idlePolicy <;> rfl

/-- The gain that a protection leaves of a base value (R17, R125). -/
def Protection.gain (p : Protection) (base reduce : Nat) : Nat :=
  match p with
  | .normal => base
  | .reduced => comp base reduce
  | .muted => 0

theorem outputTarget_eq (s : State) (z : ZoneId) :
    s.outputTarget z = (s.zone z).protection.gain (s.outputBase z) (s.zone z).reduceGain := by
  unfold State.outputTarget Protection.gain
  cases (s.zone z).protection <;> rfl

theorem enableGains_zone (z y : ZoneId) (s : State) : (enableGains z s).zone y =
    if y = z then { (deriveProtection z s).zone z with
      duckGain := 16384, outputGain := (deriveProtection z s).outputTarget z, fresh := true
      voiceGain := if ((deriveProtection z s).zone z).kind = .desc then (deriveProtection z s).voiceTarget z none
        else ((deriveProtection z s).zone z).voiceGain
      idleDeadline := ((deriveProtection z s).zone z).startDeadline (deriveProtection z s).now }
    else (deriveProtection z s).zone y := by
  unfold enableGains setGains
  simp only [modZone_zone, if_pos]
  split <;> rfl

/-- The loop records after an enable's start: a candidate ended once more is no other. -/
theorem enable_loops {l : ParamId} (k : (s.zone z).kind = .loop) (bound : s.loopOf z = some l) :
    (deriveProtection z (enableStart z s)).loops = s.loops.set l s.loops[l].start := by
  obtain ⟨ls, ds, eq, zones, started, -⟩ := enableStart_eq z s
  have loops : (enableStart z s).loops = s.loops.set l s.loops[l].start := by rw [eq]; exact started l k bound
  have stillBound : (enableStart z s).loopOf z = some l := by
    rw [loopOf_congr (s := s) fun i => by rw [eq]; exact (zones i).1]
    exact bound
  rcases (deriveProtection_spec z (enableStart z s)).2.2.2 with same | ended
  · exact same.trans loops
  · obtain ⟨ls', ended_eq, set⟩ := endCandidate_eq z (enableStart z s)
    rw [ended, ended_eq]
    have atStart : (enableStart z s).loops[l] = s.loops[l].start := by rw [loops, vector_set_get, if_pos rfl]
    have again : { (enableStart z s).loops[l] with candidate := none, accumulator := 0 } = (enableStart z s).loops[l] := by
      rw [atStart]; rfl
    refine (set l stillBound).trans ?_
    rw [again]
    exact (Vector.set_getElem_self l.isLt).trans loops

/-- The zone record after an enable's protection is derived; an ended claim may have set its idle deadline. -/
theorem enable_derived_zone (z : ZoneId) (s : State) : (deriveProtection z (enableStart z s)).zone z = { s.zone z with
    enabled := true, side := .primary, idleDeadline := ((deriveProtection z (enableStart z s)).zone z).idleDeadline
    protection := (enableStart z s).protectionOf z } := by
  obtain ⟨ls, ds, eq, -⟩ := enableStart_eq z s
  have start_zone : (enableStart z s).zone z = { s.zone z with enabled := true, side := .primary } := by
    rw [eq]; exact (vector_set_get _ _ _ _).trans (if_pos rfl)
  obtain ⟨-, sides, protection, -⟩ := deriveProtection_spec z (enableStart z s)
  have parts := zone_of_still (still_zone (deriveProtection_still (enableStart z s) z) z)
  rwa [sides, protection, start_zone] at parts

theorem enable_kind (z : ZoneId) (s : State) : ((deriveProtection z (enableStart z s)).zone z).kind = (s.zone z).kind := by
  rw [enable_derived_zone]

/-- The base value of the output gain at an enable (R17, R53). -/
theorem enable_outputBase {base : Nat} (hb : ((s.zone z).kind ≠ .loop ∧ base = (s.zone z).trim) ∨
      ∃ l, (s.zone z).kind = .loop ∧ s.loopOf z = some l ∧ base = comp (s.zone z).trim s.loops[l].start.agc) :
    (deriveProtection z (enableStart z s)).outputBase z = base := by
  have kind := enable_kind z s
  have trim : ((deriveProtection z (enableStart z s)).zone z).trim = (s.zone z).trim := by rw [enable_derived_zone]
  rcases hb with ⟨other, rfl⟩ | ⟨l, loop, bound, rfl⟩
  · rw [outputBase_of_other (servingLoop_of_other fun h => other (kind.symm.trans h)), trim]
  · have loops := enable_loops loop bound
    have stillBound : (deriveProtection z (enableStart z s)).loopOf z = some l := by
      rw [loopOf_congr (s := s) fun i => ?_]
      · exact bound
      · rw [loops, vector_set_get]
        split
        · next same => subst same; rfl
        · rfl
    rw [outputBase_of_loop (servingLoop_of_loop (kind.trans loop) stillBound), trim, loops, vector_set_get, if_pos rfl]

theorem enable_descs {d : ParamId} (k : (s.zone z).kind = .desc) (bound : s.descOf z = some d) :
    (deriveProtection z (enableStart z s)).descs = s.descs.set d s.descs[d].start := by
  obtain ⟨ls, ds, eq, -, -, started⟩ := enableStart_eq z s
  have same : (deriveProtection z (enableStart z s)).descs = (enableStart z s).descs :=
    still_descs (deriveProtection_still (enableStart z s) z)
  rw [same, eq]
  exact started d k bound

/-- The voice gain at an enable (R14, R16). -/
theorem enable_voice {voice : Nat} (hv : ((s.zone z).kind ≠ .desc ∧ voice = (s.zone z).voiceGain) ∨
      ∃ d, (s.zone z).kind = .desc ∧ s.descOf z = some d ∧ voice = s.descs[d].voiceGain) :
    (if ((deriveProtection z (enableStart z s)).zone z).kind = .desc then (deriveProtection z (enableStart z s)).voiceTarget z none
      else ((deriveProtection z (enableStart z s)).zone z).voiceGain) = voice := by
  have kind := enable_kind z s
  rcases hv with ⟨other, rfl⟩ | ⟨i, desc, bound, rfl⟩
  · rw [if_neg fun h => other (kind.symm.trans h), enable_derived_zone]
  · have descs := enable_descs desc bound
    have stillBound : (deriveProtection z (enableStart z s)).descOf z = some i := by
      rw [descOf_congr (s := s) fun j => ?_]
      · exact bound
      · rw [descs, vector_set_get]
        split
        · next same => subst same; rfl
        · rfl
    have serving := servingDesc_of_desc (kind.trans desc) stillBound
    rw [if_pos (kind.trans desc), voiceTarget_of_desc serving, if_pos rfl, descs, vector_set_get, if_pos rfl]
    rfl

/-- The zone record after an enable's gains and deadline (R14, R28). -/
theorem enable_zone {voice base : Nat}
    (hv : ((s.zone z).kind ≠ .desc ∧ voice = (s.zone z).voiceGain) ∨
      ∃ d, (s.zone z).kind = .desc ∧ s.descOf z = some d ∧ voice = s.descs[d].voiceGain)
    (hb : ((s.zone z).kind ≠ .loop ∧ base = (s.zone z).trim) ∨
      ∃ l, (s.zone z).kind = .loop ∧ s.loopOf z = some l ∧ base = comp (s.zone z).trim s.loops[l].start.agc) :
    (enableGains z (enableStart z s)).zone z = { s.zone z with
      enabled := true, side := .primary, protection := (enableStart z s).protectionOf z
      idleDeadline := (s.zone z).startDeadline s.now, duckGain := 16384, voiceGain := voice, fresh := true
      outputGain := ((enableStart z s).protectionOf z).gain base (s.zone z).reduceGain } := by
  have zone := enable_derived_zone z s
  have now : (deriveProtection z (enableStart z s)).now = s.now := by
    obtain ⟨_, _, eq, -⟩ := enableStart_eq z s
    exact (still_now (deriveProtection_still (enableStart z s) z)).trans (by rw [eq])
  rw [enableGains_zone, if_pos rfl, enable_voice hv, outputTarget_eq, enable_outputBase hb, now]
  generalize (deriveProtection z (enableStart z s)).zone z = r at zone ⊢
  rw [zone]
  rfl

theorem setGains_eq (z : ZoneId) (s : State) : ∃ zs, setGains z s = { s with zones := zs } := ⟨_, rfl⟩

theorem enableGains_eq (z : ZoneId) (s : State) : ∃ zs, enableGains z s = { deriveProtection z s with zones := zs } := by
  unfold enableGains
  obtain ⟨zs, eq⟩ := setGains_eq z (deriveProtection z s)
  rw [eq]
  exact ⟨_, rfl⟩

/-- What an enable leaves outside the zones, the endpoint records and the directive queue stands once its protection is derived. -/
theorem enableZone_frame (z : ZoneId) (s : State) : ∃ zs es ds, enableZone z s =
    { deriveProtection z (enableStart z s) with zones := zs, endpoints := es, directives := ds } := by
  obtain ⟨zs, gains⟩ := enableGains_eq z (enableStart z s)
  obtain ⟨es, ds, eq⟩ := recommandZone_eq z (enableGains z (enableStart z s))
  exact ⟨zs, es, ds, by rw [enableZone_eq, eq, gains]⟩

theorem recommandZone_zone (z y : ZoneId) (s : State) : (recommandZone z s).zone y = s.zone y := by
  obtain ⟨es, ds, eq⟩ := recommandZone_eq z s
  rw [eq]; rfl

theorem enableZone_zone (z y : ZoneId) (s : State) : (enableZone z s).zone y = (enableGains z (enableStart z s)).zone y := by
  rw [enableZone_eq, recommandZone_zone]

theorem enableStart_zone (z y : ZoneId) (s : State) : (enableStart z s).zone y =
    if y = z then { s.zone z with enabled := true, side := .primary } else s.zone y := by
  obtain ⟨_, _, eq, -⟩ := enableStart_eq z s
  rw [eq]; exact vector_set_get _ _ _ _

theorem enableZone_other {y : ZoneId} (ne : y ≠ z) : ((enableZone z s).zone y).settings = (s.zone y).settings := by
  rw [enableZone_zone, enableGains_zone, if_neg ne,
    zone_settings_of_still (still_zone (deriveProtection_still (enableStart z s) z) y), enableStart_zone, if_neg ne]

theorem enableZone_named (z : ZoneId) (s : State) : ((enableZone z s).zone z).side = .primary ∧
    ((enableZone z s).zone z).primary = (s.zone z).primary ∧ ((enableZone z s).zone z).standby = (s.zone z).standby := by
  rw [enableZone_zone, enableGains_zone, if_pos rfl, enable_derived_zone]
  exact ⟨rfl, rfl, rfl⟩

theorem enableZone_faults (z : ZoneId) (s : State) : (enableZone z s).faults = s.faults := by
  obtain ⟨_, _, _, eq⟩ := enableZone_frame z s
  obtain ⟨_, _, started, -⟩ := enableStart_eq z s
  obtain ⟨faults, -⟩ := deriveProtection_spec z (enableStart z s)
  rw [eq]
  exact faults.trans (by rw [started])

/-- The protection in force after an enable is the one derived. -/
theorem enableZone_protectionOf (z : ZoneId) (s : State) : (enableZone z s).protectionOf z = (enableStart z s).protectionOf z := by
  obtain ⟨side, primary, -⟩ := enableZone_named z s
  obtain ⟨_, _, started, -⟩ := enableStart_eq z s
  have zone := enableStart_zone z z s
  rw [if_pos rfl] at zone
  refine protectionOf_congr ((enableZone_faults z s).trans (by rw [started])) ?_
  simp only [Zone.active, side, primary, zone]

/-- The zone record after an enable (R14, R28, R125). -/
theorem enableZone_record {voice base : Nat}
    (hv : ((s.zone z).kind ≠ .desc ∧ voice = (s.zone z).voiceGain) ∨
      ∃ d, (s.zone z).kind = .desc ∧ s.descOf z = some d ∧ voice = s.descs[d].voiceGain)
    (hb : ((s.zone z).kind ≠ .loop ∧ base = (s.zone z).trim) ∨
      ∃ l, (s.zone z).kind = .loop ∧ s.loopOf z = some l ∧ base = comp (s.zone z).trim s.loops[l].start.agc) :
    (enableZone z s).zone z = { s.zone z with
      enabled := true, side := .primary, protection := (enableZone z s).protectionOf z
      idleDeadline := (s.zone z).startDeadline s.now, duckGain := 16384, voiceGain := voice, fresh := true
      outputGain := ((enableZone z s).protectionOf z).gain base (s.zone z).reduceGain } := by
  rw [enableZone_zone, enable_zone hv hb, enableZone_protectionOf]

theorem enableZone_loops {l : ParamId} (k : (s.zone z).kind = .loop) (bound : s.loopOf z = some l) :
    (enableZone z s).loops = s.loops.set l s.loops[l].start := by
  obtain ⟨_, _, _, eq⟩ := enableZone_frame z s
  rw [eq, ← enable_loops k bound]

theorem enableZone_descs {d : ParamId} (k : (s.zone z).kind = .desc) (bound : s.descOf z = some d) :
    (enableZone z s).descs = s.descs.set d s.descs[d].start := by
  obtain ⟨_, _, _, eq⟩ := enableZone_frame z s
  rw [eq, ← enable_descs k bound]

theorem enableGains_endpoint (e : EndpointId) (z : ZoneId) (s : State) :
    ((enableGains z (enableStart z s)).endpoint e).still = (s.endpoint e).still := by
  obtain ⟨_, _, started, -⟩ := enableStart_eq z s
  obtain ⟨zs, gains⟩ := enableGains_eq z (enableStart z s)
  have still := still_endpoint (deriveProtection_still (enableStart z s) z) e
  rw [gains]
  refine Eq.trans ?_ (still.trans (by rw [started]; rfl))
  generalize deriveProtection z (enableStart z s) = d
  rfl

theorem enableZone_endpoint (e : EndpointId) (z : ZoneId) (s : State) :
    ((enableZone z s).endpoint e).still = (s.endpoint e).still := by
  rw [enableZone_eq]
  exact (still_endpoint (recommandZone_still _ z) e).trans (enableGains_endpoint e z s)

theorem enableZone_commanded {e : EndpointId} (named : (s.zone z).primary = some e ∨ (s.zone z).standby = some e)
    (used : (s.endpoint e).inUse = true) : ((enableZone z s).endpoint e).commanded = (enableZone z s).commandedPower e := by
  obtain ⟨-, primary, standby⟩ := enableZone_named z s
  rw [enableZone_zone] at primary standby
  rw [← primary, ← standby] at named
  have still := enableGains_endpoint e z s
  rw [enableZone_eq]
  generalize enableGains z (enableStart z s) = g at named still
  exact recommandZone_commanded named ((congrArg Endpoint.inUse still :).trans used)

theorem enableZone_shares (z : ZoneId) (s : State) : (enableZone z s).node = s.node ∧ (enableZone z s).replies = s.replies ∧
    (enableZone z s).service = s.service ∧ (enableZone z s).slotMap = s.slotMap := by
  obtain ⟨_, _, _, eq⟩ := enableZone_frame z s
  obtain ⟨_, _, started, -⟩ := enableStart_eq z s
  have still := deriveProtection_still (enableStart z s) z
  rw [eq]
  generalize deriveProtection z (enableStart z s) = d at still
  rw [started] at still
  obtain ⟨node, -, -, -, -, replies, -, -, -, -, -, -, service, -, -, -, -, -, slotMap, -⟩ := still_shares still
  exact ⟨node, replies, service, slotMap⟩

end

/-! ### Disable (R28) -/

section
variable {s : State} {z : ZoneId}

theorem disableZone_eq (z : ZoneId) (s : State) : ∃ ls es ds, disableZone z s =
      { s with zones := s.zones.set z { s.zone z with enabled := false, testMode := .none, suspended := false }
               loops := ls, endpoints := es, directives := ds } ∧
    (∀ l, s.loopOf z = some l → ls = s.loops.set l { s.loops[l] with candidate := none, accumulator := 0 }) := by
  obtain ⟨u, hu⟩ : ∃ u, u = modZone z (fun r => { r with enabled := false, testMode := .none, suspended := false }) s := ⟨_, rfl⟩
  obtain ⟨ls, ended, set⟩ := endCandidate_eq z u
  obtain ⟨es, ds, touched⟩ := recommandZone_eq z { u with loops := ls }
  refine ⟨ls, es, ds, ?_, fun l bound => ?_⟩
  · rw [disableZone, ← hu, ended, touched, hu]; rfl
  · exact (set l (by rw [hu]; exact bound)).trans (by rw [hu]; rfl)

theorem disableZone_endpoint (e : EndpointId) (z : ZoneId) (s : State) :
    ((disableZone z s).endpoint e).still = (s.endpoint e).still := by
  unfold disableZone
  exact (still_endpoint ((recommandZone_still _ z).trans (endCandidate_still _ z)) e).trans rfl

/-- The endpoints of a disabled zone are commanded OFF (Table 2-5). -/
theorem disableZone_commanded {e : EndpointId} (named : (s.zone z).primary = some e ∨ (s.zone z).standby = some e)
    (used : (s.endpoint e).inUse = true) (role : (s.endpoint e).role ≠ .usherLight) (place : (s.endpoint e).place = z) :
    ((disableZone z s).endpoint e).commanded = .off := by
  obtain ⟨u, hu⟩ : ∃ u, u = modZone z (fun r => { r with enabled := false, testMode := .none, suspended := false }) s := ⟨_, rfl⟩
  obtain ⟨ls, ended, -⟩ := endCandidate_eq z u
  have zone : (u.zone z) = { s.zone z with enabled := false, testMode := .none, suspended := false } := by
    rw [hu, modZone_zone, if_pos rfl]
  have off : ({ u with loops := ls } : State).commandedPower e = .off := by
    have role' : (u.endpoint e).role ≠ .usherLight := by rw [hu]; exact role
    have disabled : (u.zone (u.endpoint e).place).enabled = false := by
      have same : (u.endpoint e).place = z := by rw [hu]; exact place
      rw [same, zone]
    show u.commandedPower e = .off
    unfold State.commandedPower
    split
    · rfl
    · simp [disabled]
  rw [disableZone, ← hu, ended, recommandZone_commanded (s := { u with loops := ls }), recommandZone_commandedPower, off]
  · show (u.zone z).primary = some e ∨ (u.zone z).standby = some e
    rw [zone]; exact named
  · rw [hu]; exact used

end

end Sys2Proof.Machine
end

section
/-! The writes of a zone's assignment (R27, R28), as the statement of ZoneAssignmentWrites spells them. -/

namespace Sys2Proof.Machine

section
variable {s : State} {z : ZoneId} {d : List Byte}

/-! ### The checks of an assignment write -/

theorem zoneAssignment_wrongState (service : s.service = .service) (other : kindOf (byteAt d 1) ≠ some (s.zone z).kind) :
    zoneAssignment z d s = refuse .wrongState s := if_pos ⟨service, other⟩

theorem zoneAssignment_badField (sameKind : s.service = .service → kindOf (byteAt d 1) = some (s.zone z).kind)
    (bad : flagOf (byteAt d 0) = none ∨ kindOf (byteAt d 1) = none ∨ indexOf 32 (byteAt d 2).toNat = none) :
    zoneAssignment z d s = refuse .badValue s := by
  unfold zoneAssignment
  rw [if_neg fun h => h.2 (sameKind h.1)]
  rcases bad with bad | bad | bad
  · rw [bad]
  · rw [bad]
    cases flagOf (byteAt d 0) <;> rfl
  · rw [bad]
    cases flagOf (byteAt d 0) <;> cases kindOf (byteAt d 1) <;> rfl

theorem zoneAssignment_eq {enabled : Bool} {kind : ZoneKind} {bus : Fin 32}
    (sameKind : s.service = .service → kindOf (byteAt d 1) = some (s.zone z).kind)
    (flag : flagOf (byteAt d 0) = some enabled) (hk : kindOf (byteAt d 1) = some kind) (hb : bus.val = (byteAt d 2).toNat) :
    zoneAssignment z d s =
      if s.service = .service then assignInService z enabled bus s
      else if s.withinLimits z { s.zone z with enabled := enabled, kind := kind, bus := bus } then
        written false z.val (modZone z (fun _ => { s.zone z with enabled := enabled, kind := kind, bus := bus }) s)
      else refuse .limit s := by
  unfold zoneAssignment
  rw [if_neg fun h => h.2 (sameKind h.1), flag, hk, ← hb, indexOf_val]

variable {bus : Fin 32}

theorem assign_same {enabled : Bool} (h : enabled = (s.zone z).enabled) :
    assignInService z enabled bus s = written false z.val (modZone z (fun r => { r with bus := bus }) s) := if_pos h

theorem assign_disable (on : (s.zone z).enabled = true) : assignInService z false bus s =
    if (s.claimant z).isSome then refuse .busy s
    else written false z.val (relisten s (disableZone z (modZone z (fun r => { r with bus := bus }) s))) :=
  (if_neg (by simp [on])).trans (if_pos rfl)

theorem assign_enable (off : (s.zone z).enabled = false) : assignInService z true bus s =
    if s.zoneReady z = false then refuseBadConfig .zone z.val s
    else if s.withinLimits z { s.zone z with enabled := true, bus := bus } = false then refuse .limit s
    else written false z.val (relisten s (enableZone z (modZone z (fun r => { r with bus := bus }) s))) :=
  (if_neg (by simp [off])).trans (if_neg (by decide))

end

/-! ### What an enable and a disable do to LISTEN (R43) -/

section
variable {s t : State} {z : ZoneId} {e : EndpointId}

/-- A PRESENT endpoint of a zone that is heard in another slot than before is sent LISTEN. -/
theorem relisten_sends (service : t.service = .service) (entry : (t.endpoint e).still = (s.endpoint e).still)
    (present : (s.endpoint e).presence = .present) (zone : s.zoneOfEndpoint e = some z) (moved : s.listenSlot z ≠ t.listenSlot z) :
    { endpoint := e, code := .listen, dest := (s.endpoint e).node, value := optIndexByte (t.listenSlot z) } ∈
      (relisten s t).directives := by
  obtain ⟨-, sent, -⟩ := relisten_issues (before := s) service
  have zone' : t.zoneOfEndpoint e = some z := by
    have used := congrArg Endpoint.inUse entry
    have role := congrArg Endpoint.role entry
    have place := congrArg Endpoint.place entry
    simp only [Endpoint.still] at used role place
    rw [← zone]
    simp only [State.zoneOfEndpoint, used, role, place]
  have node : (t.endpoint e).node = (s.endpoint e).node := (congrArg Endpoint.node entry :)
  exact sent _ ⟨e, z, (congrArg Endpoint.presence entry :).trans present, zone', moved, by rw [node]⟩

theorem listenSlot_off (h : (s.zone z).enabled = false) : s.listenSlot z = none := if_neg (by simp [h])

end

section
variable {s : State} {src : Node} {req : Byte} {w : TableWrite} {z : ZoneId}

theorem exec_zoneAssignment (ready : s.commandReady (.zoneWrite src req w) src) (second : w.second = false)
    (hz : z.val = w.index.toNat) (group : w.group = 0) :
    exec (.zoneWrite src req w) s = .next (placeReply src 0x88 req (zoneAssignment z w.data (leaveCommand s))) := by
  rw [exec_zoneWrite ready second hz, group]; rfl

/-- A disable with its new bus, and LISTEN after it. -/
theorem disable_effects (z : ZoneId) (bus : Fin 32) (s : State) :
    ∃ t, relisten s (disableZone z (modZone z (fun r => { r with bus := bus }) s)) = t ∧ t.node = s.node ∧ t.replies = s.replies ∧
      t.zones = s.zones.set z { s.zone z with enabled := false, bus := bus, testMode := .none, suspended := false } ∧
      (∀ l, s.loopOf z = some l → t.loops = s.loops.set l { s.loops[l] with candidate := none, accumulator := 0 }) ∧
      (∀ e, (s.zone z).primary = some e ∨ (s.zone z).standby = some e → (s.endpoint e).inUse = true →
        (s.endpoint e).role ≠ .usherLight → (s.endpoint e).place = z → (t.endpoint e).commanded = .off) ∧
      (s.service = .service → ∀ e, (s.endpoint e).presence = .present → s.zoneOfEndpoint e = some z → s.listenSlot z ≠ none →
        { endpoint := e, code := .listen, dest := (s.endpoint e).node, value := 0xFF } ∈ t.directives) ∧
      t.calls = s.calls ∧ t.faults = s.faults := by
  obtain ⟨v, hv⟩ : ∃ v, v = modZone z (fun r => { r with bus := bus }) s := ⟨_, rfl⟩
  have record : v.zone z = { s.zone z with bus := bus } := by rw [hv, modZone_zone, if_pos rfl]
  obtain ⟨ls, es, ds, off, ended⟩ := disableZone_eq z v
  have commanded := fun e => disableZone_commanded (s := v) (z := z) (e := e)
  have entry := fun e => disableZone_endpoint e z v
  have silent : (disableZone z v).listenSlot z = none := by
    refine listenSlot_off ?_
    have zone : (disableZone z v).zone z = { v.zone z with enabled := false, testMode := .none, suspended := false } := by
      rw [off]; exact (vector_set_get v.zones z z _).trans (if_pos rfl)
    rw [zone]
  have sent : s.service = .service → ∀ e, (s.endpoint e).presence = .present → s.zoneOfEndpoint e = some z → s.listenSlot z ≠ none →
      { endpoint := e, code := .listen, dest := (s.endpoint e).node, value := 0xFF } ∈ (relisten s (disableZone z v)).directives := by
    intro serving e present zone heard
    have directive := relisten_sends (s := s) (t := disableZone z v) (by rw [off, hv]; exact serving)
      ((entry e).trans (by rw [hv]; rfl)) present zone (by rwa [silent])
    rwa [silent] at directive
  refine ⟨relisten s (disableZone z v), by rw [hv], ?_, ?_, ?_, fun l bound => ?_, fun e named used role place => ?_, sent, ?_, ?_⟩
  · rw [relisten_eq, off, hv]; rfl
  · rw [relisten_eq, off, hv]; rfl
  · rw [relisten_eq, off]
    show v.zones.set z { v.zone z with enabled := false, testMode := .none, suspended := false } = _
    rw [record, hv, modZone_zones, Vector.set_set]
  · rw [relisten_eq, off]
    exact (ended l (by rw [hv]; exact bound)).trans (by rw [hv]; rfl)
  · rw [relisten_eq]
    exact commanded e (by rw [record]; exact named) (by rw [hv]; exact used) (by rw [hv]; exact role) (by rw [hv]; exact place)
  · rw [relisten_eq, off, hv]; rfl
  · rw [relisten_eq, off, hv]; rfl

/-- An enable with its new bus, and LISTEN after it. -/
theorem enable_effects (z : ZoneId) (bus : Fin 32) (s : State) (off : (s.zone z).enabled = false) :
    ∃ t, relisten s (enableZone z (modZone z (fun r => { r with bus := bus }) s)) = t ∧ t.node = s.node ∧ t.replies = s.replies ∧
      (∀ voice base, ((s.zone z).kind ≠ .desc ∧ voice = (s.zone z).voiceGain ∨
          ∃ d, (s.zone z).kind = .desc ∧ s.descOf z = some d ∧ voice = s.descs[d].voiceGain) →
        ((s.zone z).kind ≠ .loop ∧ base = (s.zone z).trim ∨ ∃ l, (s.zone z).kind = .loop ∧ s.loopOf z = some l ∧
          base = comp (s.zone z).trim s.loops[l].start.agc) →
        t.zone z = { s.zone z with
          enabled := true, bus := bus, side := .primary, protection := t.protectionOf z
          idleDeadline := (s.zone z).startDeadline s.now, duckGain := 16384, voiceGain := voice, fresh := true
          outputGain := (t.protectionOf z).gain base (s.zone z).reduceGain }) ∧
      (∀ l, (s.zone z).kind = .loop → s.loopOf z = some l → t.loops = s.loops.set l s.loops[l].start) ∧
      (∀ d, (s.zone z).kind = .desc → s.descOf z = some d → t.descs = s.descs.set d s.descs[d].start) ∧
      (∀ e, (s.zone z).primary = some e ∨ (s.zone z).standby = some e → (s.endpoint e).inUse = true →
        (t.endpoint e).commanded = t.commandedPower e) ∧
      (s.service = .service → ∀ e, (s.endpoint e).presence = .present → s.zoneOfEndpoint e = some z → t.listenSlot z ≠ none →
        { endpoint := e, code := .listen, dest := (s.endpoint e).node, value := optIndexByte (t.listenSlot z) } ∈ t.directives) ∧
      (∀ y, y ≠ z → (t.zone y).settings = (s.zone y).settings) ∧ t.faults = s.faults := by
  obtain ⟨v, hv⟩ : ∃ v, v = modZone z (fun r => { r with bus := bus }) s := ⟨_, rfl⟩
  have record : v.zone z = { s.zone z with bus := bus } := by rw [hv, modZone_zone, if_pos rfl]
  have bound : v.loopOf z = s.loopOf z ∧ v.descOf z = s.descOf z := by rw [hv]; exact ⟨rfl, rfl⟩
  have records : v.loops = s.loops ∧ v.descs = s.descs := by rw [hv]; exact ⟨rfl, rfl⟩
  obtain ⟨node, replies, service, -⟩ := enableZone_shares z v
  have sent := fun e => relisten_sends (s := s) (t := enableZone z v) (z := z) (e := e)
  have entry := fun e => enableZone_endpoint e z v
  have commanded := fun e => enableZone_commanded (s := v) (z := z) (e := e)
  have started : ∀ l, (s.zone z).kind = .loop → s.loopOf z = some l → (enableZone z v).loops = s.loops.set l s.loops[l].start := by
    intro l k b
    rw [enableZone_loops (l := l) (by rw [record]; exact k) (bound.1.trans b), records.1]
  have startedDesc : ∀ d, (s.zone z).kind = .desc → s.descOf z = some d →
      (enableZone z v).descs = s.descs.set d s.descs[d].start := by
    intro d k b
    rw [enableZone_descs (d := d) (by rw [record]; exact k) (bound.2.trans b), records.2]
  have faults := enableZone_faults z v
  have others : ∀ y, y ≠ z → ((enableZone z v).zone y).settings = (s.zone y).settings := by
    intro y ne
    rw [enableZone_other ne, hv, modZone_zone, if_neg ne]
  have zone := fun voice base => enableZone_record (s := v) (z := z) (voice := voice) (base := base)
  rw [record, bound.1, bound.2, records.1, records.2, show v.now = s.now by rw [hv]; rfl] at zone
  rw [record, show v.endpoint = s.endpoint by rw [hv]; rfl] at commanded
  rw [show v.node = s.node by rw [hv]; rfl] at node
  rw [show v.replies = s.replies by rw [hv]; rfl] at replies
  rw [show v.service = s.service by rw [hv]; rfl] at service
  rw [show v.faults = s.faults by rw [hv]; rfl] at faults
  rw [show v.endpoint = s.endpoint by rw [hv]; rfl] at entry
  have silent := listenSlot_off off
  rw [← hv]
  generalize enableZone z v = t at *
  refine ⟨relisten s t, rfl, ?_, ?_, fun voice base hvoice hbase => ?_, fun l k b => ?_, fun d k b => ?_, fun e named used => ?_,
    fun serving e present zone' heard => ?_, fun y ne => ?_, ?_⟩
  · rw [relisten_eq]; exact node
  · rw [relisten_eq]; exact replies
  · rw [relisten_eq]; exact zone voice base hvoice hbase
  · rw [relisten_eq]; exact started l k b
  · rw [relisten_eq]; exact startedDesc d k b
  · rw [relisten_eq]; exact commanded e named used
  · have same : (relisten s t).listenSlot = t.listenSlot := by rw [relisten_eq]; rfl
    rw [same] at heard ⊢
    exact sent e (service.trans serving) (entry e) present zone' (by rw [silent]; exact heard.symm)
  · rw [relisten_eq]; exact others y ne
  · rw [relisten_eq]; exact faults

/-- Settles O49: the two forms of an assignment write, and in SERVICE the disable and the enable it can make. -/
theorem zoneAssignmentWrites : Obligations.ZoneAssignmentWrites := by
  intro src req w s z ready second hz group
  rw [exec_zoneAssignment ready second hz group]
  obtain ⟨hold, flag, left⟩ := leaveCommand_eq s
  refine ⟨fun serving other => ?_, fun config unnamed => ?_, fun kind hk form => ⟨fun bad => ?_, fun enabled bus new hf hb hn => ?_⟩⟩
  · rw [zoneAssignment_wrongState ((leaveCommand_service s).trans serving) (by rwa [leaveCommand_zone]), placeReply_refuse]
  · rw [zoneAssignment_badField (fun serving => by simp [config] at serving) (.inr (.inl unnamed)), placeReply_refuse]
  all_goals
    have sameKind : (leaveCommand s).service = .service → kindOf (byteAt w.data 1) = some ((leaveCommand s).zone z).kind := by
      intro serving
      rw [leaveCommand_zone, hk]
      exact congrArg some (form.resolve_left fun config => by simp [config] at serving)
  · have field : flagOf (byteAt w.data 0) = none ∨ kindOf (byteAt w.data 1) = none ∨ indexOf 32 (byteAt w.data 2).toNat = none :=
      bad.imp flagOf_eq_none fun b => .inr (indexOf_none b)
    rw [zoneAssignment_badField sameKind field, placeReply_refuse]
  rw [zoneAssignment_eq sameKind hf hk hb, leaveCommand_zone, ← hn]
  have limits : (leaveCommand s).withinLimits z new = true ↔ { s with zones := s.zones.set z new }.KindLimits := by
    rw [withinLimits_iff, left]; rfl
  refine ⟨fun config => ?_, fun serving => ?_⟩
  · rw [if_neg (by simp [config])]
    refine ⟨fun within => ?_, fun beyond => ?_⟩
    · rw [if_pos (limits.mpr within), placeReply_written (s := s) _ _ _ (by simp) (by simp), State.answered, left]
      rfl
    · rw [if_neg (mt limits.mp beyond), placeReply_refuse]
  · have same : kind = (s.zone z).kind := form.resolve_left fun config => by simp [config] at serving
    subst same
    rw [if_pos ((leaveCommand_service s).trans serving)]
    refine ⟨fun asIs => ?_, fun dis on claimed => ?_, fun dis on free => ?_, fun en off => ⟨fun bad => ?_, fun ok beyond => ?_, fun ok within => ?_⟩⟩
    · rw [assign_same (by rwa [leaveCommand_zone]), placeReply_written (s := s) _ _ _ (by simp) (by simp), State.answered, left]
      rfl
    · subst dis
      have claimant : (leaveCommand s).claimant z = s.claimant z := by rw [left]; rfl
      rw [assign_disable (by rw [leaveCommand_zone]; exact on), claimant, if_pos claimed, placeReply_refuse]
    · subst dis
      obtain ⟨t, eq, node, replies, facts⟩ := disable_effects z bus (leaveCommand s)
      have claimant : (leaveCommand s).claimant z = none := by rw [left]; exact free
      rw [assign_disable (by rw [leaveCommand_zone]; exact on), claimant, if_neg (by decide), eq,
        placeReply_written (s := s) _ _ _ (replies.trans (by simp)) (node.trans (by simp))]
      rw [left] at facts
      obtain ⟨zones, loops, commanded, sent, calls, faults⟩ := facts
      exact ⟨_, rfl, rfl, zones, loops, commanded, sent serving, calls, faults⟩
    all_goals
      subst en
      have ready : (leaveCommand s).zoneReady z = s.zoneReady z := by rw [left]; rfl
      rw [assign_enable (by rw [leaveCommand_zone]; exact off), ready, leaveCommand_zone]
    · rw [if_pos bad]
      exact congrArg Host.Outcome.next (placeReply_leave 0x88 .badConfig _)
    · have refused : (leaveCommand s).withinLimits z new = false := Bool.eq_false_iff.mpr (mt limits.mp beyond)
      rw [if_neg (by simp [ok]), if_pos (hn ▸ refused), placeReply_refuse]
    · obtain ⟨t, eq, node, replies, facts⟩ := enable_effects z bus (leaveCommand s) (by rw [leaveCommand_zone]; exact off)
      have passed : ¬ (leaveCommand s).withinLimits z new = false := by rw [limits.mpr within]; decide
      rw [if_neg (by simp [ok]), if_neg (hn ▸ passed), eq,
        placeReply_written (s := s) _ _ _ (replies.trans (by simp)) (node.trans (by simp))]
      rw [left] at facts
      obtain ⟨zone, loops, descs, commanded, sent, others, faults⟩ := facts
      refine ⟨_, rfl, rfl, fun voice base hvoice hbase => ?_, loops, descs, commanded, sent serving, others, faults⟩
      have record := zone voice base hvoice hbase
      rw [← startDeadline_eq]
      exact record

end

end Sys2Proof.Machine
end

section
/-! The start of SERVICE at COMMIT (R25, R33, R53, R71, R84, R103, R118, R154, R155). -/

namespace Sys2Proof.Machine

section
variable {s : State}

/-! ### The checks of COMMIT (R154) -/

theorem commitFailure_none (zones : ∀ z, (s.zone z).enabled = true → s.zoneReady z = true)
    (endpoints : ∀ e : EndpointId, (s.endpoint e).inUse = true → (s.endpoint e).role ≠ .usherLight → s.endpointListed e = true)
    (gates : ∀ g : GateId, s.admissionMaskOk (s.gate g).mask = true) : s.commitFailure = none := by
  have zone : allZones.find? (fun z => (s.zone z).enabled && !s.zoneReady z) = none := by
    rw [List.find?_eq_none]
    intro z _ bad
    simp only [Bool.and_eq_true, Bool.not_eq_true'] at bad
    exact absurd (zones z bad.1) (by simp [bad.2])
  have endpoint : allEndpoints.find? (fun e =>
      (s.endpoint e).inUse && (s.endpoint e).role != .usherLight && !s.endpointListed e) = none := by
    rw [List.find?_eq_none]
    intro e _ bad
    simp only [Bool.and_eq_true, Bool.not_eq_true', bne_iff_ne] at bad
    exact absurd (endpoints e bad.1.1 bad.1.2) (by simp [bad.2])
  have gate : [0, 1].find? (fun g : GateId => !s.admissionMaskOk (s.gate g).mask) = none := by
    rw [List.find?_eq_none]
    intro g _ bad
    simp [gates g] at bad
  unfold State.commitFailure
  rw [zone, endpoint, gate]
  rfl

/-! ### The gains of several zones set (R14) -/

/-- A zone record with its gains at their targets, held for the first block. -/
def State.withGains (s : State) (z : ZoneId) : Zone :=
  { s.zone z with
    duckGain := 16384, outputGain := s.outputTarget z, fresh := true
    voiceGain := if (s.zone z).kind = .desc then s.voiceTarget z none else (s.zone z).voiceGain }

theorem setGains_zone (z y : ZoneId) (s : State) : (setGains z s).zone y = if y = z then s.withGains z else s.zone y :=
  modZone_zone s z y _

/-- The gains of a zone do not depend on the records of other zones. -/
theorem withGains_congr {zs : Vector Zone 32} {z : ZoneId} (h : zs[z] = s.zone z) :
    ({ s with zones := zs } : State).withGains z = s.withGains z := by
  have zone : ({ s with zones := zs } : State).zone z = s.zone z := h
  have loop : ({ s with zones := zs } : State).servingLoop z = s.servingLoop z := by
    unfold State.servingLoop; rw [zone]; rfl
  have desc : ({ s with zones := zs } : State).servingDesc z = s.servingDesc z := by
    unfold State.servingDesc; rw [zone]; rfl
  simp only [State.withGains, State.outputTarget, State.outputBase, State.voiceTarget, zone, loop, desc]

theorem forEach_setGains (l : List ZoneId) (distinct : l.Nodup) (s : State) : ∃ zs, forEach l setGains s = { s with zones := zs } ∧
    ∀ y, zs[y] = if y ∈ l then s.withGains y else s.zone y := by
  induction l generalizing s with
  | nil => exact ⟨s.zones, rfl, fun y => rfl⟩
  | cons z l ih =>
    obtain ⟨new, rest⟩ := List.nodup_cons.mp distinct
    obtain ⟨zs, eq, zone⟩ := ih rest (setGains z s)
    refine ⟨zs, by rw [forEach_cons, eq]; rfl, fun y => ?_⟩
    rw [zone y, setGains_zone]
    by_cases first : y = z
    · subst first
      rw [if_neg new, if_pos rfl, if_pos List.mem_cons_self]
    · have same : (setGains z s).withGains y = s.withGains y := withGains_congr ((setGains_zone z y s).trans (if_neg first))
      simp only [List.mem_cons, first, false_or, same, if_false]

/-! ### The state before the gains -/

/-- What COMMIT does to every block before it sets gains and commanded states. -/
def startBlocks (s : State) : State :=
  { withFaults {} s with
    zones := vmap (Zone.atCommit s.now) s.zones
    loops := vmap (fun l => if l.zone.isSome then l.start else l) s.loops
    descs := vmap (fun d => if d.zone.isSome then d.start else d) s.descs
    endpoints := vmap Endpoint.atCommit s.endpoints
    gates := vmap Gate.atRest s.gates
    calls := Vector.replicate 16 {}
    arrivalCounter := 0
    startCounter := 0
    service := .service }

theorem startService_eq (s : State) :
    startService s = setCommanded (forEach (allZones.filter fun z => ((startBlocks s).zone z).enabled) setGains (startBlocks s)) := rfl

theorem startBlocks_zone (z : ZoneId) (s : State) : (startBlocks s).zone z = (s.zone z).atCommit s.now := vmap_get _ _ _

theorem startBlocks_loop (l : ParamId) (s : State) :
    (startBlocks s).loops[l] = if s.loops[l].zone.isSome then s.loops[l].start else s.loops[l] := vmap_get _ _ _

theorem startBlocks_desc (d : ParamId) (s : State) :
    (startBlocks s).descs[d] = if s.descs[d].zone.isSome then s.descs[d].start else s.descs[d] := vmap_get _ _ _

theorem startBlocks_loopOf (s : State) : (startBlocks s).loopOf = s.loopOf :=
  loopOf_congr fun l => by rw [startBlocks_loop]; split <;> rfl

theorem startBlocks_descOf (s : State) : (startBlocks s).descOf = s.descOf :=
  descOf_congr fun d => by rw [startBlocks_desc]; split <;> rfl

theorem startBlocks_outputBase_of_other {z : ZoneId} (k : (s.zone z).kind ≠ .loop) :
    (startBlocks s).outputBase z = (s.zone z).trim := by
  have kind : ((startBlocks s).zone z).kind ≠ .loop := by rw [startBlocks_zone]; exact k
  rw [outputBase_of_other (servingLoop_of_other kind), startBlocks_zone]; rfl

theorem startBlocks_outputBase_of_loop {z : ZoneId} {l : ParamId} (k : (s.zone z).kind = .loop) (bound : s.loopOf z = some l) :
    (startBlocks s).outputBase z = comp (s.zone z).trim s.loops[l].start.agc := by
  have kind : ((startBlocks s).zone z).kind = .loop := by rw [startBlocks_zone]; exact k
  have started : (startBlocks s).loops[l] = s.loops[l].start := by
    rw [startBlocks_loop, if_pos (by rw [loopOf_some bound]; rfl)]
  rw [outputBase_of_loop (servingLoop_of_loop kind (by rw [startBlocks_loopOf]; exact bound)), started, startBlocks_zone]; rfl

theorem startBlocks_voice {z : ZoneId} {d : ParamId} (k : (s.zone z).kind = .desc) (bound : s.descOf z = some d) :
    (startBlocks s).voiceTarget z none = s.descs[d].voiceGain := by
  have kind : ((startBlocks s).zone z).kind = .desc := by rw [startBlocks_zone]; exact k
  have started : (startBlocks s).descs[d] = s.descs[d].start := by
    rw [startBlocks_desc, if_pos (by rw [descOf_some bound]; rfl)]
  rw [voiceTarget_of_desc (servingDesc_of_desc kind (by rw [startBlocks_descOf]; exact bound)), if_pos rfl, started]; rfl

theorem startBlocks_outputTarget (z : ZoneId) (s : State) : (startBlocks s).outputTarget z = (startBlocks s).outputBase z := by
  rw [outputTarget_eq, startBlocks_zone]; rfl

/-- The record of an enabled zone at the start of SERVICE. -/
theorem startBlocks_withGains (z : ZoneId) (s : State) : (startBlocks s).withGains z = { (s.zone z).atCommit s.now with
    duckGain := 16384, outputGain := (startBlocks s).outputBase z, fresh := true
    voiceGain := if (s.zone z).kind = .desc then (startBlocks s).voiceTarget z none else (s.zone z).voiceGain } := by
  unfold State.withGains
  rw [startBlocks_outputTarget, startBlocks_zone]
  rfl

theorem startBlocks_alert (s : State) : (startBlocks s).alert = false := by
  have quiet : State.reset.alert = State.reset.faults.anyActionable := reset_alertTrue
  rw [show State.reset.faults = {} from rfl, show State.reset.alert = false from rfl] at quiet
  unfold startBlocks
  rw [withFaults_alert, ← quiet]

/-! ### Commanded states (R33) -/

theorem setCommanded_eq (s : State) : ∃ es, setCommanded s = { s with endpoints := es } ∧
    ∀ e, es[e] = if (s.endpoint e).inUse then { s.endpoint e with commanded := s.commandedPower e } else s.endpoint e := by
  refine ⟨_, rfl, fun e => ?_⟩
  rw [vmap_get]
  simp

theorem setCommanded_commandedPower (e : EndpointId) (s : State) : (setCommanded s).commandedPower e = s.commandedPower e := by
  obtain ⟨es, eq, entry⟩ := setCommanded_eq s
  have kept : (es[e]).role = (s.endpoint e).role ∧ (es[e]).place = (s.endpoint e).place := by
    rw [entry]; split <;> exact ⟨rfl, rfl⟩
  rw [eq]
  exact commandedPower_congr kept.1 kept.2 rfl rfl rfl rfl

/-- The state at the start of SERVICE. -/
theorem startService_spec (s : State) : ∃ zs es, startService s = { startBlocks s with zones := zs, endpoints := es } ∧
    (∀ z, zs[z] = if (s.zone z).enabled then (startBlocks s).withGains z else (s.zone z).atCommit s.now) ∧
    (∀ e, es[e] = { (s.endpoint e).atCommit with
      commanded := if (s.endpoint e).inUse then (startService s).commandedPower e else .off }) := by
  have distinct : (allZones.filter fun z => ((startBlocks s).zone z).enabled).Nodup := (List.nodup_finRange 32).filter _
  obtain ⟨zs, gains, zone⟩ := forEach_setGains _ distinct (startBlocks s)
  obtain ⟨es, commanded, endpoint⟩ := setCommanded_eq { startBlocks s with zones := zs }
  have power : ∀ e, (startService s).commandedPower e = ({ startBlocks s with zones := zs } : State).commandedPower e := by
    intro e
    rw [startService_eq, setCommanded_commandedPower, gains]
  refine ⟨zs, es, ?_, fun z => ?_, fun e => ?_⟩
  · rw [startService_eq, gains, commanded]
  · rw [zone z, startBlocks_zone]
    have member : z ∈ (allZones.filter fun z => ((startBlocks s).zone z).enabled) ↔ (s.zone z).enabled = true := by
      rw [List.mem_filter, startBlocks_zone]
      exact ⟨fun h => h.2, fun h => ⟨List.mem_finRange z, h⟩⟩
    simp only [member]
  · have entry : ({ startBlocks s with zones := zs } : State).endpoint e = (s.endpoint e).atCommit := vmap_get _ _ _
    rw [endpoint e, power e, entry]
    show (if (s.endpoint e).inUse then _ else _) = _
    split <;> rfl

end

/-- Settles O34: the checks pass, and the start of SERVICE is read off field by field. -/
theorem commitStartsTheServices : Obligations.CommitStartsTheServices := by
  intro src req s ready config zones endpoints gates
  obtain ⟨hold, flag, left⟩ := leaveCommand_eq s
  have passes : (leaveCommand s).commitFailure = none := by
    rw [left]; exact commitFailure_none (s := s) zones endpoints gates
  have body : commitBody (leaveCommand s) = (startService (leaveCommand s), .normal .ok []) := by
    unfold commitBody
    rw [if_neg (by rw [leaveCommand_service, config]; decide), passes]
  obtain ⟨zs, es, eq, zone, endpoint⟩ := startService_spec (leaveCommand s)
  have run : exec (.commit src req) s = .next { startService (leaveCommand s) with
      replies := s.replies ++ [s.reply src 0x01 req .ok []] } := by
    refine congrArg Host.Outcome.next ((takeCommand_ready ready).trans ?_)
    rw [body, placeReply_normal, reply_node (s := s) (by rw [eq, left]; rfl)]
    rw [show (startService (leaveCommand s)).replies = s.replies by rw [eq, left]; rfl]
    rfl
  have record : ∀ z, zs[z] = if (s.zone z).enabled then (startBlocks (leaveCommand s)).withGains z else (s.zone z).atCommit s.now := by
    intro z
    rw [zone z, leaveCommand_zone, left]
  have loopRecord := fun l => startBlocks_loop l (leaveCommand s)
  have descRecord := fun d => startBlocks_desc d (leaveCommand s)
  rw [run]
  have power : ∀ (u : State) (rs : List Record) e, ({ u with replies := rs } : State).commandedPower e = u.commandedPower e :=
    fun u rs e => commandedPower_congr rfl rfl rfl rfl rfl rfl
  generalize startService (leaveCommand s) = t at eq endpoint
  refine ⟨_, rfl, ?_, rfl, ?_, ?_, fun c => ?_, ?_, ?_, fun z => ?_, fun e => ?_, fun l bound => ?_, fun d bound => ?_, fun i => ?_,
    fun g => ?_, ?_⟩
  · rw [eq]; rfl
  · rw [eq]; rfl
  · have alert : t.alert = (startBlocks (leaveCommand s)).alert := by rw [eq]
    exact alert.trans (startBlocks_alert _)
  · rw [eq]
    show (Vector.replicate 16 ({} : Call))[c].state = .free
    simp
  · rw [eq]; rfl
  · rw [eq]; rfl
  · have entry : ({ t with replies := s.replies ++ [s.reply src 0x01 req .ok []] } : State).zone z = zs[z] := by rw [eq]; rfl
    rw [entry, record z, ← startDeadline_eq]
    by_cases on : (s.zone z).enabled = true
    · rw [if_pos on, startBlocks_withGains, leaveCommand_zone, leaveCommand_now]
      refine ⟨rfl, rfl, rfl, rfl, fun _ => ⟨rfl, rfl, fun other => if_neg other, fun other => ?_, fun l k bound => ?_,
        fun d k bound => ?_⟩, fun off => absurd on (by simp [off]), rfl, rfl⟩
      · exact (startBlocks_outputBase_of_other (by rwa [leaveCommand_zone])).trans (by rw [leaveCommand_zone])
      · have base := startBlocks_outputBase_of_loop (s := leaveCommand s) (by rwa [leaveCommand_zone])
          ((leaveCommand_loopOf s z).trans bound)
        rw [leaveCommand_zone, leaveCommand_loops] at base
        exact base
      · have voice := startBlocks_voice (s := leaveCommand s) (by rwa [leaveCommand_zone]) ((leaveCommand_descOf s z).trans bound)
        rw [leaveCommand_descs] at voice
        exact (if_pos k).trans voice
    · rw [if_neg on]
      exact ⟨rfl, rfl, rfl, rfl, fun h => absurd h on, fun _ => ⟨rfl, rfl, rfl, rfl⟩, rfl, rfl⟩
  · have entry : ({ t with replies := s.replies ++ [s.reply src 0x01 req .ok []] } : State).endpoint e = es[e] := by rw [eq]; rfl
    rw [power, entry, endpoint e, show (leaveCommand s).endpoint e = s.endpoint e by rw [left]; rfl]
    split <;> rfl
  · rw [eq]
    refine (loopRecord l).trans ?_
    rw [left, if_pos bound]; rfl
  · rw [eq]
    refine (descRecord d).trans ?_
    rw [left, if_pos bound]; rfl
  · refine ⟨fun free => ?_, fun free => ?_⟩
    · rw [eq]
      refine (loopRecord i).trans ?_
      rw [left, if_neg (by rw [free]; decide)]
    · rw [eq]
      refine (descRecord i).trans ?_
      rw [left, if_neg (by rw [free]; decide)]
  · rw [eq, left]
    exact vmap_get _ _ _
  · rw [eq, left]; rfl

end Sys2Proof.Machine
end

section
/-! What the millisecond event and the steps after the mix event can do to the outbound queues (R133, R141, R142): directives keep their
places or join, events join the tail, and what the link itself holds stays. -/

namespace Sys2Proof.Machine

/-- What the link holds and the return frame is built from, beside the event queue. -/
structure LinkView where
  node : Node
  now : Nat
  frameCounter : BitVec 16
  portB : PortState
  service : Service
  replies : List Record
  holdFlag : Option HoldMark
  txA : Option RetFrame

/-- The link's part of a state. -/
def State.link (s : State) : LinkView where
  node := s.node
  now := s.now
  frameCounter := s.frameCounter
  portB := s.portB
  service := s.service
  replies := s.replies
  holdFlag := s.holdFlag
  txA := s.txA

/-- From `s` to `t` the link stays as it is, waiting directives keep their places, none is issued in CONFIGURATION, events only join,
and CONSOLE_LINK_LOST is not observed. -/
structure Evolves (s t : State) : Prop where
  link : t.link = s.link
  keys : s.directives.map Directive.key <+: t.directives.map Directive.key
  idle : s.service = .configuration → t.directives = s.directives
  events : ∃ late, t.events = s.events ++ late
  console : (t.fault consoleLinkLostRef).lastPresent = (s.fault consoleLinkLostRef).lastPresent

namespace Evolves
variable {s t u : State}

theorem of_same (link : t.link = s.link) (directives : t.directives = s.directives) (events : t.events = s.events)
    (faults : t.faults = s.faults) : Evolves s t where
  link := link
  keys := by rw [directives]
  idle := fun _ => directives
  events := ⟨[], by rw [events, List.append_nil]⟩
  console := by simp only [State.fault, faults]

theorem refl (s : State) : Evolves s s := of_same rfl rfl rfl rfl

theorem service (h : Evolves s t) : t.service = s.service := congrArg LinkView.service h.link

theorem trans (h : Evolves s t) (g : Evolves t u) : Evolves s u where
  link := g.link.trans h.link
  keys := h.keys.trans g.keys
  idle := fun config => (g.idle (h.service.trans config)).trans (h.idle config)
  events := by
    obtain ⟨late, eq⟩ := h.events
    obtain ⟨later, eq'⟩ := g.events
    exact ⟨late ++ later, by rw [eq', eq, List.append_assoc]⟩
  console := g.console.trans h.console

theorem forEach {α : Type} {f : α → State → State} (h : ∀ a s, Evolves s (f a s)) (l : List α) (s : State) :
    Evolves s (forEach l f s) :=
  forEach_invariant (P := Evolves s) s (fun a _ g => g.trans (h a _)) l (refl s)

theorem whenSome {α : Type} {f : α → State → State} (h : ∀ a s, Evolves s (f a s)) (o : Option α) (s : State) :
    Evolves s (whenSome o f s) := by
  cases o with
  | none => exact refl s
  | some a => exact h a s

theorem ite {p : Prop} [Decidable p] (h : Evolves s t) (g : Evolves s u) : Evolves s (if p then t else u) := by
  split
  · exact h
  · exact g

end Evolves

/-! ### Queues (R141, R142) -/

section
variable (s : State)

theorem pushEvent_evolves (n : Node) (code : Byte) (p : List Byte) : Evolves s (pushEvent n code p s) := by
  rcases pushEvent_cases n code p s with ⟨-, -, eq⟩ | ⟨-, eq⟩
  · rw [eq]
    exact ⟨rfl, List.prefix_refl _, fun _ => rfl, ⟨_, rfl⟩, rfl⟩
  · rw [eq]; exact .refl s

theorem queueDirective_evolves (e : EndpointId) (k : DirectiveCode) (v : Byte) (service : s.service = .service) :
    Evolves s (queueDirective e k v s) :=
  ⟨rfl, joinDirective_keys _ _, fun config => by simp [service] at config, ⟨[], (List.append_nil _).symm⟩, rfl⟩

theorem issue_evolves (e : EndpointId) (k : DirectiveCode) (v : Byte) : Evolves s (issue e k v s) := by
  rcases issue_cases e k v s with ⟨service, -, eq⟩ | ⟨-, eq⟩
  · rw [eq]; exact queueDirective_evolves s e k v service
  · rw [eq]; exact .refl s

theorem issueLights_evolves (g : GateId) (on : Bool) : Evolves s (issueLights g on s) :=
  .forEach (fun e u => .ite (issue_evolves u e _ _) (.refl u)) _ s

/-! ### Updates of one record -/

theorem modZone_evolves (z : ZoneId) (f : Zone → Zone) : Evolves s (modZone z f s) := .of_same rfl rfl rfl rfl
theorem modEndpoint_evolves (e : EndpointId) (f : Endpoint → Endpoint) : Evolves s (modEndpoint e f s) := .of_same rfl rfl rfl rfl
theorem modCall_evolves (c : CallId) (f : Call → Call) : Evolves s (modCall c f s) := .of_same rfl rfl rfl rfl
theorem modGate_evolves (g : GateId) (f : Gate → Gate) : Evolves s (modGate g f s) := .of_same rfl rfl rfl rfl
theorem modLoop_evolves (l : ParamId) (f : LoopRecord → LoopRecord) : Evolves s (modLoop l f s) := .of_same rfl rfl rfl rfl
theorem modDesc_evolves (d : ParamId) (f : DescRecord → DescRecord) : Evolves s (modDesc d f s) := .of_same rfl rfl rfl rfl

theorem withFaults_evolves {t : FaultTable} (h : (t.get consoleLinkLostRef).lastPresent = (s.fault consoleLinkLostRef).lastPresent) :
    Evolves s (withFaults t s) :=
  ⟨rfl, List.prefix_refl _, fun _ => rfl, ⟨[], (List.append_nil _).symm⟩, h⟩

theorem faultTable_get_set_other {t : FaultTable} {f : FaultRef} (r : FaultRecord) (ne : f ≠ consoleLinkLostRef) :
    (t.set f r).get consoleLinkLostRef = t.get consoleLinkLostRef := by
  cases f with
  | endpoint => rfl
  | loop => rfl
  | device k =>
    have other : (0 : Fin 3) ≠ k := fun e => ne (e ▸ rfl)
    exact (vector_set_get t.device k 0 r).trans (if_neg other)

theorem faultTable_get_mapAll (h : FaultRef → FaultRecord → FaultRecord) (t : FaultTable) :
    (t.mapAll h).get consoleLinkLostRef = h consoleLinkLostRef (t.get consoleLinkLostRef) := rfl

theorem setFault_evolves {f : FaultRef} {r : FaultRecord} (h : f = consoleLinkLostRef → r.lastPresent = (s.fault f).lastPresent) :
    Evolves s (setFault f r s) := by
  refine withFaults_evolves s ?_
  by_cases same : f = consoleLinkLostRef
  · have written : (s.faults.set f r).get consoleLinkLostRef = r := by
      subst same; exact (vector_set_get s.faults.device 0 0 r).trans (if_pos rfl)
    rw [written, h same, same]
  · rw [faultTable_get_set_other r same]; rfl

/-! ### Power and claims -/

theorem issuePower_evolves (e : EndpointId) : Evolves s (issuePower e s) := by
  unfold issuePower
  split
  · next issued => exact (queueDirective_evolves s e _ _ issued.1).trans (modEndpoint_evolves _ _ _)
  · exact .refl s

theorem recommand_evolves (e : EndpointId) : Evolves s (recommand e s) :=
  .ite ((modEndpoint_evolves s e _).trans (issuePower_evolves _ e)) (.refl s)

theorem recommandZone_evolves (z : ZoneId) : Evolves s (recommandZone z s) :=
  (Evolves.whenSome (fun e u => recommand_evolves u e) _ s).trans (.whenSome (fun e u => recommand_evolves u e) _ _)

theorem afterRelease_evolves (z : ZoneId) : Evolves s (afterRelease z s) :=
  (modZone_evolves s z _).trans (recommandZone_evolves _ z)

theorem endCandidate_evolves (z : ZoneId) : Evolves s (endCandidate z s) := .whenSome (fun l u => modLoop_evolves u l _) _ s

/-! ### The endings of calls -/

theorem reportCompletion_evolves (r : Call) (c : CallId) (out : CallOutcome) (d m : ZoneSet) :
    Evolves s (reportCompletion r c out d m s) := by
  unfold reportCompletion
  split
  · exact pushEvent_evolves s _ _ _
  · exact (pushEvent_evolves s _ _ _).trans (modGate_evolves _ _ _)

theorem completeCall_evolves (c : CallId) (why : Ending) : Evolves s (completeCall c why s) :=
  (modCall_evolves s c _).trans ((Evolves.forEach (fun z u => afterRelease_evolves u z) _ _).trans
    (reportCompletion_evolves _ _ c _ _ _))

theorem dropZone_evolves (z : ZoneId) : Evolves s (dropZone z s) := by
  unfold dropZone
  split
  · exact .refl s
  · next c _ =>
    have lost := (modCall_evolves s c (Call.loseZone z)).trans (afterRelease_evolves _ z)
    exact .ite (lost.trans (completeCall_evolves _ c _)) lost

theorem checkDrop_evolves (z : ZoneId) : Evolves s (checkDrop z s) := by
  unfold checkDrop
  split
  · exact .refl s
  · exact .ite (dropZone_evolves s z) (.refl s)

theorem enterTail_evolves (c : CallId) (fixed : Option CallOutcome) : Evolves s (enterTail c fixed s) :=
  .ite ((modCall_evolves s c _).trans (completeCall_evolves _ c _)) (modCall_evolves s c _)

theorem cancelCall_evolves (c : CallId) : Evolves s (cancelCall c s) := by
  unfold cancelCall
  split
  · exact completeCall_evolves s c _
  · exact enterTail_evolves s c _
  · exact enterTail_evolves s c _
  · exact .refl s
  · exact .refl s

theorem preempt_evolves (c : CallId) : Evolves s (preempt c s) :=
  .ite ((modCall_evolves s c _).trans (.forEach (fun z u => afterRelease_evolves u z) _ _))
    (.ite (completeCall_evolves s c _) (completeCall_evolves s c _))

/-! ### Faults (R119 to R126) -/

theorem deriveProtection_evolves (z : ZoneId) : Evolves s (deriveProtection z s) :=
  .ite (.refl s) (.ite ((modZone_evolves s z _).trans ((endCandidate_evolves _ z).trans (dropZone_evolves _ z)))
    (modZone_evolves s z _))

theorem rewake_evolves (z : ZoneId) : Evolves s (rewake z s) := by
  unfold rewake
  split
  · exact .refl s
  · exact .ite (modCall_evolves s _ _) (.refl s)

theorem swapZone_evolves (z : ZoneId) : Evolves s (swapZone z s) :=
  (modZone_evolves s z _).trans ((endCandidate_evolves _ z).trans ((recommandZone_evolves _ z).trans
    ((checkDrop_evolves _ z).trans ((rewake_evolves _ z).trans (deriveProtection_evolves _ z)))))

theorem faultEvent_evolves (f : FaultRef) (flags : Byte) (st : FaultState) (a : PolicyAction) (n : Nat) :
    Evolves s (faultEvent f flags st a n s) := pushEvent_evolves s _ _ _

theorem raise_evolves {f : FaultRef} (ne : f ≠ consoleLinkLostRef) : Evolves s (raise f s) := by
  have noted : ∀ r flags st a n, Evolves s (faultEvent f flags st a n (setFault f r s)) := fun r flags st a n =>
    (setFault_evolves s fun same => absurd same ne).trans (faultEvent_evolves _ f flags st a n)
  have swapped : ∀ r flags st a n o, Evolves s (whenSome o swapZone (faultEvent f flags st a n (setFault f r s))) :=
    fun r flags st a n o => (noted r flags st a n).trans (.whenSome (fun z u => swapZone_evolves u z) o _)
  unfold raise
  simp only
  split
  · exact (swapped _ _ _ _ _ _).trans (.whenSome (fun z u => deriveProtection_evolves u z) _ _)
  · exact swapped _ _ _ _ _ _

theorem observe_evolves {f : FaultRef} (ne : f ≠ consoleLinkLostRef) (b : Bool) : Evolves s (observe f b s) := by
  have put : ∀ r, Evolves s (setFault f r s) := fun r => setFault_evolves s fun same => absurd same ne
  exact .ite (.refl s) (.ite (put _) (.ite (.ite (raise_evolves s ne) (put _)) (put _)))

theorem expireRetry_evolves (f : FaultRef) : Evolves s (expireRetry f s) := by
  have noted : ∀ r flags st a n, r.lastPresent = (s.fault f).lastPresent →
      Evolves s (faultEvent f flags st a n (setFault f r s)) := fun r flags st a n same =>
    (setFault_evolves s fun _ => same).trans (faultEvent_evolves _ f flags st a n)
  unfold expireRetry
  simp only
  split
  · exact setFault_evolves s fun _ => rfl
  · refine (noted _ _ _ _ _ ?_).trans (.whenSome (fun z u => deriveProtection_evolves u z) _ _)
    rfl

/-! ### The frame boundary (R90 to R99) -/

theorem tailTest_evolves (c : CallId) : Evolves s (tailTest c s) := .ite (completeCall_evolves s c _) (.refl s)

theorem liveMaximumTest_evolves (c : CallId) : Evolves s (liveMaximumTest c s) := .ite (enterTail_evolves s c _) (.refl s)

theorem endOfAudioTest_evolves (c : CallId) : Evolves s (endOfAudioTest c s) :=
  .ite (enterTail_evolves s c _) (liveMaximumTest_evolves s c)

theorem pendingTest_evolves (c : CallId) : Evolves s (pendingTest c s) := .ite (completeCall_evolves s c _) (.refl s)

theorem observeWake_evolves (z : ZoneId) (b : Bool) : Evolves s (observeWake z b s) :=
  .whenSome (fun _ u => observe_evolves u (by simp [wakeFailedRef, consoleLinkLostRef]) b) _ s

theorem enterPlaying_evolves (c : CallId) : Evolves s (enterPlaying c s) :=
  (modCall_evolves s c _).trans (.forEach (fun z u => observeWake_evolves u z false) _ _)

theorem examineWakeZone_evolves (c : CallId) (z : ZoneId) : Evolves s (examineWakeZone c z s) := by
  unfold examineWakeZone
  split
  · split
    · exact .ite ((modCall_evolves s c _).trans ((afterRelease_evolves _ z).trans (observeWake_evolves _ z true))) (.refl s)
    · exact modCall_evolves s c _
  · exact .refl s

theorem wakingTest_evolves (c : CallId) : Evolves s (wakingTest c s) := by
  have examined : ∀ l, Evolves s (forEach l (examineWakeZone c) s) := fun l => .forEach (fun z u => examineWakeZone_evolves u c z) l s
  exact .ite (.ite (.ite ((examined _).trans (completeCall_evolves _ c _))
    (.ite ((examined _).trans (enterPlaying_evolves _ c)) (examined _))) (examined _)) (.refl s)

theorem preemptByZone_evolves (p : Nat) (d : ZoneSet) : Evolves s (preemptByZone p d s) :=
  .forEach (fun c u => .ite (preempt_evolves u c) (.refl u)) _ s

theorem startCall_evolves (c : CallId) (d : ZoneSet) (p : PlayerId) : Evolves s (startCall c d p s) := by
  have claimed : ∀ u : State, Evolves u (countStart (modCall c (u.claimRecord d p) u)) := fun u => .of_same rfl rfl rfl rfl
  have powered := ((preemptByZone_evolves s (s.call c).priority d).trans (claimed _)).trans
    (.forEach (fun z u => recommandZone_evolves u z) (zonesOf d) _)
  exact .ite (powered.trans (enterPlaying_evolves _ c)) powered

theorem dispatchCall_evolves (c : CallId) (w : ZoneSet) : Evolves s (dispatchCall c w s).1 := by
  unfold dispatchCall
  simp only
  split
  · exact completeCall_evolves s c _
  · split
    · exact .refl s
    · split
      · exact startCall_evolves s c _ _
      · split
        · exact .refl s
        · split
          · exact (preempt_evolves s _).trans (startCall_evolves _ c _ _)
          · exact .refl s

theorem walk_evolves : ∀ (n : Nat) (l : List CallId) (w : ZoneSet) (s : State), Evolves s (walk n l w s)
  | 0, _, _, s => .refl s
  | n + 1, l, w, s => by
    unfold walk
    split
    · exact .refl s
    · exact (dispatchCall_evolves s _ w).trans (walk_evolves n _ _ _)

theorem examine_evolves : Evolves s (examine s) :=
  (Evolves.forEach (fun c u => tailTest_evolves u c) _ s).trans
    ((Evolves.forEach (fun c u => endOfAudioTest_evolves u c) _ _).trans
      ((Evolves.forEach (fun c u => wakingTest_evolves u c) _ _).trans
        ((Evolves.forEach (fun c u => pendingTest_evolves u c) _ _).trans (walk_evolves _ _ _ _))))

theorem liveStartTest_evolves (c : CallId) : Evolves s (liveStartTest c s) := by
  unfold liveStartTest
  split
  · exact .ite (enterTail_evolves s c _) (.refl s)
  · exact .refl s
  · exact .refl s

theorem mapCalls_evolves (f : Call → Call) : Evolves s (mapCalls f s) := .of_same rfl rfl rfl rfl

theorem handOff_evolves (ing : List (List Int)) : Evolves s (handOff ing s).1 := by
  unfold handOff
  exact (Evolves.forEach (fun c u => liveStartTest_evolves u c) _ s).trans (mapCalls_evolves _ _)

theorem frameBoundary_evolves (ing : List (List Int)) : Evolves s (frameBoundary ing s).1 := by
  unfold frameBoundary
  split
  · exact (examine_evolves s).trans (handOff_evolves _ ing)
  · exact .refl s

/-! ### Timers (R37, R40, R109, R121, R123) -/

theorem loseEndpoint_evolves (e : EndpointId) : Evolves s (loseEndpoint e s) := by
  have observed : ∀ u : State, Evolves u (observe (endpointLostRef e) true u) := fun u =>
    observe_evolves u (by simp [endpointLostRef, consoleLinkLostRef]) true
  unfold loseEndpoint
  split
  · exact .ite ((endCandidate_evolves s _).trans ((observed _).trans (checkDrop_evolves _ _))) (observed s)
  · exact observed s

theorem presenceTest_evolves (e : EndpointId) : Evolves s (presenceTest e s) :=
  .ite (.ite ((modEndpoint_evolves s e _).trans (loseEndpoint_evolves _ e)) (modEndpoint_evolves s e _)) (.refl s)

theorem idleTest_evolves (z : ZoneId) : Evolves s (idleTest z s) := by
  unfold idleTest
  split
  · split
    · exact .ite ((modZone_evolves s z _).trans (recommandZone_evolves _ z)) (.refl s)
    · exact .refl s
  · exact .refl s

theorem closeGate_evolves (g : GateId) (d : GateState) : Evolves s (closeGate g d s) := by
  unfold closeGate cancelAdmission
  exact (modGate_evolves s g _).trans ((issueLights_evolves _ g false).trans (.whenSome (fun c u => cancelCall_evolves u c) _ _))

theorem windowTest_evolves (g : GateId) : Evolves s (windowTest g s) := by
  unfold windowTest
  split
  · split
    · exact .ite (closeGate_evolves s g _) (.refl s)
    · exact .refl s
  · exact .refl s

theorem escalationTests_evolves : Evolves s (escalationTests s) := by
  refine withFaults_evolves s ?_
  rw [faultTable_get_mapAll]
  split <;> rfl

theorem tickRetries_evolves : Evolves s (tickRetries s) := by
  refine withFaults_evolves s ?_
  rw [faultTable_get_mapAll]
  unfold FaultRecord.tickRetry
  split <;> rfl

theorem retryTests_evolves : Evolves s (retryTests s) := .forEach (fun f u => expireRetry_evolves u f) _ s

/-- Every block but the link, which may send a return frame. -/
theorem runTask_evolves (ing : List (List Int)) {t : MsTask} (other : t ≠ .returnFrame) (p : State × HandOff) :
    Evolves p.1 (runTask ing t p).1 := by
  cases t <;> simp only [runTask]
  case presence => exact .forEach (fun e u => presenceTest_evolves u e) _ p.1
  case idle => exact .forEach (fun z u => idleTest_evolves u z) _ p.1
  case windows => exact .forEach (fun g u => windowTest_evolves u g) _ p.1
  case escalation => exact escalationTests_evolves p.1
  case retry => exact retryTests_evolves p.1
  case boundary => exact frameBoundary_evolves p.1 ing
  case returnFrame => exact absurd rfl other

/-! ### The mix event and the steps after it (R5, R54, R72) -/

theorem mixEvent_evolves (ing : List (List Int)) (mixes : List (Option ZoneMix)) : Evolves s (mixEvent ing mixes s) :=
  .of_same rfl rfl rfl rfl

theorem agcStep_evolves (h : HandOff) (z : ZoneId) : Evolves s (agcStep h z s) := by
  unfold agcStep
  split
  · split
    · exact (modLoop_evolves s _ _).trans ((observe_evolves _ (by simp [currentLimitedRef, consoleLinkLostRef]) _).trans
        (observe_evolves _ (by simp [agcSaturatedRef, consoleLinkLostRef]) _))
    · exact .refl s
  · exact .refl s

theorem voxTest_evolves (z : ZoneId) : Evolves s (voxTest z s) :=
  .ite (.whenSome (fun d u => modDesc_evolves u d _) _ s) (.refl s)

theorem afterMixSteps_evolves (h : HandOff) (mixes : List (Option ZoneMix)) : Evolves s (afterMixSteps h mixes s) :=
  .forEach (fun z u => .ite ((agcStep_evolves u h z).trans (voxTest_evolves _ z)) (.refl u)) _ s

end

end Sys2Proof.Machine
end

section
/-! A well-formed downstream frame from its arrival to its sending (R5, R7, R11, R23, R133 to R140). -/

namespace Sys2Proof.Machine

/-! ### The schedule of a millisecond (log 4) -/

theorem nodup_eraseDups {α : Type} [BEq α] [LawfulBEq α] : ∀ l : List α, l.eraseDups.Nodup
  | [] => by simp
  | a :: l => by
    rw [List.eraseDups_cons, List.nodup_cons]
    exact ⟨fun h => by simp at h, nodup_eraseDups _⟩
termination_by l => l.length
decreasing_by exact Nat.lt_succ_of_le (List.length_filter_le _ l)

theorem schedule_nodup (order : List MsTask) : (schedule order).Nodup := by
  have once : allTasks.Nodup := by decide
  refine List.nodup_append.mpr ⟨nodup_eraseDups order, once.filter _, fun a ha b hb same => ?_⟩
  subst same
  obtain ⟨-, left_out⟩ := List.mem_filter.mp hb
  have given := List.mem_eraseDups.mp ha
  simp [given] at left_out

theorem mem_schedule (order : List MsTask) (t : MsTask) : t ∈ schedule order := by
  by_cases given : t ∈ order
  · exact List.mem_append_left _ (List.mem_eraseDups.mpr given)
  · refine List.mem_append_right _ (List.mem_filter.mpr ⟨?_, by simp [given]⟩)
    cases t <;> decide

/-- The link takes the millisecond exactly once. -/
theorem schedule_returnFrame (order : List MsTask) : ∃ before after, schedule order = before ++ .returnFrame :: after ∧
    .returnFrame ∉ before ∧ .returnFrame ∉ after := by
  obtain ⟨before, after, eq⟩ := List.append_of_mem (mem_schedule order .returnFrame)
  have once := schedule_nodup order
  rw [eq, List.nodup_middle, List.nodup_cons, List.mem_append, not_or] at once
  exact ⟨before, after, eq, once.1⟩

theorem runTasks_evolves (ing : List (List Int)) : ∀ (l : List MsTask) (p : State × HandOff), .returnFrame ∉ l →
    Evolves p.1 (l.foldl (fun p t => runTask ing t p) p).1
  | [], p, _ => .refl p.1
  | t :: l, p, h => by
    rw [List.mem_cons, not_or] at h
    exact (runTask_evolves ing (fun same => h.1 same.symm) p).trans (runTasks_evolves ing l _ h.2)

/-- The return frame that the part builds while port B is not LOCKED (R137). -/
def builtReturn (s : State) : State := if s.portB = .locked then s else sendBuiltReturn s

theorem runTask_returnFrame (ing : List (List Int)) (p : State × HandOff) :
    (runTask ing .returnFrame p).1 = builtReturn p.1 := rfl

theorem millisecond_evolves (n : BitVec 16) (ing : List (List Int)) (order : List MsTask) (s : State) :
    ∃ u, Evolves (beginFrame n s) u ∧ Evolves (builtReturn u) (millisecond n ing order s).1 := by
  obtain ⟨before, after, eq, left, right⟩ := schedule_returnFrame order
  have early := runTasks_evolves ing before (tickRetries (beginFrame n s), HandOff.silent) left
  refine ⟨_, (tickRetries_evolves _).trans early, ?_⟩
  unfold millisecond
  rw [eq, List.foldl_append, List.foldl_cons]
  have late := runTasks_evolves ing after (runTask ing .returnFrame
    (before.foldl (fun p t => runTask ing t p) (tickRetries (beginFrame n s), HandOff.silent))) right
  rwa [runTask_returnFrame] at late

/-- A downstream frame, with the state `u` at which a return frame is built and the state `a` at which its message area is filled. -/
theorem downstream_evolves (header : Header) (arrived : Option (List (List WireSample))) (area : List Record) (order : List MsTask)
    (s : State) : ∃ u a slots, Evolves (beginFrame header.number s) u ∧ Evolves (builtReturn u) a ∧
      downstream header arrived area order s = sendDown header slots area a := by
  obtain ⟨u, begun, rest⟩ := millisecond_evolves header.number (ingressOf arrived) order s
  exact ⟨u, _, _, begun, rest.trans ((mixEvent_evolves _ _ _).trans (afterMixSteps_evolves _ _ _)), rfl⟩

/-! ### Meters (R7, R11, R23) -/

/-- The peaks, clip flags and noise register. -/
def State.meters (s : State) : Vector Nat 64 × Vector Nat 32 × Vector Bool 32 × BitVec 23 :=
  (s.ingressPeaks, s.busPeaks, s.busClips, s.noise)

theorem meters_of_still {s t : State} (h : t.still = s.still) : t.meters = s.meters :=
  (congrArg State.meters h :)

theorem agcStep_meters (h : HandOff) (z : ZoneId) (s : State) : (agcStep h z s).meters = s.meters := by
  unfold agcStep
  split
  · split
    · simp only
      rw [meters_of_still (observe_still _ _ _), meters_of_still (observe_still _ _ _)]
      rfl
    · rfl
  · rfl

theorem voxTest_meters (z : ZoneId) (s : State) : (voxTest z s).meters = s.meters := by
  unfold voxTest
  split
  · exact whenSome_keeps s State.meters (f := fun d => modDesc d fun r => r.voxStep s.ingressPeaks[r.voiceSlot]) (fun _ _ => rfl) _
  · rfl

theorem afterMixSteps_meters (h : HandOff) (mixes : List (Option ZoneMix)) (s : State) :
    (afterMixSteps h mixes s).meters = s.meters := by
  refine forEach_keeps s State.meters (fun z u => ?_) allZones
  split
  · rw [voxTest_meters, agcStep_meters]
  · rfl

theorem mixEvent_ingressPeak (ing : List (List Int)) (mixes : List (Option ZoneMix)) (s : State) (i : Fin 64) :
    (mixEvent ing mixes s).ingressPeaks[i] = blockPeak (slotOf ing i) := by
  simp [mixEvent]

theorem mixEvent_bus (ing : List (List Int)) (mixes : List (Option ZoneMix)) (s : State) (b : Fin 32) :
    (mixEvent ing mixes s).busPeaks[b] = blockPeak (busBlock s.routes ing b) ∧
    (mixEvent ing mixes s).busClips[b] = busClip s.routes ing b := by
  simp [mixEvent]

/-- What the mix event of a frame measures. -/
theorem downstream_meters (header : Header) (arrived : Option (List (List WireSample))) (area : List Record) (order : List MsTask)
    (s : State) : (downstream header arrived area order s).noise = noiseStep^[48] s.noise ∧
      (∀ i : Fin 64, (downstream header arrived area order s).ingressPeaks[i] = blockPeak (slotOf (ingressOf arrived) i)) ∧
      (∀ b : Fin 32, (downstream header arrived area order s).busPeaks[b] = blockPeak (busBlock s.routes (ingressOf arrived) b) ∧
        (downstream header arrived area order s).busClips[b] = busClip s.routes (ingressOf arrived) b) := by
  obtain ⟨p, hp⟩ : ∃ p, p = millisecond header.number (ingressOf arrived) order s := ⟨_, rfl⟩
  obtain ⟨m, hm⟩ : ∃ m, m = mixEvent (ingressOf arrived) (p.1.zoneMixes (ingressOf arrived) p.2) p.1 := ⟨_, rfl⟩
  have meters : (downstream header arrived area order s).meters = m.meters := by
    unfold downstream
    simp only [← hp, ← hm]
    exact afterMixSteps_meters _ _ m
  have tables := hp ▸ millisecond_tables s header.number (ingressOf arrived) order
  have noise : p.1.noise = s.noise := (congrArg TableView.noise tables :)
  have routes : p.1.routes = s.routes := (congrArg TableView.routes tables :)
  simp only [State.meters, Prod.mk.injEq] at meters
  obtain ⟨ingress, buses, clips, register⟩ := meters
  rw [ingress, buses, clips, register, hm]
  refine ⟨?_, fun i => mixEvent_ingressPeak _ _ _ i, fun b => ?_⟩
  · rw [mixEvent_noise, noise]
  · rw [← routes]; exact mixEvent_bus _ _ _ b

/-! ### Message areas (R140) -/

/-- A record that stands in an area keeps its place. -/
theorem fillPlaces_kept : ∀ (rs q : List Record) (i : Nat) (r : Record), rs[i]? = some r → recordEmpty r = false →
    (fillPlaces rs q).1[i]? = some r
  | x :: rs, q, 0, r, h, used => by
    obtain rfl : x = r := by simpa using h
    unfold fillPlaces
    rw [if_neg (by simp [used])]
    rfl
  | x :: rs, q, i + 1, r, h, used => by
    have rest : rs[i]? = some r := by simpa using h
    unfold fillPlaces
    split
    · cases q with
      | nil => exact fillPlaces_kept rs [] i r rest used
      | cons d q => exact fillPlaces_kept rs q i r rest used
    · exact fillPlaces_kept rs q i r rest used

/-- An area all of whose places are free takes the first of those that wait. -/
theorem fillPlaces_free : ∀ (n : Nat) (q : List Record),
    (fillPlaces (List.replicate n emptyRecord) q).1 = (q ++ List.replicate n emptyRecord).take n
  | 0, q => by simp [fillPlaces]
  | n + 1, q => by
    rw [List.replicate_succ]
    unfold fillPlaces
    rw [if_pos (by decide)]
    cases q with
    | nil =>
      simp only [fillPlaces_free n]
      simp [List.take_replicate]
    | cons d q =>
      simp only [fillPlaces_free n]
      rw [List.cons_append, List.take_succ_cons, ← List.replicate_succ, List.replicate_succ', ← List.append_assoc,
        List.take_append_of_le_length (l₁ := q ++ List.replicate n emptyRecord) (by simp)]

theorem returnClaimants_eq (s : State) : s.returnClaimants = s.returnQueue := by
  have mark : holdRecord s = HoldMark.record s.node := by
    funext m
    cases m <;> rfl
  unfold State.returnClaimants State.returnQueue
  rw [mark]

/-- What sending a built return frame makes of the link. -/
theorem sendBuiltReturn_eq (s : State) : sendBuiltReturn s = { s with
    txA := some { header := localHeader s.node s.frameCounter
                  records := (s.returnQueue ++ List.replicate 24 emptyRecord).take 24 }
    holdFlag := none
    replies := s.replies.drop (24 - s.holdFlag.toList.length)
    events := s.events.drop (24 - s.holdFlag.toList.length - s.replies.length) } := by
  have filled : (fillPlaces emptyArea s.returnClaimants).1 = (s.returnQueue ++ List.replicate 24 emptyRecord).take 24 := by
    rw [returnClaimants_eq]; exact fillPlaces_free 24 _
  have free : freePlaces emptyArea = 24 := by decide
  unfold sendBuiltReturn sendReturn
  simp only [filled, free]
  rfl

/-! ### Intake of a frame that brings the part nothing (R138, R147) -/

theorem intakeA_none : ∀ (rs : List Record) (s : State), (∀ r ∈ rs, recordFor s.node r = false) → intakeA rs s = s
  | [], s, _ => rfl
  | r :: rs, s, h => by
    have skipped : (if recordFor s.node r then serve (takeInA r s) else s) = s := if_neg (by simp [h r List.mem_cons_self])
    unfold intakeA
    rw [forEach_cons, skipped]
    exact intakeA_none rs s fun x hx => h x (List.mem_cons_of_mem _ hx)

theorem freed_none {n : Node} {rs : List Record} (h : ∀ r ∈ rs, recordFor n r = false) : freed n rs = rs := by
  unfold freed
  exact (List.map_congr_left fun r hr => if_neg (by simp [h r hr])).trans (List.map_id rs)

theorem serve_empty {s : State} (commands : s.cmdQueue = []) (cues : s.cueQueue = []) : serve s = s := by
  unfold serve
  rw [commands, cues]
  rfl

/-! ### The lock of port A (R135) -/

/-- An absent observation touches the record and with it the ALERT pin alone. -/
theorem observe_absent_eq (f : FaultRef) (s : State) : ∃ faults alert, observe f false s = { s with faults := faults, alert := alert } := by
  unfold observe
  simp only
  split
  · exact ⟨_, _, rfl⟩
  · split
    · exact ⟨_, _, rfl⟩
    · exact ⟨_, _, rfl⟩

theorem observe_console_absent {s : State} (watched : s.policy[8].mode ≠ .disabled) :
    ((observe consoleLinkLostRef false s).fault consoleLinkLostRef).lastPresent = false := by
  have written : ∀ r, (setFault consoleLinkLostRef r s).fault consoleLinkLostRef = r := fun r =>
    (vector_set_get s.faults.device 0 0 r).trans (if_pos rfl)
  unfold observe
  simp only
  rw [if_neg (show ¬ s.policy[policyIndex consoleLinkLostRef].mode = .disabled from watched)]
  split
  · rw [written]
  · rw [if_neg (by decide), written]

theorem lockA_eq (s : State) : ∃ faults alert, lockA s = { s with portA := .locked, faults := faults, alert := alert } := by
  unfold lockA
  split
  · obtain ⟨faults, alert, eq⟩ := observe_absent_eq consoleLinkLostRef { s with portA := .locked }
    exact ⟨faults, alert, eq⟩
  · exact ⟨_, _, rfl⟩

theorem lockA_console {s : State} (lost : s.portA = .lost) (watched : s.policy[8].mode ≠ .disabled) :
    ((lockA s).fault consoleLinkLostRef).lastPresent = false := by
  unfold lockA
  rw [if_pos lost]
  exact observe_console_absent watched

/-! ### The queues of a whole frame (R137, R140, R142) -/

section
variable {s b u a : State}

theorem builtReturn_shares (u : State) : (builtReturn u).directives = u.directives ∧ (builtReturn u).node = u.node ∧
    (builtReturn u).now = u.now ∧ (builtReturn u).frameCounter = u.frameCounter ∧ (builtReturn u).service = u.service ∧
    (builtReturn u).faults = u.faults := by
  unfold builtReturn
  split
  · exact ⟨rfl, rfl, rfl, rfl, rfl, rfl⟩
  · exact ⟨rfl, rfl, rfl, rfl, rfl, rfl⟩

/-- What a frame begun at `b`, with its return frame built at `u` and its message area filled at `a`, keeps of `b`. -/
theorem frame_shares (early : Evolves b u) (late : Evolves (builtReturn u) a) : a.node = b.node ∧ a.now = b.now ∧
    a.frameCounter = b.frameCounter ∧ (a.fault consoleLinkLostRef).lastPresent = (b.fault consoleLinkLostRef).lastPresent := by
  obtain ⟨-, node, now, frameCounter, -, faults⟩ := builtReturn_shares u
  refine ⟨?_, ?_, ?_, ?_⟩
  · exact ((congrArg LinkView.node late.link :).trans node).trans (congrArg LinkView.node early.link :)
  · exact ((congrArg LinkView.now late.link :).trans now).trans (congrArg LinkView.now early.link :)
  · exact ((congrArg LinkView.frameCounter late.link :).trans frameCounter).trans (congrArg LinkView.frameCounter early.link :)
  · have same : (builtReturn u).fault consoleLinkLostRef = u.fault consoleLinkLostRef := by simp only [State.fault, faults]
    exact late.console.trans ((congrArg FaultRecord.lastPresent same).trans early.console)

theorem frame_directives (early : Evolves b u) (late : Evolves (builtReturn u) a) :
    b.directives.map Directive.key <+: a.directives.map Directive.key ∧ (b.service = .configuration → a.directives = b.directives) := by
  obtain ⟨directives, -, -, -, service, -⟩ := builtReturn_shares u
  refine ⟨?_, fun config => ?_⟩
  · have later := late.keys
    rw [directives] at later
    exact early.keys.trans later
  · rw [late.idle (service.trans (early.service.trans config)), directives, early.idle config]

/-- The return frame that a frame builds while port B is not LOCKED. -/
theorem frame_returns (early : Evolves b u) (late : Evolves (builtReturn u) a) (open_ : b.portB ≠ .locked) :
    ∃ first after : List Record, ∀ v : State, v.node = b.node → v.holdFlag = b.holdFlag → v.replies = b.replies →
      v.events = b.events ++ first →
      a.txA = some { header := localHeader b.node b.frameCounter
                     records := (v.returnQueue ++ List.replicate 24 emptyRecord).take 24 } ∧
      a.holdFlag = none ∧ a.replies = b.replies.drop (24 - b.holdFlag.toList.length) ∧
      a.events = v.events.drop (24 - b.holdFlag.toList.length - b.replies.length) ++ after := by
  obtain ⟨first, begun⟩ := early.events
  obtain ⟨after, ended⟩ := late.events
  have portB : u.portB = b.portB := (congrArg LinkView.portB early.link :)
  have node : u.node = b.node := (congrArg LinkView.node early.link :)
  have number : u.frameCounter = b.frameCounter := (congrArg LinkView.frameCounter early.link :)
  have replies : u.replies = b.replies := (congrArg LinkView.replies early.link :)
  have flag : u.holdFlag = b.holdFlag := (congrArg LinkView.holdFlag early.link :)
  have built : builtReturn u = sendBuiltReturn u := if_neg (portB ▸ open_)
  have link := late.link
  rw [built, sendBuiltReturn_eq, node, number, replies, flag] at link
  rw [built, sendBuiltReturn_eq, replies, flag] at ended
  refine ⟨first, after, fun v vnode vflag vreplies vevents => ?_⟩
  have queue : u.returnQueue = v.returnQueue := by
    unfold State.returnQueue
    rw [vnode, vflag, vreplies, vevents, node, flag, replies, begun]
  rw [queue] at link
  exact ⟨(congrArg LinkView.txA link :), (congrArg LinkView.holdFlag link :), (congrArg LinkView.replies link :),
    ended.trans (by rw [vevents, begun])⟩

/-- While port B is LOCKED no return frame is built. -/
theorem frame_relays (early : Evolves b u) (late : Evolves (builtReturn u) a) (locked : b.portB = .locked) :
    a.txA = b.txA ∧ a.holdFlag = b.holdFlag ∧ a.replies = b.replies ∧ ∃ after, a.events = b.events ++ after := by
  have portB : u.portB = b.portB := (congrArg LinkView.portB early.link :)
  have whole : Evolves b a := early.trans ((if_pos (portB.trans locked) : builtReturn u = u) ▸ late)
  exact ⟨(congrArg LinkView.txA whole.link :), (congrArg LinkView.holdFlag whole.link :), (congrArg LinkView.replies whole.link :),
    whole.events⟩

end

/-- Settles O10: the frame passes the locking of the port and an intake that takes nothing; then what it does to the queues is that the
link evolves up to the built return frame and on from it, and what it measures is read off the mix event. -/
theorem wellFormedFrameIsForwarded : Obligations.WellFormedFrameIsForwarded := by
  intro f order s ing noReset commands cues foreign hing
  have due : s.softResetDue = false := by
    unfold State.softResetDue
    rcases noReset with flag | waiting
    · rw [flag]; rfl
    · rw [List.isEmpty_eq_false_iff.mpr waiting, Bool.and_false]
  obtain ⟨faults, alert, locked⟩ := lockA_eq s
  have taken : intakeA f.records (lockA s) = lockA s := intakeA_none _ _ (by rw [locked]; exact foreign)
  obtain ⟨t, ht⟩ : ∃ t, t = downstream f.header (some f.slots) f.records order (lockA s) := ⟨_, rfl⟩
  have settled : t.settled = { s with portA := .locked }.settled := by
    rw [ht, downstream_settled, locked]; rfl
  obtain ⟨-, portA, -, cmdQueue, cueQueue, -⟩ := settled_shares settled
  have run : exec (.downstreamFrameArrival f order) s = .next t := by
    show Host.Outcome.next (frameFromA f order (resetBeforeFrame s)) = _
    rw [resetBeforeFrame, if_neg (by rw [due]; decide), frameFromA, freed_none foreign, taken, ← ht,
      serve_empty (cmdQueue.trans commands) (cueQueue.trans cues)]
  obtain ⟨u, a, slots, early, late, sent⟩ := downstream_evolves f.header (some f.slots) f.records order (lockA s)
  obtain ⟨noise, ingress, buses⟩ := downstream_meters f.header (some f.slots) f.records order (lockA s)
  rw [← ht] at sent noise ingress buses
  have begun : beginFrame f.header.number (lockA s) =
      { s with portA := .locked, faults := faults, alert := alert, now := s.now + 1, frameCounter := f.header.number } := by
    rw [locked]; rfl
  have console : s.portA = .lost → s.policy[8].mode ≠ .disabled →
      ((beginFrame f.header.number (lockA s)).fault consoleLinkLostRef).lastPresent = false := lockA_console
  obtain ⟨node, now, number, seen⟩ := frame_shares early late
  obtain ⟨keys, idle⟩ := frame_directives early late
  have returns := frame_returns early late
  have relays := frame_relays early late
  rw [← seen] at console
  rw [begun] at node now number keys idle returns relays
  rw [show (lockA s).noise = s.noise by rw [locked]] at noise
  rw [show (lockA s).routes = s.routes by rw [locked]] at buses
  have record : directiveRecord a = Directive.record s.node := by
    rw [show s.node = a.node from node.symm]; rfl
  subst sent
  refine ⟨_, { header := f.header, slots := slots, records := (fillPlaces f.records (a.directives.map (directiveRecord a))).1 },
    run, rfl, rfl, fillPlaces_length _ _, fun i r => fillPlaces_kept _ _ i r, ⟨⟨a.directives, keys, idle, by rw [record], rfl⟩,
    fun closed => ?_, relays⟩, portA, now, number, noise, fun i => ?_, fun b => ?_, console, settled⟩
  · obtain ⟨first, after, built⟩ := returns closed
    exact ⟨first, after, fun v hv => built v (by rw [hv]) (by rw [hv]) (by rw [hv]) (by rw [hv])⟩
  · have slot : slotOf (ingressOf (some f.slots)) i = slotSamples (f.slots.getD i.val []) := by
      have lt : i.val < 64 := i.isLt
      simp [slotOf, ingressOf, Config.slotCount, List.getD_eq_getElem?_getD, lt]
    rw [ingress i, slot]
  · rw [hing]; exact buses b

end Sys2Proof.Machine
end

section
/-! The conditions that zones, endpoints and calls are asked for (R29, R30, R34, R43, R45, R101, R125). -/

namespace Sys2Proof.Machine

/-! ### Searches -/

/-- The first index that meets a test. -/
theorem find_finRange {n : Nat} {p : Fin n → Bool} {i : Fin n} :
    (List.finRange n).find? p = some i ↔ p i = true ∧ ∀ j, j < i → p j = false := by
  rw [List.find?_eq_some_iff_getElem]
  constructor
  · rintro ⟨holds, k, hk, at_, before⟩
    have same : k = i.val := by rw [← at_]; simp
    refine ⟨holds, fun j lt => ?_⟩
    have earlier := before j.val (by rw [same]; exact lt)
    simpa using earlier
  · rintro ⟨holds, before⟩
    exact ⟨holds, i.val, by simp, by simp, fun j lt => by simpa using before ⟨j, by omega⟩ lt⟩

theorem find_finRange_none {n : Nat} {p : Fin n → Bool} : (List.finRange n).find? p = none ↔ ∀ i, p i = false := by
  simp [List.find?_eq_none]

theorem mem_zonesOf {m : ZoneSet} {z : ZoneId} : z ∈ zonesOf m ↔ m.getLsbD z.val = true := by simp [zonesOf]

theorem zonesOf_nodup (m : ZoneSet) : (zonesOf m).Nodup := (List.nodup_finRange 32).filter _

@[simp] theorem zonesOf_zero : zonesOf 0 = [] := by simp [zonesOf]

/-- Two sets of zones are one where they hold the same zones. -/
theorem zoneSet_ext {a b : ZoneSet} (h : ∀ z : ZoneId, a.getLsbD z.val = b.getLsbD z.val) : a = b :=
  BitVec.eq_of_getLsbD_eq fun i lt => h ⟨i, lt⟩

theorem zoneSet_eq_zero {a : ZoneSet} : a = 0 ↔ ∀ z : ZoneId, a.getLsbD z.val = false :=
  ⟨fun h z => by simp [h], fun h => zoneSet_ext fun z => (h z).trans (by simp)⟩

theorem zoneBit_getLsbD (z y : ZoneId) : (zoneBit z).getLsbD y.val = decide (y = z) := by
  simp only [zoneBit, BitVec.getLsbD_twoPow, Fin.ext_iff]
  have := y.isLt
  by_cases h : z.val = y.val
  · simp [h]
  · simp [h, Ne.symm h]

/-! ### Claims (R101) -/

section
variable {s t : State} {c d : CallId} {z : ZoneId}

theorem claims_iff {r : Call} : r.claims z = true ↔
    (r.state = .waking ∨ r.state = .playing ∨ r.state = .tail) ∧ r.delivered.getLsbD z.val = true := by
  unfold Call.claims Call.running
  cases r.state <;> simp

theorem running_iff {r : Call} : r.running = true ↔ r.state = .waking ∨ r.state = .playing ∨ r.state = .tail := by
  unfold Call.running
  cases r.state <;> simp

theorem claims_of_free {r : Call} (h : r.state = .free ∨ r.state = .pending) : r.claims z = false := by
  unfold Call.claims Call.running
  rcases h with h | h <;> rw [h] <;> rfl

/-- In a sound call table no zone has two claiming calls. -/
theorem claims_unique (sound : s.CallsSound) (hc : (s.call c).claims z = true) (hd : (s.call d).claims z = true) : c = d := by
  by_contra ne
  rw [claims_iff] at hc hd
  have apart := (sound.2.1 c d ne (running_iff.mpr hc.1) (running_iff.mpr hd.1)).2
  have bit := congrArg (fun m : ZoneSet => m.getLsbD z.val) apart
  simp only [BitVec.getLsbD_and, hc.2, hd.2, Bool.and_self] at bit
  exact absurd bit (by simp)

theorem claimant_claims (h : s.claimant z = some c) : (s.call c).claims z = true :=
  (find_finRange.mp h).1

theorem claimant_eq_some (sound : s.CallsSound) : s.claimant z = some c ↔ (s.call c).claims z = true := by
  refine ⟨claimant_claims, fun holds => find_finRange.mpr ⟨holds, fun d lt => ?_⟩⟩
  by_contra claims
  exact absurd (claims_unique sound (by simpa using claims) holds) (ne_of_lt lt)

theorem claimant_eq_none : s.claimant z = none ↔ ∀ c, (s.call c).claims z = false := find_finRange_none

end

/-! ### Protection (R125) -/

section
variable {s : State} {e : EndpointId}

theorem actionable_iff {st : FaultState} : st.actionable = true ↔ st = .latched ∨ st = .retryWait := by
  cases st <;> simp [FaultState.actionable]

theorem actionableWith_iff {p : PolicyAction → Bool} : s.actionableWith e p = true ↔ ∃ (k : Fin 6) (i : InForce),
    ((s.fault (.endpoint e k)).state = .latched ∨ (s.fault (.endpoint e k)).state = .retryWait) ∧
    (s.fault (.endpoint e k)).inForce = some i ∧ p i.action = true := by
  unfold State.actionableWith
  simp only [List.any_eq_true, Bool.and_eq_true, actionable_iff]
  constructor
  · rintro ⟨k, -, st, holds⟩
    cases inForce : (s.fault (.endpoint e k)).inForce with
    | none => simp [inForce] at holds
    | some i => exact ⟨k, i, st, inForce, by simpa [inForce] using holds⟩
  · rintro ⟨k, i, st, inForce, holds⟩
    exact ⟨k, List.mem_finRange k, st, by simpa [inForce] using holds⟩

theorem hasActionable_iff : s.hasActionable e = true ↔ ∃ k, (s.fault (.endpoint e k)).state.actionable = true := by
  simp [State.hasActionable]

end

theorem zoneOfEndpoint_eq_some {s : State} {e : EndpointId} {z : ZoneId} : s.zoneOfEndpoint e = some z ↔
    (s.endpoint e).inUse = true ∧ (s.endpoint e).role ≠ .usherLight ∧ (s.endpoint e).place = z := by
  unfold State.zoneOfEndpoint
  split
  · next h => simp [h.1, h.2]
  · next h => exact ⟨fun bad => (nomatch bad), fun good => absurd ⟨good.1, good.2.1⟩ h⟩

theorem ready_iff {r : Endpoint} : r.ready = true ↔ r.presence = .present ∧ (r.reported = .active ∨ r.reported = .standby) := by
  simp [Endpoint.ready]

theorem deliverable_iff {s : State} {z : ZoneId} : s.deliverable z = true ↔ (s.zone z).enabled = true ∧ s.service = .service ∧
    (s.zone z).testMode = .none ∧ (s.zone z).suspended = false ∧ (s.zone z).protection ≠ .muted ∧
    ∃ e, (s.zone z).active = some e ∧ (s.endpoint e).presence = .present ∧
      ((s.endpoint e).reported = .active ∨ (s.endpoint e).reported = .standby) := by
  unfold State.deliverable
  cases active : (s.zone z).active with
  | none => simp
  | some e => simp [ready_iff, and_assoc]

theorem awake_iff {s : State} {z : ZoneId} : s.awake z = true ↔
    ∃ e, (s.zone z).active = some e ∧ (s.endpoint e).presence = .present ∧ (s.endpoint e).reported = .active := by
  unfold State.awake
  cases active : (s.zone z).active with
  | none => simp
  | some e => simp [Endpoint.awake]

theorem listenSlot_iff {s : State} {z : ZoneId} {i : Fin 64} : s.listenSlot z = some i ↔
    (s.zone z).enabled = true ∧ s.slotMap[i] = .zone z ∧ ∀ j, j < i → s.slotMap[j] ≠ .zone z := by
  unfold State.listenSlot
  split
  · next on =>
    rw [find_finRange]
    simp only [on, true_and, beq_iff_eq, beq_eq_false_iff_ne]
  · next off => exact ⟨fun bad => (nomatch bad), fun good => absurd good.1 off⟩

/-- Settles O21, condition by condition. -/
theorem zoneConditionsFollowTheirRules : Obligations.ZoneConditionsFollowTheirRules := by
  intro s z acts hacts
  subst hacts
  refine ⟨fun side => ?_, fun side => ?_, deliverable_iff, awake_iff, fun c sound => (claimant_eq_some sound).trans claims_iff,
    fun i => listenSlot_iff, fun none_ => ?_, fun e active => ?_, fun e => zoneOfEndpoint_eq_some⟩
  · simp only [Zone.active, Zone.other, side, and_self]
  · simp only [Zone.active, Zone.other, side, and_self]
  · simp only [State.protectionOf, none_]
  · have muting : s.actionableWith e (fun a => a == .mute || a == .swap) = true ↔
        (∃ (k : Fin 6) (i : InForce), ((s.fault (.endpoint e k)).state = .latched ∨ (s.fault (.endpoint e k)).state = .retryWait) ∧
          (s.fault (.endpoint e k)).inForce = some i ∧ i.action = .mute) ∨
        (∃ (k : Fin 6) (i : InForce), ((s.fault (.endpoint e k)).state = .latched ∨ (s.fault (.endpoint e k)).state = .retryWait) ∧
          (s.fault (.endpoint e k)).inForce = some i ∧ i.action = .swap) := by
      rw [actionableWith_iff]
      simp only [Bool.or_eq_true, beq_iff_eq, ← exists_or, ← and_or_left]
    have reducing : s.actionableWith e (fun a => a == .reduce) = true ↔
        ∃ (k : Fin 6) (i : InForce), ((s.fault (.endpoint e k)).state = .latched ∨ (s.fault (.endpoint e k)).state = .retryWait) ∧
          (s.fault (.endpoint e k)).inForce = some i ∧ i.action = .reduce := by
      rw [actionableWith_iff]
      simp only [beq_iff_eq]
    simp only [State.protectionOf, active]
    refine ⟨fun mutes => ?_, fun noMute noSwap reduces => ?_, fun noMute noSwap noReduce => ?_⟩
    · rw [if_pos (muting.mpr mutes)]
    · rw [if_neg fun h => (muting.mp h).elim noMute noSwap, if_pos (reducing.mpr reduces)]
    · rw [if_neg fun h => (muting.mp h).elim noMute noSwap, if_neg fun h => noReduce (reducing.mp h)]

end Sys2Proof.Machine
end

section
/-! Commanded power (R39, R41, R42, R142), the checks of COMMIT (R154) and the writes of an endpoint record (R33). -/

namespace Sys2Proof.Machine

/-! ### Directives (R142) -/

/-- A directive takes the place of the first waiting one of its endpoint and code. -/
theorem joinDirective_replaces {d x : Directive} (same : x.key = d.key) (after : List Directive) :
    ∀ before : List Directive, (∀ y ∈ before, y.key ≠ d.key) → joinDirective d (before ++ x :: after) = before ++ d :: after
  | [], _ => if_pos ⟨congrArg Prod.fst same, congrArg Prod.snd same⟩
  | y :: before, other => by
    have ne : ¬ (y.endpoint = d.endpoint ∧ y.code = d.code) := fun h =>
      other y List.mem_cons_self (Prod.ext h.1 h.2)
    rw [List.cons_append, joinDirective, if_neg ne,
      joinDirective_replaces same after before fun z hz => other z (List.mem_cons_of_mem _ hz)]
    rfl

/-! ### Commanded power (R39, Table 2-5) -/

section
variable {s : State} {e : EndpointId}

/-- An endpoint record as an update of the table. -/
theorem modEndpoint_eq (e : EndpointId) (f : Endpoint → Endpoint) (s : State) :
    modEndpoint e f s = { s with endpoints := s.endpoints.set e (f (s.endpoint e)) } := rfl

theorem issue_eq (serving : s.service = .service) (present : (s.endpoint e).presence = .present) (code : DirectiveCode) (value : Byte) :
    issue e code value s = queueDirective e code value s := if_pos ⟨serving, present⟩

theorem issue_none (h : s.service = .configuration ∨ (s.endpoint e).presence ≠ .present) (code : DirectiveCode) (value : Byte) :
    issue e code value s = s := by
  refine if_neg fun both => h.elim (fun config => ?_) fun absent => absent both.2
  rw [config] at both
  exact nomatch both.1

theorem recommand_same (h : (s.endpoint e).inUse = false ∨ s.commandedPower e = (s.endpoint e).commanded) : recommand e s = s := by
  refine if_neg fun both => h.elim (fun unused => ?_) both.2
  rw [unused] at both
  exact nomatch both.1

/-- A changed commanded state that is not sent. -/
theorem recommand_quiet (used : (s.endpoint e).inUse = true) (new : s.commandedPower e ≠ (s.endpoint e).commanded)
    (h : s.service = .configuration ∨ (s.endpoint e).presence ≠ .present) :
    recommand e s = { s with endpoints := s.endpoints.set e { s.endpoint e with commanded := s.commandedPower e } } := by
  unfold recommand
  rw [if_pos ⟨used, new⟩]
  unfold issuePower
  rw [modEndpoint_endpoint, if_pos rfl]
  refine if_neg fun both => h.elim (fun config => ?_) fun absent => absent both.2
  rw [modEndpoint_service, config] at both
  exact nomatch both.1

/-- A changed commanded state that is sent at once. -/
theorem recommand_sends (used : (s.endpoint e).inUse = true) (new : s.commandedPower e ≠ (s.endpoint e).commanded)
    (serving : s.service = .service) (present : (s.endpoint e).presence = .present) : recommand e s = { s with
      endpoints := s.endpoints.set e { s.endpoint e with commanded := s.commandedPower e, lastPower := some s.now }
      directives := joinDirective { endpoint := e, code := .power, dest := (s.endpoint e).node, value := powerCode (s.commandedPower e) }
        s.directives } := by
  obtain ⟨u, hu⟩ : ∃ u, u = modEndpoint e (fun r => { r with commanded := s.commandedPower e }) s := ⟨_, rfl⟩
  have entry : u.endpoint e = { s.endpoint e with commanded := s.commandedPower e } := by rw [hu, modEndpoint_endpoint, if_pos rfl]
  unfold recommand
  rw [if_pos ⟨used, new⟩, ← hu]
  unfold issuePower
  rw [if_pos ⟨by rw [hu]; exact serving, by rw [entry]; exact present⟩, modEndpoint_eq]
  have entry' : (queueDirective e .power (powerCode (u.endpoint e).commanded) u).endpoint e = u.endpoint e := rfl
  rw [entry', entry]
  subst hu
  simp only [queueDirective, entry, modEndpoint_directives, modEndpoint_endpoints, modEndpoint_now]
  simp only [modEndpoint, Vector.set_set]

theorem commandedPower_light (serving : s.service = .service) (light : (s.endpoint e).role = .usherLight) :
    s.commandedPower e = .active := by
  unfold State.commandedPower
  rw [if_neg (by rw [serving]; decide), if_pos light]

theorem commandedPower_disabled (serving : s.service = .service) (role : (s.endpoint e).role ≠ .usherLight)
    (off : (s.zone (s.endpoint e).place).enabled = false) : s.commandedPower e = .off := by
  unfold State.commandedPower
  rw [if_neg (by rw [serving]; decide), if_neg role]
  simp only [off, Bool.not_false, if_true]

theorem commandedPower_spare (serving : s.service = .service) (role : (s.endpoint e).role ≠ .usherLight)
    (on : (s.zone (s.endpoint e).place).enabled = true) (other : (s.zone (s.endpoint e).place).active ≠ some e) :
    s.commandedPower e = .standby := by
  unfold State.commandedPower
  rw [if_neg (by rw [serving]; decide), if_neg role]
  simp only [on, Bool.not_true, Bool.false_eq_true, if_false, other, ne_eq, not_false_eq_true, if_true]

/-- The lines of Table 2-5 for the active endpoint of an enabled zone that is not suspended. -/
theorem commandedPower_active (serving : s.service = .service) (role : (s.endpoint e).role ≠ .usherLight) {z : ZoneId}
    (place : (s.endpoint e).place = z) (on : (s.zone z).enabled = true) (active : (s.zone z).active = some e) :
    ((s.zone z).suspended = true → s.commandedPower e = .suspended) ∧
    ((s.zone z).suspended = false → (s.zone z).testMode ≠ .none ∨ (s.zone z).idlePolicy = .alwaysOn ∨ (s.claimant z).isSome = true ∨
      (∃ d, (s.zone z).idleDeadline = some d ∧ s.now < d) → s.commandedPower e = .active) ∧
    ((s.zone z).suspended = false → (s.zone z).testMode = .none → (s.zone z).idlePolicy = .callsOnly → s.claimant z = none →
      (∀ d, (s.zone z).idleDeadline = some d → d ≤ s.now) → s.commandedPower e = .standby) := by
  unfold State.commandedPower
  rw [if_neg (by rw [serving]; decide), if_neg role]
  subst place
  simp only [on, active, Bool.not_true, Bool.false_eq_true, if_false, ne_eq, not_true_eq_false]
  refine ⟨fun held => ?_, fun free wanted => ?_, fun free quiet calls unclaimed past => ?_⟩
  · rw [if_pos held]
  · rw [if_neg (by simp [free])]
    rcases wanted with test | always | claimed | ⟨d, deadline, ahead⟩
    · rw [if_pos test]
    · simp only [always, if_true, ite_self]
    · simp only [claimed, if_true, ite_self]
    · simp only [deadline, ahead, if_true, ite_self]
  · rw [if_neg (by simp [free]), if_neg (by simp [quiet]), if_neg (by simp [calls]), if_neg (by simp [unclaimed])]
    cases deadline : (s.zone (s.endpoint e).place).idleDeadline with
    | none => rfl
    | some d => exact if_neg (Nat.not_lt.mpr (past d deadline))

end

/-- Settles O22: the table line by line, then the issue of a directive and the law of its queue. -/
theorem commandedPowerIsWorkedOutAndIssued : Obligations.CommandedPowerIsWorkedOutAndIssued := by
  refine ⟨?_, ?_, ?_⟩
  · rintro s e r z rfl rfl
    exact ⟨fun config => if_pos config, commandedPower_light, fun serving role => ⟨commandedPower_disabled serving role,
      commandedPower_spare serving role, commandedPower_active serving role rfl⟩⟩
  · rintro s e r rfl
    exact ⟨recommand_same, fun used new => ⟨recommand_quiet used new, recommand_sends used new⟩,
      fun code value => ⟨fun h => issue_none h code value, fun serving present => issue_eq serving present code value⟩⟩
  · refine fun d waiting => ⟨fun new => joinDirective_new d waiting fun x hx same => new x hx (Prod.ext same.1 same.2), ?_⟩
    rintro before x after rfl same other
    exact joinDirective_replaces same after before other

/-! ### The checks of COMMIT (R34, R52, R68, R105, R154) -/

section
variable {s : State}

theorem roleAgrees_iff {k : ZoneKind} {r : Role} : roleAgrees k r = true ↔
    k = .loop ∧ r = .loopAmp ∨ k = .desc ∧ r = .descTx ∨ k = .foyer ∧ r = .foyerAmp ∨ k = .lounge ∧ r = .loungeUnit := by
  cases k <;> simp [roleAgrees]

theorem loopOf_isSome {z : ZoneId} : (s.loopOf z).isSome = true ↔ ∃ l : ParamId, s.loops[l].zone = some z := by
  rw [← not_iff_not, Bool.not_eq_true, Option.isSome_eq_false_iff, Option.isNone_iff_eq_none, not_exists]
  exact find_finRange_none.trans (by simp)

theorem descOf_isSome {z : ZoneId} : (s.descOf z).isSome = true ↔ ∃ d : ParamId, s.descs[d].zone = some z := by
  rw [← not_iff_not, Bool.not_eq_true, Option.isSome_eq_false_iff, Option.isNone_iff_eq_none, not_exists]
  exact find_finRange_none.trans (by simp)

theorem endpointSuits_iff {z : ZoneId} {e : EndpointId} : s.endpointSuits z e = true ↔
    (s.endpoint e).inUse = true ∧ (s.endpoint e).place = z ∧ roleAgrees (s.zone z).kind (s.endpoint e).role = true := by
  simp [State.endpointSuits, and_assoc]

theorem zoneReady_iff {z : ZoneId} : s.zoneReady z = true ↔
    (∃ e, (s.zone z).primary = some e ∧ s.endpointSuits z e = true) ∧ (∀ e, (s.zone z).standby = some e → s.endpointSuits z e = true) ∧
    ((s.zone z).kind = .loop → ∃ l : ParamId, s.loops[l].zone = some z) ∧
    ((s.zone z).kind = .desc → ∃ d : ParamId, s.descs[d].zone = some z) := by
  unfold State.zoneReady
  simp only [Bool.and_eq_true, Bool.or_eq_true, bne_iff_ne, loopOf_isSome, descOf_isSome, and_assoc, ne_eq, ← imp_iff_not_or]
  refine and_congr ?_ (and_congr ?_ Iff.rfl)
  · cases (s.zone z).primary <;> simp
  · cases (s.zone z).standby <;> simp

theorem endpointListed_iff {e : EndpointId} : s.endpointListed e = true ↔
    ((s.zone (s.endpoint e).place).primary = some e ∨ (s.zone (s.endpoint e).place).standby = some e) ∧
    roleAgrees (s.zone (s.endpoint e).place).kind (s.endpoint e).role = true := by
  simp [State.endpointListed]

theorem admissionMaskOk_iff {m : ZoneSet} : s.admissionMaskOk m = true ↔
    ∀ z : ZoneId, m.getLsbD z.val = true → (s.zone z).kind = .lounge ∨ (s.zone z).kind = .foyer := by
  simp only [State.admissionMaskOk, List.all_eq_true, mem_zonesOf, Bool.or_eq_true, beq_iff_eq]

theorem no_failing_zone (ready : ∀ z, (s.zone z).enabled = true → s.zoneReady z = true) :
    allZones.find? (fun z => (s.zone z).enabled && !s.zoneReady z) = none :=
  find_finRange_none.mpr fun z => by
    cases on : (s.zone z).enabled with
    | false => rfl
    | true => simp [ready z on]

theorem no_failing_endpoint
    (listed : ∀ e : EndpointId, (s.endpoint e).inUse = true → (s.endpoint e).role ≠ .usherLight → s.endpointListed e = true) :
    allEndpoints.find? (fun e => (s.endpoint e).inUse && (s.endpoint e).role != .usherLight && !s.endpointListed e) = none :=
  find_finRange_none.mpr fun e => by
    by_cases h : (s.endpoint e).inUse = true ∧ (s.endpoint e).role ≠ .usherLight
    · simp [listed e h.1 h.2]
    · rw [not_and_or] at h
      rcases h with h | h
      · simp [h]
      · simp [not_not.mp h]

theorem commitFailure_zone {z : ZoneId} (on : (s.zone z).enabled = true) (bad : s.zoneReady z = false)
    (first : ∀ y, y < z → (s.zone y).enabled = true → s.zoneReady y = true) : s.commitFailure = some (.zone, z.val) := by
  have found : allZones.find? (fun z => (s.zone z).enabled && !s.zoneReady z) = some z :=
    find_finRange.mpr ⟨by simp [on, bad], fun y lt => by
      cases h : (s.zone y).enabled with
      | false => rfl
      | true => simp [first y lt h]⟩
  unfold State.commitFailure
  rw [found]

theorem commitFailure_endpoint {e : EndpointId} (zones : ∀ z, (s.zone z).enabled = true → s.zoneReady z = true)
    (used : (s.endpoint e).inUse = true) (role : (s.endpoint e).role ≠ .usherLight) (bad : s.endpointListed e = false)
    (first : ∀ y, y < e → (s.endpoint y).inUse = true → (s.endpoint y).role ≠ .usherLight → s.endpointListed y = true) :
    s.commitFailure = some (.endpoint, e.val) := by
  have found : allEndpoints.find? (fun e => (s.endpoint e).inUse && (s.endpoint e).role != .usherLight && !s.endpointListed e) = some e :=
    find_finRange.mpr ⟨by simp [used, role, bad], fun y lt => by
      by_cases h : (s.endpoint y).inUse = true ∧ (s.endpoint y).role ≠ .usherLight
      · simp [first y lt h.1 h.2]
      · rw [not_and_or] at h
        rcases h with h | h
        · simp [h]
        · simp [not_not.mp h]⟩
  unfold State.commitFailure
  rw [no_failing_zone zones, found]

theorem commitFailure_gate {g : GateId} (zones : ∀ z, (s.zone z).enabled = true → s.zoneReady z = true)
    (listed : ∀ e : EndpointId, (s.endpoint e).inUse = true → (s.endpoint e).role ≠ .usherLight → s.endpointListed e = true)
    (bad : s.admissionMaskOk (s.gate g).mask = false) (first : ∀ y, y < g → s.admissionMaskOk (s.gate y).mask = true) :
    s.commitFailure = some (.gate, g.val) := by
  have found : (List.finRange 2).find? (fun g : GateId => !s.admissionMaskOk (s.gate g).mask) = some g :=
    find_finRange.mpr ⟨by simp [bad], fun y lt => by simp [first y lt]⟩
  unfold State.commitFailure
  rw [no_failing_zone zones, no_failing_endpoint listed, show ([0, 1] : List GateId) = List.finRange 2 from rfl, found]
  rfl

variable {src : Node} {req : Byte}

/-- A COMMIT that fails a check has left its queue and names the failure; nothing else is touched. -/
theorem exec_commit_refused {f : Table × Nat} (ready : s.commandReady (.commit src req) src) (config : s.service = .configuration)
    (fails : s.commitFailure = some f) : exec (.commit src req) s = .next (s.answered
      (s.reply src 0x01 req .badConfig [BitVec.ofNat 8 (tableCode f.1), BitVec.ofNat 8 f.2])) := by
  obtain ⟨hold, flag, left⟩ := leaveCommand_eq s
  have fails' : (leaveCommand s).commitFailure = some f := by rw [left]; exact fails
  refine congrArg Host.Outcome.next ((takeCommand_ready ready).trans ?_)
  unfold commitBody
  rw [if_neg (by rw [leaveCommand_service, config]; decide), fails']
  simp only
  rw [refuseBadConfig, placeReply_normal, reply_node (s := s) (leaveCommand_node s), leaveCommand_replies]
  rfl

end

/-- Settles O33: the first failure of each table, then the checks themselves. -/
theorem commitIsRefusedAtItsFirstFailure : Obligations.CommitIsRefusedAtItsFirstFailure := by
  refine ⟨fun src req s ready => ⟨fun serving => ?_, fun config => ⟨fun z on bad first => ?_, fun zones => ⟨fun e used role bad first => ?_,
    fun listed g bad first => ?_⟩⟩⟩, fun s agrees suits hagrees hsuits => ?_⟩
  · refine congrArg Host.Outcome.next ((takeCommand_ready ready).trans ?_)
    unfold commitBody
    rw [if_pos ((leaveCommand_service s).trans serving), placeReply_refuse]
    rfl
  · exact exec_commit_refused ready config (commitFailure_zone on bad first)
  · exact exec_commit_refused ready config (commitFailure_endpoint zones used role bad first)
  · exact exec_commit_refused ready config (commitFailure_gate zones listed bad first)
  · have roles : ∀ k r, agrees k r ↔ roleAgrees k r = true := fun k r => by rw [hagrees, roleAgrees_iff]
    have suit : ∀ z e, suits z e ↔ s.endpointSuits z e = true := fun z e => by rw [hsuits, endpointSuits_iff, ← roles]
    refine ⟨fun z => ?_, ?_, fun mask => admissionMaskOk_iff⟩
    · simp only [suit]
      exact zoneReady_iff
    · rintro e z rfl
      rw [roles]
      exact endpointListed_iff

end Sys2Proof.Machine
end

section
/-! The fault table read back after a write (R115), and the writes of an endpoint record (R33, R118, R142). -/

namespace Sys2Proof.Machine

/-! ### Fault records (R115) -/

/-- The record read after one record was written. -/
theorem faultTable_get_set (t : FaultTable) (f x : FaultRef) (r : FaultRecord) :
    (t.set f r).get x = if x = f then r else t.get x := by
  cases f with
  | endpoint e k =>
    cases x with
    | endpoint y j =>
      show (t.endpoint.set e (t.endpoint[e].set k r))[y][j] = _
      rw [vector_set_get]
      by_cases same : y = e
      · subst same
        rw [if_pos rfl, vector_set_get]
        simp [FaultTable.get]
      · rw [if_neg same, if_neg (by simp [same])]
        rfl
    | loop => simp [FaultTable.set, FaultTable.get]
    | device => simp [FaultTable.set, FaultTable.get]
  | loop l k =>
    cases x with
    | loop y j =>
      show (t.loop.set l (t.loop[l].set k r))[y][j] = _
      rw [vector_set_get]
      by_cases same : y = l
      · subst same
        rw [if_pos rfl, vector_set_get]
        simp [FaultTable.get]
      · rw [if_neg same, if_neg (by simp [same])]
        rfl
    | endpoint => simp [FaultTable.set, FaultTable.get]
    | device => simp [FaultTable.set, FaultTable.get]
  | device k =>
    cases x with
    | device j =>
      show (t.device.set k r)[j] = _
      rw [vector_set_get]
      simp [FaultTable.get]
    | endpoint => simp [FaultTable.set, FaultTable.get]
    | loop => simp [FaultTable.set, FaultTable.get]

/-- The record read after a function was applied to every record. -/
theorem faultTable_get_map (h : FaultRef → FaultRecord → FaultRecord) (t : FaultTable) (f : FaultRef) :
    (t.mapAll h).get f = h f (t.get f) := by
  cases f <;> simp [FaultTable.mapAll, FaultTable.get]

theorem setFault_fault (f x : FaultRef) (r : FaultRecord) (s : State) :
    (setFault f r s).fault x = if x = f then r else s.fault x := faultTable_get_set _ _ _ _

/-! ### ENDPOINT_WRITE (R33, R118, R142) -/

section
variable {s : State} {src : Node} {req : Byte} {w : TableWrite} {e : EndpointId}

theorem exec_endpointWrite (ready : s.commandReady (.endpointWrite src req w) src) (group : w.group = 0) (second : w.second = false)
    (he : e.val = w.index.toNat) :
    exec (.endpointWrite src req w) s = .next (placeReply src 0x94 req (endpointBody e w.data (leaveCommand s))) := by
  have pass : preCheck .endpoint w = none :=
    preCheck_none (by simp [tableIndexOk]; omega) (by rw [group]; decide) second
  have code : codeOf (.endpointWrite src req w) = 0x94 := by
    show tableWriteCode 5 w = 0x94
    unfold tableWriteCode
    rw [group]; rfl
  refine congrArg Host.Outcome.next ((takeCommand_ready ready).trans ?_)
  rw [code, endpointWriteBody, checkedWrite_passes pass, ← he, indexOf_val]

theorem nodeHeld_iff {n : Node} : s.nodeHeld e n = true ↔ ∃ x, x ≠ e ∧ (s.endpoint x).inUse = true ∧ (s.endpoint x).node = n := by
  simp [State.nodeHeld, allEndpoints, and_assoc]

theorem roleOf_eq_none {b : Byte} (h : 4 < b.toNat) : roleOf b = none := by
  have other : ∀ n : Byte, n.toNat ≤ 4 → b ≠ n := fun n small same => by subst same; omega
  unfold roleOf
  rw [if_neg (other 0 (by decide)), if_neg (other 1 (by decide)), if_neg (other 2 (by decide)), if_neg (other 3 (by decide)),
    if_neg (other 4 (by decide))]

theorem placeOf_eq_some {r : Role} {b : Byte} {p : Fin 32} (place : p.val = b.toNat) (gate : r = .usherLight → p.val < 2) :
    placeOf r b = some p := by
  unfold placeOf
  rw [← place, indexOf_val, Option.filter_some, if_pos]
  by_cases light : r = .usherLight
  · simp [gate light]
  · simp [light]

theorem placeOf_eq_none {r : Role} {b : Byte} (h : 32 ≤ b.toNat ∨ r = .usherLight ∧ 2 ≤ b.toNat) : placeOf r b = none := by
  unfold placeOf
  by_cases far : 32 ≤ b.toNat
  · rw [indexOf_none far]; rfl
  · obtain ⟨light, beyond⟩ := h.resolve_left far
    obtain ⟨p, hp⟩ : ∃ p : Fin 32, p.val = b.toNat := ⟨⟨b.toNat, by omega⟩, rfl⟩
    rw [← hp, indexOf_val, Option.filter_some, if_neg]
    simp [light]; omega

/-- A flag byte that says no: the record is taken out of use. -/
theorem endpointBody_clears {d : List Byte} (config : s.service = .configuration) (flag : byteAt d 0 = 0) :
    endpointBody e d s = written false e.val (putEndpoint e false 0 .foyerAmp 0 s) := by
  unfold endpointBody
  rw [if_neg (by rw [config]; decide), flag]
  rfl

/-- A flag byte that says yes: the checks of the three other fields. -/
theorem endpointBody_uses {d : List Byte} (config : s.service = .configuration) (flag : byteAt d 0 = 1) :
    ((byteAt d 1).toNat = 0 ∨ 127 ≤ (byteAt d 1).toNat ∨ (byteAt d 1).toNat = s.node.toNat → endpointBody e d s = refuse .badValue s) ∧
    (∀ node : Node, node.toNat = (byteAt d 1).toNat → node ≠ 0 → node ≠ 127 → node ≠ s.node →
      (roleOf (byteAt d 2) = none → endpointBody e d s = refuse .badValue s) ∧
      (∀ role, roleOf (byteAt d 2) = some role → (placeOf role (byteAt d 3) = none → endpointBody e d s = refuse .badValue s) ∧
        (∀ place, placeOf role (byteAt d 3) = some place →
          (s.nodeHeld e node = true → endpointBody e d s = refuse .duplicate s) ∧
          (s.nodeHeld e node = false → endpointBody e d s = written false e.val (putEndpoint e true node role place s))))) := by
  have yes : flagOf 1 = some true := rfl
  unfold endpointBody
  rw [if_neg (by rw [config]; decide), flag, yes]
  simp only
  refine ⟨fun bad => if_pos bad, fun node same zero all own => ?_⟩
  have fine : ¬ ((byteAt d 1).toNat = 0 ∨ 127 ≤ (byteAt d 1).toNat ∨ (byteAt d 1).toNat = s.node.toNat) := by
    have lt := node.isLt
    have zero' : node.toNat ≠ 0 := fun h => zero (BitVec.eq_of_toNat_eq h)
    have all' : node.toNat ≠ 127 := fun h => all (BitVec.eq_of_toNat_eq h)
    have own' : node.toNat ≠ s.node.toNat := fun h => own (BitVec.eq_of_toNat_eq h)
    omega
  have named : BitVec.ofNat 7 (byteAt d 1).toNat = node := by rw [← same]; simp
  rw [if_neg fine, named]
  refine ⟨fun noRole => by rw [noRole], fun role hrole => ?_⟩
  rw [hrole]
  refine ⟨fun noPlace => by simp only [noPlace], fun place hplace => ?_⟩
  simp only [hplace]
  exact ⟨fun held => if_pos held, fun free => if_neg (by rw [free]; decide)⟩

/-- The fault records and ALERT after an endpoint's six records were put at reset. -/
theorem putEndpoint_eq (e : EndpointId) (inUse : Bool) (node : Node) (role : Role) (place : Fin 32) (s : State) :
    ∃ faults, putEndpoint e inUse node role place s = { s with
        endpoints := s.endpoints.set e { s.endpoint e with inUse := inUse, node := node, role := role, place := place }
        directives := s.directives.filter fun d => d.endpoint ≠ e
        faults := faults, alert := faults.anyActionable } ∧
      (∀ k, faults.get (.endpoint e k) = {}) ∧ (∀ f, (∀ k, f ≠ .endpoint e k) → faults.get f = s.fault f) := by
  refine ⟨{ s.faults with endpoint := s.faults.endpoint.set e (Vector.replicate 6 {}) }, ?_, fun k => ?_, fun f other => ?_⟩
  · have same : (fun d : Directive => d.endpoint != e) = fun d => decide (d.endpoint ≠ e) := by
      funext d
      rw [Bool.eq_iff_iff]; simp
    unfold putEndpoint dropDirectives
    rw [same]
    rfl
  · show (s.faults.endpoint.set e (Vector.replicate 6 {}))[e][k] = {}
    rw [vector_set_get, if_pos rfl]
    simp
  · cases f with
    | loop => rfl
    | device => rfl
    | endpoint x k =>
      have ne : x ≠ e := fun same => other k (same ▸ rfl)
      show (s.faults.endpoint.set e (Vector.replicate 6 {}))[x][k] = _
      rw [vector_set_get, if_neg ne]
      rfl

end

/-- Settles O52: the checks of R33 in their order, then the record, its faults and its directives. -/
theorem endpointWrites : Obligations.EndpointWrites := by
  intro src req w s e ready group second he
  obtain ⟨hold, flag, left⟩ := leaveCommand_eq s
  rw [exec_endpointWrite ready group second he]
  have refused : ∀ {st}, endpointBody e w.data (leaveCommand s) = refuse st (leaveCommand s) →
      Host.Outcome.next (placeReply src 0x94 req (endpointBody e w.data (leaveCommand s))) =
        (.next (s.answered (s.reply src 0x94 req st [])) : Host.Outcome State Fault Refusal) := fun h => by
    rw [h, placeReply_refuse]
  have node_eq : (leaveCommand s).node = s.node := leaveCommand_node s
  refine ⟨fun serving => refused (if_pos ((leaveCommand_service s).trans serving)), fun config => ?_⟩
  have config' : (leaveCommand s).service = .configuration := (leaveCommand_service s).trans config
  have uses := fun yes => endpointBody_uses (e := e) (d := w.data) config' yes
  rw [node_eq] at uses
  refine ⟨fun bad => refused ?_, fun inUse node role place fields => ⟨fun used held => ?_, fun free => ?_⟩⟩
  · rcases bad with noFlag | ⟨yes, bad⟩
    · unfold endpointBody
      rw [if_neg (by rw [config']; decide), flagOf_eq_none noFlag]
    · obtain ⟨badNode, goodNode⟩ := uses yes
      by_cases wrong : (byteAt w.data 1).toNat = 0 ∨ 127 ≤ (byteAt w.data 1).toNat ∨ (byteAt w.data 1).toNat = s.node.toNat
      · exact badNode wrong
      · rw [not_or, not_or] at wrong
        obtain ⟨zero, all, own⟩ := wrong
        have hnode : (BitVec.ofNat 7 (byteAt w.data 1).toNat : Node).toNat = (byteAt w.data 1).toNat := by
          rw [BitVec.toNat_ofNat]; omega
        obtain ⟨noRole, withRole⟩ := goodNode (BitVec.ofNat 7 (byteAt w.data 1).toNat) hnode
          (fun h => by rw [h] at hnode; exact zero hnode.symm)
          (fun h => by rw [h] at hnode; exact all (le_of_eq hnode))
          (fun h => by rw [h] at hnode; exact own hnode.symm)
        cases hrole : roleOf (byteAt w.data 2) with
        | none => exact noRole hrole
        | some role =>
          refine (withRole role hrole).1 (placeOf_eq_none ?_)
          rcases bad with h | h | h | h | ⟨-, h⟩ | ⟨light, h⟩
          · exact absurd h zero
          · exact absurd h all
          · exact absurd h own
          · rw [roleOf_eq_none h] at hrole
            exact nomatch hrole
          · exact .inl h
          · rw [light] at hrole
            exact .inr ⟨(Option.some.inj hrole).symm, h⟩
  · rcases fields with ⟨-, unused, -⟩ | ⟨yes, -, same, zero, all, own, hrole, hplace, gate⟩
    · rw [unused] at used; exact nomatch used
    · refine refused ((((((uses yes).2 node same zero all own).2 role hrole).2 place (placeOf_eq_some hplace gate)).1 ?_))
      rw [left]
      exact nodeHeld_iff.mpr held
  · have passes : endpointBody e w.data (leaveCommand s) = written false e.val (putEndpoint e inUse node role place (leaveCommand s)) := by
      rcases fields with ⟨no, rfl, rfl, rfl, rfl⟩ | ⟨yes, rfl, same, zero, all, own, hrole, hplace, gate⟩
      · exact endpointBody_clears config' no
      · refine ((((uses yes).2 node same zero all own).2 role hrole).2 place (placeOf_eq_some hplace gate)).2 ?_
        rw [Bool.eq_false_iff, ne_eq, left]
        intro held
        obtain ⟨x, ne, used, node_x⟩ := nodeHeld_iff.mp held
        exact free.resolve_left (by decide) x ne used node_x
    obtain ⟨faults, eq, own, others⟩ := putEndpoint_eq e inUse node role place (leaveCommand s)
    rw [passes, placeReply_written (s := s) _ _ _ (by rw [eq]; exact leaveCommand_replies s) (by rw [eq]; exact leaveCommand_node s), eq, left]
    refine ⟨_, rfl, ?_, own, fun f other => (others f other).trans (by rw [left]; rfl), rfl⟩
    rw [State.answered, left]
    rfl

end Sys2Proof.Machine
end

section
/-! Chains of releases, completions and drops: the commanded power of the endpoints they touch, and the POWER directives they send
(R39, R40, R41, R98, R100). -/

namespace Sys2Proof.Machine

/-! ### Commanded power worked out (R39) -/

section
variable {s t : State} {z y : ZoneId} {e x : EndpointId}

theorem claimant_congr (h : ∀ c, (t.call c).claims z = (s.call c).claims z) : t.claimant z = s.claimant z := by
  simp only [State.claimant, h]

/-- What decides an endpoint's commanded state: its role and place, and the record and claim of the zone that it names. -/
theorem commandedPower_of_zone (role : (t.endpoint e).role = (s.endpoint e).role) (place : (t.endpoint e).place = (s.endpoint e).place)
    (service : t.service = s.service) (now : t.now = s.now) (zone : t.zone (s.endpoint e).place = s.zone (s.endpoint e).place)
    (claim : (t.claimant (s.endpoint e).place).isSome = (s.claimant (s.endpoint e).place).isSome) :
    t.commandedPower e = s.commandedPower e := by
  simp only [State.commandedPower, role, place, service, now, zone, claim]

/-- What keeps the endpoints of a zone at the state of Table 2-5. -/
theorem State.PowerWorkedOut.congr (worked : s.PowerWorkedOut z) (endpoints : t.endpoints = s.endpoints) (service : t.service = s.service)
    (now : t.now = s.now) (zone : t.zone z = s.zone z) (claim : (t.claimant z).isSome = (s.claimant z).isSome) :
    t.PowerWorkedOut z := by
  intro e named used place
  have entry : t.endpoint e = s.endpoint e := by simp only [State.endpoint, endpoints]
  rw [entry] at used place ⊢
  rw [zone] at named
  rw [worked e named used place]
  exact (commandedPower_of_zone (by rw [entry]) (by rw [entry]) service now (by rw [place]; exact zone) (by rw [place]; exact claim)).symm

theorem State.PowerWorkedOut.recommand (worked : s.PowerWorkedOut z) (e : EndpointId) : (recommand e s).PowerWorkedOut z := by
  intro x named used place
  have entry := still_endpoint (recommand_still s e) x
  have zone : (Machine.recommand e s).zone z = s.zone z := by
    obtain ⟨es, ds, eq⟩ := recommand_eq e s
    rw [eq]; rfl
  rw [recommand_commandedPower]
  have used' : (s.endpoint x).inUse = true := (congrArg Endpoint.inUse entry).symm.trans used
  by_cases same : x = e
  · subst same; exact recommand_commanded used'
  · rw [recommand_other same]
    exact worked x (by rwa [zone] at named) used' ((congrArg Endpoint.place entry).symm.trans place)

theorem State.PowerWorkedOut.recommandZone (worked : s.PowerWorkedOut z) (y : ZoneId) : (recommandZone y s).PowerWorkedOut z := by
  have step : ∀ (o : Option EndpointId) (u : State), u.PowerWorkedOut z → (whenSome o Machine.recommand u).PowerWorkedOut z := by
    intro o u h
    cases o with
    | none => exact h
    | some e => exact h.recommand e
  exact step _ _ (step _ _ worked)

theorem recommandZone_worksOut (z : ZoneId) (s : State) : (recommandZone z s).PowerWorkedOut z := by
  intro e named used _
  rw [recommandZone_zone] at named
  exact recommandZone_commanded named ((congrArg Endpoint.inUse (still_endpoint (recommandZone_still s z) e)).symm.trans used)

/-! ### Releases (R40) -/

theorem afterRelease_def (z : ZoneId) (s : State) : afterRelease z s = recommandZone z (modZone z (fun r => r.released s.now) s) := by
  unfold afterRelease
  refine congrArg (fun f => recommandZone z (modZone z f s)) (funext fun r => ?_)
  unfold Zone.released
  cases h : r.idlePolicy <;> simp

theorem afterRelease_eq (z : ZoneId) (s : State) : ∃ es ds, afterRelease z s =
    { s with zones := s.zones.set z ((s.zone z).released s.now), endpoints := es, directives := ds } := by
  obtain ⟨es, ds, eq⟩ := recommandZone_eq z (modZone z (fun r => r.released s.now) s)
  exact ⟨es, ds, by rw [afterRelease_def, eq]; rfl⟩

theorem afterRelease_worksOut (z : ZoneId) (s : State) : (afterRelease z s).PowerWorkedOut z := by
  rw [afterRelease_def]; exact recommandZone_worksOut _ _

theorem State.PowerWorkedOut.modZone_other (worked : s.PowerWorkedOut z) (ne : z ≠ y) (f : Zone → Zone) : (modZone y f s).PowerWorkedOut z :=
  worked.congr rfl rfl rfl (by rw [modZone_zone, if_neg ne]) rfl

theorem State.PowerWorkedOut.afterRelease (worked : s.PowerWorkedOut z) (y : ZoneId) : (afterRelease y s).PowerWorkedOut z := by
  by_cases same : z = y
  · subst same; exact afterRelease_worksOut z s
  · rw [afterRelease_def]
    exact (worked.modZone_other same _).recommandZone y

theorem Zone.released_released (r : Zone) (now : Nat) : (r.released now).released now = r.released now := by
  unfold Zone.released
  by_cases h : r.idlePolicy = .callsOnly <;> simp [h]

/-- The release of several zones: the idle deadlines of exactly those zones, endpoint records and directives. -/
theorem releases_eq (l : List ZoneId) (s : State) : ∃ zs es ds, forEach l afterRelease s =
      { s with zones := zs, endpoints := es, directives := ds } ∧
    ∀ y, zs[y] = if y ∈ l then (s.zone y).released s.now else s.zone y := by
  induction l generalizing s with
  | nil => exact ⟨s.zones, s.endpoints, s.directives, rfl, fun y => rfl⟩
  | cons a l ih =>
    obtain ⟨es₀, ds₀, first⟩ := afterRelease_eq a s
    obtain ⟨zs, es, ds, eq, zone⟩ := ih (afterRelease a s)
    refine ⟨zs, es, ds, by rw [forEach_cons, eq, first], fun y => ?_⟩
    have entry : (afterRelease a s).zone y = if y = a then (s.zone a).released s.now else s.zone y := by
      rw [first]; exact vector_set_get _ _ _ _
    rw [zone y, entry, show (afterRelease a s).now = s.now by rw [first]]
    by_cases same : y = a
    · subst same
      simp [Zone.released_released]
    · simp [same]

theorem releases_workOut (l : List ZoneId) (s : State) (h : z ∈ l ∨ s.PowerWorkedOut z) : (forEach l afterRelease s).PowerWorkedOut z := by
  induction l generalizing s with
  | nil => exact h.resolve_left List.not_mem_nil
  | cons a l ih =>
    rw [forEach_cons]
    refine ih _ ?_
    rcases h with h | h
    · rcases List.mem_cons.mp h with rfl | h
      · exact .inr (afterRelease_worksOut _ s)
      · exact .inl h
    · exact .inr (h.afterRelease a)

end

/-! ### POWER sent (R41) -/

/-- The POWER directive of an endpoint with its commanded state. -/
def State.powerDirective (s : State) (e : EndpointId) : Directive :=
  { endpoint := e, code := .power, dest := (s.endpoint e).node, value := powerCode (s.endpoint e).commanded }

/-- From `s` to `t`, at one moment, no endpoint record changes but in its commanded state and its last POWER, every changed commanded state
of a PRESENT endpoint is sent in SERVICE, and what was sent for an unchanged one still waits. -/
structure Sends (s t : State) : Prop where
  now : t.now = s.now
  service : t.service = s.service
  endpoint : ∀ e, (t.endpoint e).still = (s.endpoint e).still
  sent : s.service = .service → s.PowerSent t
  kept : s.service = .service → ∀ e, (s.endpoint e).presence = .present → (t.endpoint e).commanded = (s.endpoint e).commanded →
    ((t.endpoint e).lastPower = (s.endpoint e).lastPower ∨ (t.endpoint e).lastPower = some s.now) ∧
    (s.powerDirective e ∈ s.directives → t.powerDirective e ∈ t.directives)

namespace Sends
variable {s t u : State}

theorem node (h : Sends s t) (e : EndpointId) : (t.endpoint e).node = (s.endpoint e).node := (congrArg Endpoint.node (h.endpoint e) :)

theorem presence (h : Sends s t) (e : EndpointId) : (t.endpoint e).presence = (s.endpoint e).presence :=
  (congrArg Endpoint.presence (h.endpoint e) :)

/-- A change that touches no endpoint record, and of the directive queue nothing but its other directives. -/
theorem of_directives (now : t.now = s.now) (service : t.service = s.service) (endpoints : t.endpoints = s.endpoints)
    (directives : ∀ d ∈ s.directives, d.code = .power → d ∈ t.directives) : Sends s t := by
  have entry : ∀ e, t.endpoint e = s.endpoint e := fun e => by simp only [State.endpoint, endpoints]
  refine ⟨now, service, fun e => by rw [entry], fun _ e new => absurd (by rw [entry]) new, fun _ e _ _ => ⟨.inl (by rw [entry]), fun h => ?_⟩⟩
  unfold State.powerDirective at h ⊢
  rw [entry]
  exact directives _ h rfl

theorem of_same (now : t.now = s.now) (service : t.service = s.service) (endpoints : t.endpoints = s.endpoints)
    (directives : t.directives = s.directives) : Sends s t :=
  of_directives now service endpoints fun _ h _ => directives ▸ h

theorem refl (s : State) : Sends s s := of_same rfl rfl rfl rfl

theorem trans (h : Sends s t) (g : Sends t u) : Sends s u := by
  refine ⟨g.now.trans h.now, g.service.trans h.service, fun e => (g.endpoint e).trans (h.endpoint e), fun serving e new present => ?_,
    fun serving e present same => ?_⟩
  · have serving' := h.service.trans serving
    have present' := (h.presence e).trans present
    by_cases last : (u.endpoint e).commanded = (t.endpoint e).commanded
    · rw [last] at new
      obtain ⟨power, waits⟩ := h.sent serving e new present
      obtain ⟨power', waits'⟩ := g.kept serving' e present' last
      refine ⟨power'.elim (fun same => same.trans power) fun now => now.trans (congrArg some h.now), ?_⟩
      have there := waits' (by unfold State.powerDirective; rw [h.node e]; exact waits)
      unfold State.powerDirective at there
      rwa [g.node e, h.node e] at there
    · obtain ⟨power, waits⟩ := g.sent serving' e last present'
      rw [h.now] at power
      rw [h.node e] at waits
      exact ⟨power, waits⟩
  · have serving' := h.service.trans serving
    have present' := (h.presence e).trans present
    by_cases last : (u.endpoint e).commanded = (t.endpoint e).commanded
    · obtain ⟨power, waits⟩ := h.kept serving e present (last.symm.trans same)
      obtain ⟨power', waits'⟩ := g.kept serving' e present' last
      refine ⟨?_, fun here => waits' (waits here)⟩
      rcases power' with power' | power'
      · rw [power']; exact power
      · exact .inr (power'.trans (congrArg some h.now))
    · obtain ⟨power, waits⟩ := g.sent serving' e last present'
      rw [h.now] at power
      refine ⟨.inr power, fun _ => ?_⟩
      unfold State.powerDirective
      rwa [g.node e]

theorem forEach {α : Type} {f : α → State → State} (h : ∀ a s, Sends s (f a s)) (l : List α) (s : State) : Sends s (forEach l f s) :=
  forEach_invariant (P := Sends s) s (fun a _ g => g.trans (h a _)) l (refl s)

theorem whenSome {α : Type} {f : α → State → State} (h : ∀ a s, Sends s (f a s)) (o : Option α) (s : State) :
    Sends s (whenSome o f s) := by
  cases o with
  | none => exact refl s
  | some a => exact h a s

theorem ite {p : Prop} [Decidable p] (h : Sends s t) (g : Sends s u) : Sends s (if p then t else u) := by
  split
  · exact h
  · exact g

end Sends

section
variable (s : State)

theorem modZone_sends (z : ZoneId) (f : Zone → Zone) : Sends s (modZone z f s) := .of_same rfl rfl rfl rfl
theorem modCall_sends (c : CallId) (f : Call → Call) : Sends s (modCall c f s) := .of_same rfl rfl rfl rfl
theorem modGate_sends (g : GateId) (f : Gate → Gate) : Sends s (modGate g f s) := .of_same rfl rfl rfl rfl
theorem modLoop_sends (l : ParamId) (f : LoopRecord → LoopRecord) : Sends s (modLoop l f s) := .of_same rfl rfl rfl rfl
theorem setFault_sends (f : FaultRef) (r : FaultRecord) : Sends s (setFault f r s) := .of_same rfl rfl rfl rfl

/-- An event as what it makes of the queue (R141). -/
theorem pushEvent_eq (n : Node) (code : Byte) (p : List Byte) :
    pushEvent n code p s = { s with events := s.eventsWith n (ownRecord s n 0x04 code p) } := by
  unfold State.eventsWith
  rcases pushEvent_cases n code p s with ⟨node, room, eq⟩ | ⟨lost, eq⟩
  · rw [eq, if_neg fun h => h.elim node (Nat.not_le.mpr room)]
  · rw [eq, if_pos lost]

theorem pushEvent_sends (n : Node) (code : Byte) (p : List Byte) : Sends s (pushEvent n code p s) := by
  rw [pushEvent_eq]; exact .of_same rfl rfl rfl rfl

theorem recommand_step (e : EndpointId) : Sends s (recommand e s) := by
  by_cases same : (s.endpoint e).inUse = false ∨ s.commandedPower e = (s.endpoint e).commanded
  · rw [recommand_same same]; exact .refl s
  rw [not_or, Bool.not_eq_false] at same
  obtain ⟨used, new⟩ := same
  by_cases quiet : s.service = .configuration ∨ (s.endpoint e).presence ≠ .present
  · have eq := recommand_quiet used new quiet
    generalize recommand e s = t at eq
    have entry : ∀ x, t.endpoint x = if x = e then { s.endpoint e with commanded := s.commandedPower e } else s.endpoint x := by
      rw [eq]; exact fun x => vector_set_get _ _ _ _
    have silent : ∀ x, s.service = .service → (s.endpoint x).presence = .present → t.endpoint x = s.endpoint x := by
      intro x serving present
      rw [entry, if_neg]
      rintro rfl
      exact quiet.elim (fun config => by rw [serving] at config; exact nomatch config) fun absent => absent present
    refine ⟨by rw [eq], by rw [eq], fun x => ?_, fun serving x changed present => absurd (by rw [silent x serving present]) changed,
      fun serving x present _ => ⟨.inl (by rw [silent x serving present]), fun waits => ?_⟩⟩
    · rw [entry]; split
      · next h => subst h; rfl
      · rfl
    · unfold State.powerDirective at waits ⊢
      rw [silent x serving present, eq]
      exact waits
  · rw [not_or, not_not] at quiet
    have serving : s.service = .service := by
      cases h : s.service with
      | configuration => exact absurd h quiet.1
      | service => rfl
    have eq := recommand_sends used new serving quiet.2
    generalize recommand e s = t at eq
    have entry : ∀ x, t.endpoint x =
        if x = e then { s.endpoint e with commanded := s.commandedPower e, lastPower := some s.now } else s.endpoint x := by
      rw [eq]; exact fun x => vector_set_get _ _ _ _
    have directives : t.directives = joinDirective
      { endpoint := e, code := .power, dest := (s.endpoint e).node, value := powerCode (s.commandedPower e) } s.directives := by rw [eq]
    refine ⟨by rw [eq], by rw [eq], fun x => ?_, fun _ x changed _ => ?_, fun _ x _ unchanged => ?_⟩
    · rw [entry]; split
      · next h => subst h; rfl
      · rfl
    · by_cases h : x = e
      · subst h
        rw [entry, if_pos rfl, directives]
        exact ⟨rfl, mem_joinDirective_self _ _⟩
      · rw [entry, if_neg h] at changed
        exact absurd rfl changed
    · by_cases h : x = e
      · subst h
        rw [entry, if_pos rfl] at unchanged
        exact absurd unchanged new
      · unfold State.powerDirective
        rw [entry, if_neg h, directives]
        refine ⟨.inl rfl, fun waits => mem_joinDirective_of_ne (fun same => ?_) waits⟩
        exact h (congrArg Prod.fst same).symm

theorem recommandZone_sends (z : ZoneId) : Sends s (recommandZone z s) :=
  (Sends.whenSome (fun e u => recommand_step u e) _ s).trans (.whenSome (fun e u => recommand_step u e) _ _)

theorem afterRelease_sends (z : ZoneId) : Sends s (afterRelease z s) := by
  rw [afterRelease_def]
  exact (modZone_sends s z _).trans (recommandZone_sends _ z)

theorem endCandidate_sends (z : ZoneId) : Sends s (endCandidate z s) := .whenSome (fun l u => modLoop_sends u l _) _ s

/-! ### The completion of a call (R100) -/

theorem reportCompletion_external {r : Call} {n : Node} (h : r.origin = .external n) (c : CallId) (out : CallOutcome) (d m : ZoneSet) :
    reportCompletion r c out d m s = { s with events := s.eventsWith n (s.completionEvent n r.tag out d m) } := by
  unfold reportCompletion
  rw [h]
  exact pushEvent_eq s _ _ _

theorem reportCompletion_gate {r : Call} {g : GateId} (h : r.origin = .gate g) (c : CallId) (out : CallOutcome) (d m : ZoneSet) :
    reportCompletion r c out d m s = { s with
      events := s.eventsWith s.config.eventNode (s.admissionEvent g out d m)
      gates := s.gates.set g { s.gate g with
        admissionCall := if (s.gate g).admissionCall = some c then none else (s.gate g).admissionCall } } := by
  unfold reportCompletion
  rw [h]
  simp only
  unfold reportAdmission
  rw [pushEvent_eq]
  have record : ∀ r : Gate, (if r.admissionCall = some c then { r with admissionCall := none } else r) =
      { r with admissionCall := if r.admissionCall = some c then none else r.admissionCall } := by
    intro r
    split <;> rfl
  simp only [record]
  rfl

/-- The report of a completion touches the event queue and the gates alone. -/
theorem reportCompletion_eq (r : Call) (c : CallId) (out : CallOutcome) (d m : ZoneSet) : ∃ es gs,
    reportCompletion r c out d m s = { s with events := es, gates := gs } := by
  cases h : r.origin with
  | external n => exact ⟨_, s.gates, reportCompletion_external s h c out d m⟩
  | gate g => exact ⟨_, _, reportCompletion_gate s h c out d m⟩

theorem reportCompletion_sends (r : Call) (c : CallId) (out : CallOutcome) (d m : ZoneSet) : Sends s (reportCompletion r c out d m s) := by
  obtain ⟨_, _, eq⟩ := reportCompletion_eq s r c out d m
  rw [eq]; exact .of_same rfl rfl rfl rfl

theorem completeCall_sends (c : CallId) (why : Ending) : Sends s (completeCall c why s) :=
  (modCall_sends s c _).trans ((Sends.forEach (fun z u => afterRelease_sends u z) _ _).trans (reportCompletion_sends _ _ _ _ _ _))

/-- A completion: the record FREE, the zones released, the report. -/
theorem completeCall_eq (c : CallId) (why : Ending) : ∃ zs es ds, completeCall c why s =
      reportCompletion (s.call c) c ((s.call c).finalOutcome why) (s.call c).reportDelivered (s.call c).reportMissed
        { s with calls := s.calls.set c {}, zones := zs, endpoints := es, directives := ds } ∧
    ∀ y, zs[y] = if (s.call c).reportDelivered.getLsbD y.val then (s.zone y).released s.now else s.zone y := by
  obtain ⟨zs, es, ds, eq, zone⟩ := releases_eq (zonesOf (s.call c).reportDelivered) (modCall c (fun _ => {}) s)
  refine ⟨zs, es, ds, ?_, fun y => ?_⟩
  · unfold completeCall
    simp only
    rw [eq]
    rfl
  · rw [zone y]
    simp only [mem_zonesOf]
    rfl

/-- A completion of a call that releases no zone. -/
theorem completeCall_quiet {c : CallId} (why : Ending) (h : (s.call c).reportDelivered = 0) : completeCall c why s =
    reportCompletion (s.call c) c ((s.call c).finalOutcome why) 0 (s.call c).reportMissed { s with calls := s.calls.set c {} } := by
  unfold completeCall
  simp only
  rw [h, zonesOf_zero]
  rfl

/-- What the report of a completion leaves of the zones' power. -/
theorem reportCompletion_workedOut {z : ZoneId} (worked : s.PowerWorkedOut z) (r : Call) (c : CallId) (out : CallOutcome)
    (d m : ZoneSet) : (reportCompletion r c out d m s).PowerWorkedOut z := by
  obtain ⟨_, _, eq⟩ := reportCompletion_eq s r c out d m
  rw [eq]; exact worked.congr rfl rfl rfl rfl rfl

theorem completeCall_worksOut {c : CallId} {z : ZoneId} (why : Ending) (h : (s.call c).reportDelivered.getLsbD z.val = true) :
    (completeCall c why s).PowerWorkedOut z :=
  reportCompletion_workedOut _ (releases_workOut _ _ (.inl (mem_zonesOf.mpr h))) _ _ _ _ _

/-- A completion keeps the power of a zone that its call did not hold. -/
theorem completeCall_workedOut {c : CallId} {z : ZoneId} (why : Ending) (worked : s.PowerWorkedOut z)
    (h : (s.call c).claims z = false) : (completeCall c why s).PowerWorkedOut z := by
  refine reportCompletion_workedOut _ (releases_workOut _ _ (.inr ?_)) _ _ _ _ _
  refine worked.congr rfl rfl rfl rfl (congrArg Option.isSome (claimant_congr fun d => ?_))
  rw [modCall_call]
  split
  · next same => subst same; rw [h]; exact claims_of_free (.inl rfl)
  · rfl

end

end Sys2Proof.Machine
end

section
/-! The endings of calls on time (R95, R96, R97, R99, R100). -/

namespace Sys2Proof.Machine

/-! ### Runs over distinct subjects -/

/-- A run of changes that each reach the view of their own subject alone: the view of a subject is what its own change makes of it, from a
state that agrees with the first in that view and in whatever every change keeps. -/
theorem forEach_own {ι β γ : Type} {l : List ι} (distinct : l.Nodup) {f : ι → State → State} (view : ι → State → β) (keep : State → γ)
    (other : ∀ a x s, x ≠ a → view x (f a s) = view x s) (keeps : ∀ a s, keep (f a s) = keep s) (s : State) (x : ι) :
    (x ∉ l → view x (forEach l f s) = view x s) ∧
    (x ∈ l → ∃ u, view x u = view x s ∧ keep u = keep s ∧ view x (forEach l f s) = view x (f x u)) := by
  induction l generalizing s with
  | nil => exact ⟨fun _ => rfl, fun h => absurd h List.not_mem_nil⟩
  | cons a l ih =>
    obtain ⟨new, rest⟩ := List.nodup_cons.mp distinct
    obtain ⟨out, inside⟩ := ih rest (f a s)
    rw [forEach_cons]
    refine ⟨fun h => ?_, fun h => ?_⟩
    · rw [List.mem_cons, not_or] at h
      rw [out h.2, other a x s h.1]
    · rcases List.mem_cons.mp h with rfl | h
      · exact ⟨s, rfl, rfl, out new⟩
      · obtain ⟨u, same, kept, eq⟩ := inside h
        have ne : x ≠ a := fun e => new (e ▸ h)
        exact ⟨u, same.trans (other a x s ne), kept.trans (keeps a s), eq⟩

/-! ### What a completion leaves -/

section
variable {s t : State} {c d : CallId} {n : Node}

theorem set_call (c d : CallId) (r : Call) (s : State) : (s.calls.set c r)[d] = if d = c then r else s.call d := vector_set_get _ _ _ _

theorem completeCall_calls (c : CallId) (why : Ending) (s : State) : (completeCall c why s).calls = s.calls.set c {} := by
  obtain ⟨_, _, _, eq, -⟩ := completeCall_eq s c why
  obtain ⟨_, _, report⟩ := reportCompletion_eq _ (s.call c) c _ _ _
  rw [eq, report]

theorem completeCall_call (c d : CallId) (why : Ending) (s : State) :
    (completeCall c why s).call d = if d = c then {} else s.call d := by
  unfold State.call
  rw [completeCall_calls]
  exact set_call c d {} s

theorem completeCall_zone (c : CallId) (why : Ending) (s : State) (z : ZoneId) : (completeCall c why s).zone z =
    if (s.call c).reportDelivered.getLsbD z.val then (s.zone z).released s.now else s.zone z := by
  obtain ⟨_, _, _, eq, zone⟩ := completeCall_eq s c why
  obtain ⟨_, _, report⟩ := reportCompletion_eq _ (s.call c) c _ _ _
  rw [eq, report]
  exact zone z

theorem completeCall_faults (c : CallId) (why : Ending) (s : State) : (completeCall c why s).faults = s.faults :=
  congrArg Prod.fst (completeCall_unclaimed s c why)

theorem completeCall_events (origin : (s.call c).origin = .external n) (why : Ending) : (completeCall c why s).events =
    s.eventsWith n (s.completionEvent n (s.call c).tag ((s.call c).finalOutcome why) (s.call c).reportDelivered
      (s.call c).reportMissed) := by
  obtain ⟨_, _, _, eq, -⟩ := completeCall_eq s c why
  rw [eq, reportCompletion_external _ origin]
  rfl

theorem completeCall_gates (origin : (s.call c).origin = .external n) (why : Ending) : (completeCall c why s).gates = s.gates := by
  obtain ⟨_, _, _, eq, -⟩ := completeCall_eq s c why
  rw [eq, reportCompletion_external _ origin]

theorem reportDelivered_eq {r : Call} (h : r.state ≠ .pending) : r.reportDelivered = r.delivered := if_neg h

theorem reportMissed_eq {r : Call} (h : r.state ≠ .pending) : r.reportMissed = r.missed := if_neg h

theorem finalOutcome_computed {r : Call} (h : r.state ≠ .pending) : r.finalOutcome .computed =
    r.outcome.getD (if r.delivered = 0 then .notDelivered else if r.missed = 0 then .delivered else .partialDelivery) := by
  unfold Call.finalOutcome
  rw [reportDelivered_eq h, reportMissed_eq h]
  rfl

/-- A PENDING call that completes for an EXTERNAL requester. -/
theorem completeCall_pending (pending : (s.call c).state = .pending) (origin : (s.call c).origin = .external n) (why : Ending) :
    completeCall c why s = { s with
      calls := s.calls.set c {}
      events := s.eventsWith n (s.completionEvent n (s.call c).tag ((s.call c).finalOutcome why) 0 (s.call c).target) } := by
  have none_ : (s.call c).reportDelivered = 0 := if_pos pending
  have all : (s.call c).reportMissed = (s.call c).target := if_pos pending
  rw [completeCall_quiet s why none_, reportCompletion_external _ origin, all]
  rfl

/-! ### Entering TAIL (R97) -/

theorem enterTail_stays (h : s.config.tailTime ≠ 0) (fixed : Option CallOutcome) :
    enterTail c fixed s = { s with calls := s.calls.set c ((s.call c).inTail s.config.tailTime fixed) } := if_neg h

theorem enterTail_completes (h : s.config.tailTime = 0) (fixed : Option CallOutcome) :
    enterTail c fixed s = completeCall c .computed { s with calls := s.calls.set c ((s.call c).inTail s.config.tailTime fixed) } :=
  if_pos h

theorem inTail_call (fixed : Option CallOutcome) : ({ s with calls := s.calls.set c ((s.call c).inTail s.config.tailTime fixed) } : State).call c =
    (s.call c).inTail s.config.tailTime fixed := (set_call c c _ s).trans (if_pos rfl)

theorem enterTail_call (c d : CallId) (fixed : Option CallOutcome) (s : State) : (enterTail c fixed s).call d =
    if d = c then (if s.config.tailTime = 0 then {} else (s.call c).inTail s.config.tailTime fixed) else s.call d := by
  by_cases zero : s.config.tailTime = 0
  · rw [enterTail_completes zero, completeCall_call, if_pos zero]
    split
    · rfl
    · next ne => exact (set_call c d _ s).trans (if_neg ne)
  · rw [enterTail_stays zero, if_neg zero]
    exact set_call c d _ s

/-- What the completion of a running EXTERNAL call leaves, all at once. -/
theorem completeCall_running (serving : s.service = .service) (origin : (s.call c).origin = .external n)
    (running : (s.call c).state ≠ .pending) (ht : t = completeCall c .computed s) :
    t.calls = s.calls.set c {} ∧
    t.events = s.eventsWith n (s.completionEvent n (s.call c).tag
      ((s.call c).outcome.getD (if (s.call c).delivered = 0 then .notDelivered
        else if (s.call c).missed = 0 then .delivered else .partialDelivery)) (s.call c).delivered (s.call c).missed) ∧
    (∀ z : ZoneId, t.zone z = (if (s.call c).delivered.getLsbD z.val then (s.zone z).released s.now else s.zone z) ∧
      ((s.call c).delivered.getLsbD z.val = true → t.PowerWorkedOut z)) ∧
    s.PowerSent t ∧ t.faults = s.faults ∧ t.gates = s.gates ∧ t.still = s.still := by
  subst ht
  have delivered := reportDelivered_eq running
  refine ⟨completeCall_calls c _ s, ?_, fun z => ⟨?_, fun held => ?_⟩, (completeCall_sends s c _).sent serving,
    completeCall_faults c _ s, completeCall_gates origin _, completeCall_still s c _⟩
  · rw [completeCall_events origin, finalOutcome_computed running, delivered, reportMissed_eq running]
  · rw [completeCall_zone, delivered]
  · exact completeCall_worksOut s _ (by rwa [delivered])

/-- What a tail time of 0 leaves of an EXTERNAL call that enters TAIL, all at once. -/
theorem enterTail_zero (serving : s.service = .service) (origin : (s.call c).origin = .external n) (zero : s.config.tailTime = 0)
    (fixed : Option CallOutcome) (ht : t = enterTail c fixed s) :
    t.calls = s.calls.set c {} ∧
    t.events = s.eventsWith n (s.completionEvent n (s.call c).tag
      ((fixed.or (s.call c).outcome).getD (if (s.call c).delivered = 0 then .notDelivered
        else if (s.call c).missed = 0 then .delivered else .partialDelivery)) (s.call c).delivered (s.call c).missed) ∧
    (∀ z : ZoneId, t.zone z = (if (s.call c).delivered.getLsbD z.val then (s.zone z).released s.now else s.zone z) ∧
      ((s.call c).delivered.getLsbD z.val = true → t.PowerWorkedOut z)) ∧
    Sends s t ∧ t.faults = s.faults ∧ t.gates = s.gates ∧ t.still = s.still := by
  have entry := inTail_call (s := s) (c := c) fixed
  have inTail : Sends s { s with calls := s.calls.set c ((s.call c).inTail s.config.tailTime fixed) } := .of_same rfl rfl rfl rfl
  obtain ⟨u, hu⟩ : ∃ u : State, u = { s with calls := s.calls.set c ((s.call c).inTail s.config.tailTime fixed) } := ⟨_, rfl⟩
  rw [← hu] at entry inTail
  have done : t = completeCall c .computed u := by rw [ht, enterTail_completes zero, hu]
  obtain ⟨calls, events, zones, -, faults, gates, still⟩ := completeCall_running (n := n) (inTail.service.trans serving)
    (by rw [entry]; exact origin) (by rw [entry]; exact fun h => nomatch h) done
  rw [entry] at events zones
  have whole := inTail.trans (done ▸ completeCall_sends u c .computed)
  subst hu
  exact ⟨calls.trans (Vector.set_set ..), events, zones, whole, faults, gates, still⟩

/-! ### The tests of the frame boundary (R95, R97, R99) -/

theorem liveOver_iff {slot : Fin 64} {pre : Option MessageId} {r : Call} (h : r.source = .live slot pre) (m : Nat) :
    r.liveOver m = true ↔ m * 1000 ≤ r.liveElapsed := by
  unfold Call.liveOver
  rw [h]
  exact decide_eq_true_iff

theorem isStored_live {slot : Fin 64} {pre : Option MessageId} {r : Call} (h : r.source = .live slot pre) : r.source.isStored = false := by
  rw [h]; rfl

/-- The record of a call after the loss of port A. -/
theorem sourceLoss_call (c : CallId) (s : State) : (sourceLoss s).call c =
    if (s.call c).state = .playing ∧ (s.call c).liveBegun = true ∧ (s.call c).source.isStored = false
    then (if s.config.tailTime = 0 then {} else (s.call c).inTail s.config.tailTime (some .sourceLost)) else s.call c := by
  obtain ⟨u, same, still, eq⟩ := (forEach_own (f := fun c s =>
      if (s.call c).state = .playing ∧ (s.call c).liveBegun ∧ (s.call c).source.isStored = false
      then enterTail c (some .sourceLost) s else s)
    (List.nodup_finRange 16) (fun c s => s.call c) State.still (fun a x u ne => by
      split
      · rw [enterTail_call, if_neg ne]
      · rfl) (fun a u => by split <;> simp) s c).2 (List.mem_finRange c)
  have config : u.config = s.config := by
    obtain ⟨-, -, -, -, -, -, -, -, -, -, -, -, -, -, -, -, config, -⟩ := still_shares still
    exact config
  refine Eq.trans eq ?_
  simp only [same]
  split
  · rw [enterTail_call, if_pos rfl, config, same]
  · exact same

end

/-- Settles O18: the completions of TAIL and PENDING, then the ends of a LIVE call. -/
theorem callsEndOnTime : Obligations.CallsEndOnTime := by
  have done : ∀ {f : State → State} {s : State}, s.service = .service →
      (.next (inService f s) : Host.Outcome State Fault Refusal) = .next (f s) := fun h => congrArg Host.Outcome.next (if_pos h)
  refine ⟨fun c n s serving origin => ⟨fun tail over_ => ?_, fun _ left => ?_, fun pending late => ?_, fun _ early => ?_⟩,
    fun c slot pre s playing source => ⟨fun notYet => ?_, fun serving late => ⟨fun time => ?_, fun n zero origin => ?_⟩,
    fun begun => ?_, fun d other => ?_⟩⟩
  · have run : exec (.tailEnd c) s = .next (completeCall c .computed s) := (done serving).trans (congrArg _ (if_pos ⟨tail, over_⟩))
    obtain ⟨calls, events, zones, sent, faults, gates, still⟩ :=
      completeCall_running serving origin (by rw [tail]; decide) (rfl : completeCall c .computed s = _)
    refine ⟨_, run, calls, events, fun z => ?_, fun z => (zones z).2, sent, faults, gates, still⟩
    rw [(zones z).1, Zone.released]
    by_cases held : (s.call c).delivered.getLsbD z.val = true
    · simp only [held, if_true, true_and]
    · simp only [held, if_false, false_and, Bool.false_eq_true]
  · exact (done serving).trans (congrArg _ (if_neg fun h => left h.2))
  · refine (done serving).trans (congrArg _ ((if_pos ⟨pending, late⟩).trans ?_))
    exact completeCall_pending pending origin _
  · exact (done serving).trans (congrArg _ (if_neg fun h => absurd h.2 (Nat.not_le.mpr early)))
  · rcases notYet with config | early
    · exact congrArg _ (if_neg (by rw [config]; decide))
    · refine congrArg Host.Outcome.next ?_
      have same : liveMaximumTest c s = s := if_neg fun h => absurd ((liveOver_iff source _).mp h.2) (Nat.not_le.mpr early)
      unfold inService
      rw [same, ite_self]
  · refine (done serving).trans (congrArg _ ((if_pos ⟨playing, (liveOver_iff source _).mpr late⟩).trans ?_))
    exact enterTail_stays time none
  · have run : exec (.liveMaximum c) s = .next (enterTail c none s) :=
      (done serving).trans (congrArg _ (if_pos ⟨playing, (liveOver_iff source _).mpr late⟩))
    obtain ⟨calls, events, zones, sends, faults, -, still⟩ := enterTail_zero serving origin zero none rfl
    exact ⟨_, run, calls, events, zones, sends.sent serving, faults, still⟩
  · rw [sourceLoss_call, if_pos ⟨playing, begun, isStored_live source⟩]
  · rw [sourceLoss_call, if_neg]
    rintro ⟨plays, begun, -⟩
    exact other.elim (fun h => h plays) fun h => by rw [begun] at h; exact nomatch h

end Sys2Proof.Machine
end

section
/-! CALL_CANCEL and CALL_END (R88, R89). -/

namespace Sys2Proof.Machine

section
variable {s t : State} {c : CallId} {n : Node} {tag : Byte}

theorem notConfiguration (h : s.service = .service) : ¬ s.service = .configuration := fun config =>
  nomatch (h.symm.trans config : Service.service = .configuration)

theorem tagHolder_test {r : Call} : (r.state != .free && r.tag == tag && (match r.origin with
      | .external _ => true
      | .gate _ => false)) = true ↔ r.state ≠ .free ∧ r.tag = tag ∧ ∃ n, r.origin = .external n := by
  cases r.origin <;> simp

theorem tagHolder_none (h : ∀ c n, (s.call c).state ≠ .free → (s.call c).origin = .external n → (s.call c).tag ≠ tag) :
    s.tagHolder tag = none :=
  find_finRange_none.mpr fun c => by
    rw [← Bool.not_eq_true]
    intro holds
    obtain ⟨busy, same, n, origin⟩ := tagHolder_test.mp holds
    exact h c n busy origin same

theorem tagHolder_some (busy : (s.call c).state ≠ .free) (origin : (s.call c).origin = .external n) (same : (s.call c).tag = tag)
    (only : ∀ d m, d ≠ c → (s.call d).state ≠ .free → (s.call d).origin = .external m → (s.call d).tag ≠ tag) :
    s.tagHolder tag = some c :=
  find_finRange.mpr ⟨tagHolder_test.mpr ⟨busy, same, n, origin⟩, fun d lt => by
    rw [← Bool.not_eq_true]
    intro holds
    obtain ⟨busy', same', m, origin'⟩ := tagHolder_test.mp holds
    exact only d m (ne_of_lt lt) busy' origin' same'⟩

/-- A new reply is all that two states of one `still` then differ in. -/
theorem still_replies (h : t.still = s.still) (replies : List Record) :
    ({ t with replies := replies } : State).still = ({ s with replies := replies } : State).still :=
  congrArg (fun u : State => { u with replies := replies }) h

theorem State.PowerWorkedOut.replies {z : ZoneId} (h : t.PowerWorkedOut z) (rs : List Record) :
    ({ t with replies := rs } : State).PowerWorkedOut z := h.congr rfl rfl rfl rfl rfl

theorem Sends.replies (h : Sends s t) (rs : List Record) : Sends s { t with replies := rs } := h.trans (.of_same rfl rfl rfl rfl)

/-- A reply to a state that shares the node and the replies of another. -/
theorem placeReply_ok (src : Node) (code req : Byte) (still : t.still = s.still) : placeReply src code req (t, .normal .ok []) =
    { t with replies := s.replies ++ [s.reply src code req .ok []] } := by
  obtain ⟨node, -, -, -, -, replies, -⟩ := still_shares still
  rw [placeReply_normal, reply_node node, replies]

/-- What CALL_CANCEL and CALL_END answer for the call that holds the tag. -/
theorem cancelAnswer_tail (h : (s.call c).state = .tail) : cancelAnswer c s = refuse .tooLate s := if_pos h

theorem cancelAnswer_pending (h : (s.call c).state = .pending) : cancelAnswer c s = (completeCall c .cancelled s, .normal .ok []) := by
  simp only [cancelAnswer, cancelCall, h, if_neg (show ¬ CallState.pending = .tail by decide)]

theorem cancelAnswer_running (h : (s.call c).state = .waking ∨ (s.call c).state = .playing) :
    cancelAnswer c s = (enterTail c (some .cancelled) s, .normal .ok []) := by
  rcases h with h | h
  · simp only [cancelAnswer, cancelCall, h, if_neg (show ¬ CallState.waking = .tail by decide)]
  · simp only [cancelAnswer, cancelCall, h, if_neg (show ¬ CallState.playing = .tail by decide)]

/-- The body of a CALL_CANCEL or of a CALL_END, where the tag names a call. -/
theorem callCancelBody_eq (serving : s.service = .service) (holder : s.tagHolder tag = some c) :
    callCancelBody tag s = cancelAnswer c s := by
  unfold callCancelBody
  rw [if_neg (notConfiguration serving), holder]

theorem callEndBody_eq (serving : s.service = .service) (holder : s.tagHolder tag = some c) : callEndBody tag s =
    if (s.call c).source.isStored then refuse .badValue s
    else if (s.call c).state = .playing then (enterTail c none s, .normal .ok []) else cancelAnswer c s := by
  unfold callEndBody
  rw [if_neg (notConfiguration serving), holder]

/-- The body of the one row or the other. -/
def endingBody (i : Instr) (tag : Byte) : State → State × Answer :=
  match i with
  | .callEnd _ _ _ => callEndBody tag
  | _ => callCancelBody tag

theorem exec_ending {src : Node} {req code : Byte} {i : Instr} (ready : s.cueReady i src)
    (row : (i = .callCancel src req tag ∧ code = 0x22) ∨ (i = .callEnd src req tag ∧ code = 0x21)) :
    exec i s = .next (placeReply src code req (endingBody i tag (leaveCue s))) := by
  rcases row with ⟨rfl, rfl⟩ | ⟨rfl, rfl⟩
  · exact congrArg Host.Outcome.next (takeCue_ready ready)
  · exact congrArg Host.Outcome.next (takeCue_ready ready)

/-- The answer of either row, but for the CALL_END of a STORED or PLAYING call. -/
theorem endingBody_cancels {src : Node} {req : Byte} {i : Instr} (row : i = .callCancel src req tag ∨ i = .callEnd src req tag)
    (serving : s.service = .service) (holder : s.tagHolder tag = some c)
    (live : i = .callCancel src req tag ∨ (s.call c).source.isStored = false)
    (other : i = .callCancel src req tag ∨ (s.call c).state ≠ .playing) : endingBody i tag s = cancelAnswer c s := by
  rcases row with rfl | rfl
  · exact callCancelBody_eq serving holder
  · have live' := live.resolve_left fun h => nomatch h
    have other' := other.resolve_left fun h => nomatch h
    refine (callEndBody_eq serving holder).trans ?_
    rw [live', if_neg (by decide), if_neg other']

end

/-- Settles O57, state by state of the call that holds the tag. -/
theorem callCancelAndCallEnd : Obligations.CallCancelAndCallEnd := by
  intro src req tag s i code ready row
  have kind : i = .callCancel src req tag ∨ i = .callEnd src req tag := row.imp And.left And.left
  rw [exec_ending ready row]
  have refused : ∀ {st}, endingBody i tag (leaveCue s) = refuse st (leaveCue s) →
      Host.Outcome.next (placeReply src code req (endingBody i tag (leaveCue s))) =
        (.next (s.answeredCue (s.reply src code req st [])) : Host.Outcome State Fault Refusal) := fun h => by
    rw [h, placeReply_refuse_cue]
  refine ⟨fun config => refused ?_, fun serving => ⟨fun unknown => refused ?_, fun c n busy origin same only => ?_⟩⟩
  · rcases kind with rfl | rfl
    · exact if_pos config
    · exact if_pos config
  · have nobody : (leaveCue s).tagHolder tag = none := tagHolder_none (s := leaveCue s) unknown
    rcases kind with rfl | rfl
    · show callCancelBody tag (leaveCue s) = _
      unfold callCancelBody
      rw [if_neg (notConfiguration (s := leaveCue s) serving), nobody]
    · show callEndBody tag (leaveCue s) = _
      unfold callEndBody
      rw [if_neg (notConfiguration (s := leaveCue s) serving), nobody]
  · have serving' : (leaveCue s).service = .service := serving
    have holder : (leaveCue s).tagHolder tag = some c := tagHolder_some (s := leaveCue s) busy origin same only
    refine ⟨fun ends stored => refused ?_, fun live => ⟨fun tail => refused ?_, fun pending => ?_, fun fixed which => ?_⟩⟩
    · subst ends
      exact (callEndBody_eq serving' holder).trans (if_pos stored)
    · rw [endingBody_cancels kind serving' holder live (.inr fun h => nomatch (tail.symm.trans h : CallState.tail = .playing))]
      exact cancelAnswer_tail (s := leaveCue s) tail
    · rw [endingBody_cancels kind serving' holder live (.inr fun h => nomatch (pending.symm.trans h : CallState.pending = .playing)),
        cancelAnswer_pending (s := leaveCue s) pending, placeReply_ok _ _ _ (completeCall_still (leaveCue s) c _),
        completeCall_pending (s := leaveCue s) pending origin]
      rw [← same]
      rfl
    · have enters : endingBody i tag (leaveCue s) = (enterTail c fixed (leaveCue s), .normal .ok []) := by
        rcases which with ⟨state, rfl⟩ | ⟨playing, rfl, rfl⟩
        · rw [endingBody_cancels kind serving' holder live]
          · exact cancelAnswer_running (s := leaveCue s) (state.imp_right And.left)
          · exact state.elim (fun waking => .inr fun h => nomatch (waking.symm.trans h : CallState.waking = .playing))
              fun h => .inl h.2
        · refine (callEndBody_eq serving' holder).trans ?_
          have notStored : ¬ (s.call c).source.isStored = true := by rw [live.resolve_left fun h => nomatch h]; decide
          exact (if_neg notStored).trans (if_pos playing)
      rw [enters, placeReply_ok _ _ _ (enterTail_still (leaveCue s) c _)]
      refine ⟨fun time => ?_, fun zero => ?_⟩
      · rw [enterTail_stays (s := leaveCue s) time]
        rfl
      · obtain ⟨calls, events, zones, sends, -, -, still⟩ := enterTail_zero (s := leaveCue s) serving' origin zero fixed rfl
        rw [show ((leaveCue s).call c).tag = tag from same] at events
        exact ⟨_, rfl, calls, events, fun z => ⟨(zones z).1, fun held => ((zones z).2 held).replies _⟩,
          (sends.replies _).sent serving, still_replies still _⟩

end Sys2Proof.Machine
end

section
/-! The admission gates (R44, R87, R88, R106 to R113): the directives of their lights, the request and the cancel of their calls. -/

namespace Sys2Proof.Machine

/-! ### What a chain of power changes makes of the directive queue (R41, R142) -/

/-- From `s` to `t` no directive but POWER joins or gives way, and POWER joins for the endpoints of `who` alone. -/
structure PowersOnly (who : EndpointId → Prop) (s t : State) : Prop where
  others : ∀ d ∈ s.directives, d.code ≠ .power → d ∈ t.directives
  fresh : ∀ d ∈ t.directives, d ∈ s.directives ∨ d.code = .power ∧ who d.endpoint

namespace PowersOnly
variable {s t u : State} {who more : EndpointId → Prop}

theorem of_same (h : t.directives = s.directives) : PowersOnly who s t :=
  ⟨fun _ hd _ => h ▸ hd, fun _ hd => .inl (h ▸ hd)⟩

theorem refl (s : State) : PowersOnly who s s := of_same rfl

theorem trans (h : PowersOnly who s t) (g : PowersOnly who t u) : PowersOnly who s u :=
  ⟨fun d hd code => g.others d (h.others d hd code) code, fun d hd => (g.fresh d hd).elim (h.fresh d) .inr⟩

theorem mono (h : PowersOnly who s t) (wider : ∀ e, who e → more e) : PowersOnly more s t :=
  ⟨h.others, fun d hd => (h.fresh d hd).imp_right fun new => ⟨new.1, wider _ new.2⟩⟩

end PowersOnly

section
variable (s : State)

/-- Whether a zone record names an endpoint. -/
def Zone.names (r : Zone) (e : EndpointId) : Prop := r.primary = some e ∨ r.standby = some e

theorem recommand_powersOnly (e : EndpointId) : PowersOnly (· = e) s (recommand e s) := by
  by_cases same : (s.endpoint e).inUse = false ∨ s.commandedPower e = (s.endpoint e).commanded
  · rw [recommand_same same]; exact .refl s
  rw [not_or, Bool.not_eq_false] at same
  by_cases quiet : s.service = .configuration ∨ (s.endpoint e).presence ≠ .present
  · rw [recommand_quiet same.1 same.2 quiet]
    exact .of_same rfl
  · rw [not_or, not_not] at quiet
    have serving : s.service = .service := by
      cases h : s.service with
      | configuration => exact absurd h quiet.1
      | service => rfl
    rw [recommand_sends same.1 same.2 serving quiet.2]
    refine ⟨fun d hd code => mem_joinDirective_of_ne (fun key => code ?_) hd, fun d hd => ?_⟩
    · exact (congrArg Prod.snd key).symm
    · rcases mem_joinDirective hd with rfl | hd
      · exact .inr ⟨rfl, rfl⟩
      · exact .inl hd

theorem recommandZone_powersOnly (z : ZoneId) : PowersOnly (s.zone z).names s (recommandZone z s) := by
  have step : ∀ (o : Option EndpointId) (u : State), PowersOnly (fun e => o = some e) u (whenSome o recommand u) := by
    intro o u
    cases o with
    | none => exact .refl u
    | some e => exact (recommand_powersOnly u e).mono fun x same => congrArg some same.symm
  exact ((step _ s).mono fun e => .inl).trans ((step _ _).mono fun e => .inr)

theorem Zone.released_names (r : Zone) (now : Nat) : (r.released now).names = r.names := by
  unfold Zone.released
  split <;> rfl

theorem afterRelease_powersOnly (z : ZoneId) : PowersOnly (s.zone z).names s (afterRelease z s) := by
  rw [afterRelease_def]
  refine (PowersOnly.of_same (s := s) (t := modZone z (fun r => r.released s.now) s) rfl).trans ((recommandZone_powersOnly _ z).mono fun e named => ?_)
  rwa [modZone_zone, if_pos rfl, Zone.released_names] at named

theorem afterRelease_names (z y : ZoneId) : ((afterRelease z s).zone y).names = (s.zone y).names := by
  obtain ⟨es, ds, eq⟩ := afterRelease_eq z s
  have entry : (afterRelease z s).zone y = if y = z then (s.zone z).released s.now else s.zone y := by
    rw [eq]; exact vector_set_get _ _ _ _
  rw [entry]
  split
  · next same => subst same; exact Zone.released_names _ _
  · rfl

theorem releases_powersOnly (l : List ZoneId) : PowersOnly (fun e => ∃ z ∈ l, (s.zone z).names e) s (forEach l afterRelease s) := by
  induction l generalizing s with
  | nil => exact .refl s
  | cons a l ih =>
    refine ((afterRelease_powersOnly s a).mono fun e named => ⟨a, List.mem_cons_self, named⟩).trans
      ((ih (afterRelease a s)).mono ?_)
    rintro e ⟨z, hz, named⟩
    exact ⟨z, List.mem_cons_of_mem _ hz, by rwa [afterRelease_names] at named⟩

theorem completeCall_powersOnly (c : CallId) (why : Ending) :
    PowersOnly (fun e => ∃ z : ZoneId, (s.call c).reportDelivered.getLsbD z.val = true ∧ (s.zone z).names e) s (completeCall c why s) := by
  have reported : ∀ u : State, (reportCompletion (s.call c) c ((s.call c).finalOutcome why) (s.call c).reportDelivered
      (s.call c).reportMissed u).directives = u.directives := fun u => by
    obtain ⟨_, _, eq⟩ := reportCompletion_eq u (s.call c) c ((s.call c).finalOutcome why) (s.call c).reportDelivered (s.call c).reportMissed
    rw [eq]
  refine PowersOnly.trans ?_ (.of_same (reported _))
  refine (PowersOnly.of_same (s := s) (t := modCall c (fun _ => {}) s) rfl).trans ((releases_powersOnly _ _).mono ?_)
  rintro e ⟨z, hz, named⟩
  exact ⟨z, mem_zonesOf.mp hz, named⟩

theorem enterTail_powersOnly (c : CallId) (fixed : Option CallOutcome) : PowersOnly (fun _ => True) s (enterTail c fixed s) := by
  by_cases zero : s.config.tailTime = 0
  · rw [enterTail_completes zero]
    exact (PowersOnly.of_same (s := s) (t := { s with calls := s.calls.set c ((s.call c).inTail s.config.tailTime fixed) }) rfl).trans
      ((completeCall_powersOnly _ c _).mono fun _ _ => trivial)
  · rw [enterTail_stays zero]
    exact .of_same rfl

theorem cancelCall_powersOnly (c : CallId) : PowersOnly (fun _ => True) s (cancelCall c s) := by
  unfold cancelCall
  split
  · exact (completeCall_powersOnly s c _).mono fun _ _ => trivial
  · exact enterTail_powersOnly s c _
  · exact enterTail_powersOnly s c _
  · exact .refl s
  · exact .refl s

/-! ### LIGHT directives (R42, R44) -/

/-- The LIGHT directive of an endpoint. -/
def State.lightDirective (s : State) (value : Byte) (e : EndpointId) : Directive :=
  { endpoint := e, code := .light, dest := (s.endpoint e).node, value := value }

theorem ushers_iff {r : Endpoint} {g : GateId} : r.ushers g = true ↔ r.inUse = true ∧ r.role = .usherLight ∧ r.place.val = g.val := by
  simp [Endpoint.ushers, and_assoc]

/-- The LIGHT directive that goes to an endpoint, where it is a light of the gate and `sent` lets it go. -/
def State.lightIssued (g : GateId) (sent : State → EndpointId → Bool) (value : Byte) (s : State) (e : EndpointId) : Option Directive :=
  if (s.endpoint e).ushers g = true ∧ sent s e = true then some (s.lightDirective value e) else none

/-- The LIGHT directives that go to the lights of a gate. -/
def State.lightsIssued (g : GateId) (sent : State → EndpointId → Bool) (value : Byte) (s : State) : List Directive :=
  allEndpoints.filterMap (s.lightIssued g sent value)

theorem lightIssued_some {g : GateId} {sent : State → EndpointId → Bool} {value : Byte} {e : EndpointId} {d : Directive} :
    s.lightIssued g sent value e = some d ↔
      ((s.endpoint e).ushers g = true ∧ sent s e = true) ∧ s.lightDirective value e = d := by
  simp [State.lightIssued]

theorem issueLights_eq (g : GateId) (on : Bool) : issueLights g on s = { s with
    directives := joinAll
      (s.lightsIssued g (fun u e => decide (u.service = .service ∧ (u.endpoint e).presence = .present)) (flagByte on)) s.directives } := by
  refine forEach_joinAll s (issued := State.lightIssued g _ (flagByte on)) (fun e u => ?_) (fun e u q => rfl) _
  unfold State.lightIssued
  by_cases light : (u.endpoint e).ushers g = true
  · rw [if_pos light]
    rcases issue_cases e .light (flagByte on) u with ⟨service, present, eq⟩ | ⟨no, eq⟩
    · rw [eq, if_pos ⟨light, decide_eq_true ⟨service, present⟩⟩]; rfl
    · rw [eq, if_neg (fun h => no (of_decide_eq_true h.2))]; rfl
  · rw [if_neg light, if_neg (fun h => light h.1)]; rfl

theorem queueLightsOff_eq (g : GateId) : queueLightsOff g s = { s with
    directives := joinAll (s.lightsIssued g (fun _ _ => true) 0) s.directives } := by
  refine forEach_joinAll s (issued := State.lightIssued g _ 0) (fun e u => ?_) (fun e u q => rfl) _
  unfold State.lightIssued
  by_cases light : (u.endpoint e).ushers g = true
  · rw [if_pos light, if_pos ⟨light, rfl⟩]; rfl
  · rw [if_neg light, if_neg (fun h => light h.1)]; rfl

theorem lightIssued_nodup (g : GateId) (sent : State → EndpointId → Bool) (value : Byte) :
    ((s.lightsIssued g sent value).map Directive.key).Nodup := by
  have own : ∀ {e d}, s.lightIssued g sent value e = some d → d = s.lightDirective value e := fun h => (lightIssued_some s).mp h |>.2.symm
  refine List.Nodup.map_on ?_ ((List.nodup_finRange 48).filterMap ?_)
  · intro d hd x hx same
    obtain ⟨e, -, he⟩ := List.mem_filterMap.mp hd
    obtain ⟨e', -, he'⟩ := List.mem_filterMap.mp hx
    rw [own he, own he'] at same ⊢
    have : e = e' := congrArg Prod.fst same
    rw [this]
  · intro e e' d he he'
    have same := (own (Option.mem_def.mp he)).symm.trans (own (Option.mem_def.mp he'))
    exact congrArg Directive.endpoint same

variable {s}

/-- The LIGHT directives of a gate's lights wait once they were issued, and nothing else is new. -/
theorem issueLights_waits {g : GateId} {e : EndpointId} (serving : s.service = .service) (lit : s.lit e g) (on : Bool) :
    s.lightDirective (flagByte on) e ∈ (issueLights g on s).directives := by
  obtain ⟨used, role, place, present⟩ := lit
  rw [issueLights_eq]
  refine mem_joinAll_self (lightIssued_nodup s g _ _) (List.mem_filterMap.mpr ⟨e, List.mem_finRange e, ?_⟩) _
  exact (lightIssued_some s).mpr ⟨⟨ushers_iff.mpr ⟨used, role, place⟩, decide_eq_true ⟨serving, present⟩⟩, rfl⟩

theorem issueLights_fresh {g : GateId} {on : Bool} {d : Directive} (h : d ∈ (issueLights g on s).directives) :
    d ∈ s.directives ∨ d.code = .light ∧ d.value = flagByte on ∧ s.lit d.endpoint g := by
  rw [issueLights_eq] at h
  refine (mem_joinAll h).imp_right fun new => ?_
  obtain ⟨e, -, he⟩ := List.mem_filterMap.mp new
  obtain ⟨⟨light, sent⟩, rfl⟩ := (lightIssued_some s).mp he
  obtain ⟨used, role, place⟩ := ushers_iff.mp light
  exact ⟨rfl, rfl, used, role, place, (of_decide_eq_true sent).2⟩

end

/-! ### Requesting the admission call (R87, R108) -/

section
variable {s : State} {g : GateId} {c : CallId}

theorem freeCall_none (h : ∀ c, (s.call c).state ≠ .free) : s.freeCall = none :=
  find_finRange_none.mpr fun c => by simp [h c]

theorem freeCall_some (free : (s.call c).state = .free) (lowest : ∀ d, d < c → (s.call d).state ≠ .free) : s.freeCall = some c :=
  find_finRange.mpr ⟨by simp [free], fun d lt => by simp [lowest d lt]⟩

theorem requestAdmission_full (h : s.freeCall = none) : requestAdmission g s = { s with
    events := s.eventsWith s.config.eventNode (s.admissionFailure g .full 0xFF) } := by
  unfold requestAdmission admissionFailed
  rw [h]
  exact pushEvent_eq s _ _ _

theorem requestAdmission_invalid (h : s.freeCall = some c) {before after : List MessageId} {id : MessageId}
    (sequence : (s.gate g).sequence = before ++ id :: after) (invalid : s.validMessage id = false)
    (valid : ∀ x ∈ before, s.validMessage x = true) : requestAdmission g s = { s with
      events := s.eventsWith s.config.eventNode (s.admissionFailure g .badValue (BitVec.ofNat 8 id.val)) } := by
  have first : (s.gate g).sequence.find? (fun id => !s.validMessage id) = some id := by
    rw [sequence, List.find?_eq_some_iff_append]
    exact ⟨by simp [invalid], before, after, rfl, fun x hx => by simp [valid x hx]⟩
  unfold requestAdmission admissionFailed
  simp only [h, first]
  exact pushEvent_eq s _ _ _

theorem requestAdmission_accepted (h : s.freeCall = some c) (valid : ∀ id ∈ (s.gate g).sequence, s.validMessage id = true) :
    requestAdmission g s = { s with
      gates := s.gates.set g { s.gate g with admissionCall := some c }
      calls := s.calls.set c { state := .pending, origin := .gate g, tag := BitVec.ofNat 8 g.val, priority := (s.gate g).priority,
                               target := (s.gate g).mask, source := .stored (s.gate g).sequence 1, retain := false,
                               arrival := s.arrivalCounter, pendingSince := s.now }
      arrivalCounter := s.arrivalCounter + 1 } := by
  have first : (s.gate g).sequence.find? (fun id => !s.validMessage id) = none := by
    rw [List.find?_eq_none]
    exact fun id hid => by simp [valid id hid]
  unfold requestAdmission
  simp only [h, first]
  rfl

/-- What a request touches: the events, or the calls with their counter, and the gate's admission call. -/
theorem requestAdmission_eq (g : GateId) (s : State) : ∃ es cs n gs, requestAdmission g s =
      { s with events := es, calls := cs, arrivalCounter := n, gates := gs } ∧ (gs[g]).state = (s.gate g).state := by
  cases free : s.freeCall with
  | none => exact ⟨_, s.calls, s.arrivalCounter, s.gates, requestAdmission_full free, rfl⟩
  | some c =>
    by_cases valid : ∀ id ∈ (s.gate g).sequence, s.validMessage id = true
    · refine ⟨s.events, _, _, _, requestAdmission_accepted free valid, ?_⟩
      rw [vector_set_get, if_pos rfl]
    · refine ⟨(requestAdmission g s).events, s.calls, s.arrivalCounter, s.gates, ?_, rfl⟩
      unfold requestAdmission
      simp only [free]
      split
      · unfold admissionFailed
        rw [pushEvent_eq]
      · next none_ =>
        rw [List.find?_eq_none] at none_
        exact absurd (fun id hid => by simpa using none_ id hid) valid

/-! ### Opening (R44, R107, R108) -/

/-- The record of a gate that opens. -/
def Gate.opened (r : Gate) (now : Nat) : Gate := { r with state := .open_, windowDeadline := some (now + r.windowTime * 1000) }

/-- A gate that opens: its record, the lights, and where it has a sequence and a mask the request. -/
theorem openGate_eq (g : GateId) (s : State) :
    ∃ u : State, u = issueLights g true { s with gates := s.gates.set g ((s.gate g).opened s.now) } ∧
      u = { s with gates := s.gates.set g ((s.gate g).opened s.now), directives := u.directives } ∧
      u.gate g = (s.gate g).opened s.now ∧
      openGate g s = if (s.gate g).sequence = [] ∨ (s.gate g).mask = 0 then u else requestAdmission g u := by
  have lit : ∃ u : State, u = issueLights g true { s with gates := s.gates.set g ((s.gate g).opened s.now) } := ⟨_, rfl⟩
  obtain ⟨u, hu⟩ := lit
  have eq : u = { s with gates := s.gates.set g ((s.gate g).opened s.now), directives := u.directives } := by
    rw [hu, issueLights_eq]
  have record : u.gate g = (s.gate g).opened s.now := by
    rw [eq]; exact (vector_set_get _ _ _ _).trans (if_pos rfl)
  refine ⟨u, hu, eq, record, ?_⟩
  have opens : openGate g s = if (u.gate g).sequence = [] ∨ (u.gate g).mask = 0 then u else requestAdmission g u := by
    rw [hu]; rfl
  rw [opens, record]
  rfl

theorem requestAdmission_directives (g : GateId) (s : State) : (requestAdmission g s).directives = s.directives := by
  obtain ⟨_, _, _, _, eq, -⟩ := requestAdmission_eq g s
  rw [eq]

/-- What an opening touches. -/
theorem openGate_frame (g : GateId) (s : State) : ∃ es cs n gs ds, openGate g s =
      { s with events := es, calls := cs, arrivalCounter := n, gates := gs, directives := ds } ∧ (gs[g]).state = .open_ := by
  obtain ⟨u, -, eq, record, opens⟩ := openGate_eq g s
  by_cases quiet : (s.gate g).sequence = [] ∨ (s.gate g).mask = 0
  · rw [opens, if_pos quiet, eq]
    refine ⟨s.events, s.calls, s.arrivalCounter, _, u.directives, rfl, ?_⟩
    rw [vector_set_get, if_pos rfl]
    rfl
  · obtain ⟨es, cs, n, gs, requested, state⟩ := requestAdmission_eq g u
    rw [opens, if_neg quiet, requested]
    refine ⟨es, cs, n, gs, u.directives, ?_, by rw [state, record]; rfl⟩
    rw [eq]

/-! ### Closing (R44, R88, R110) -/

/-- A gate that closes: its record, the lights, and the cancel of its admission call. -/
theorem closeGate_eq (g : GateId) (dest : GateState) (s : State) :
    ∃ u : State, u = issueLights g false { s with gates := s.gates.set g ((s.gate g).shut dest s.now) } ∧
      u = { s with gates := s.gates.set g ((s.gate g).shut dest s.now), directives := u.directives } ∧
      u.gate g = (s.gate g).shut dest s.now ∧ closeGate g dest s = whenSome (s.gate g).admissionCall cancelCall u := by
  have lit : ∃ u : State, u = issueLights g false { s with gates := s.gates.set g ((s.gate g).shut dest s.now) } := ⟨_, rfl⟩
  obtain ⟨u, hu⟩ := lit
  have eq : u = { s with gates := s.gates.set g ((s.gate g).shut dest s.now), directives := u.directives } := by
    rw [hu, issueLights_eq]
  have record : u.gate g = (s.gate g).shut dest s.now := by
    rw [eq]; exact (vector_set_get _ _ _ _).trans (if_pos rfl)
  refine ⟨u, hu, eq, record, ?_⟩
  have closes : closeGate g dest s = whenSome (u.gate g).admissionCall cancelCall u := by rw [hu]; rfl
  rw [closes, record]
  rfl

theorem still_gate {s t : State} (h : t.still = s.still) (g : GateId) : (t.gate g).still = (s.gate g).still := by
  have entry := congrArg (fun v : Vector Gate 2 => v[g]) (congrArg State.gates h)
  simpa [State.still, State.gate] using entry

theorem enterTail_faults (c : CallId) (fixed : Option CallOutcome) (s : State) : (enterTail c fixed s).faults = s.faults := by
  by_cases zero : s.config.tailTime = 0
  · rw [enterTail_completes zero, completeCall_faults]
  · rw [enterTail_stays zero]

theorem cancelCall_faults (c : CallId) (s : State) : (cancelCall c s).faults = s.faults := by
  unfold cancelCall
  split
  · exact completeCall_faults c _ s
  · exact enterTail_faults c _ s
  · exact enterTail_faults c _ s
  · rfl
  · rfl

theorem cancelCall_pending (h : (s.call c).state = .pending) : cancelCall c s = completeCall c .cancelled s := by
  simp only [cancelCall, h]

theorem cancelCall_running (h : (s.call c).state = .waking ∨ (s.call c).state = .playing) :
    cancelCall c s = enterTail c (some .cancelled) s := by
  rcases h with h | h <;> simp only [cancelCall, h]

theorem cancelCall_tail (h : (s.call c).state = .tail) : cancelCall c s = s := by simp only [cancelCall, h]

/-- The completion of a PENDING call that a gate asked for. -/
theorem completeCall_pending_gate {g : GateId} (pending : (s.call c).state = .pending) (origin : (s.call c).origin = .gate g) (why : Ending) :
    completeCall c why s = { s with
      calls := s.calls.set c {}
      gates := s.gates.set g { s.gate g with
        admissionCall := if (s.gate g).admissionCall = some c then none else (s.gate g).admissionCall }
      events := s.eventsWith s.config.eventNode (s.admissionEvent g ((s.call c).finalOutcome why) 0 (s.call c).target) } := by
  have none_ : (s.call c).reportDelivered = 0 := if_pos pending
  have all : (s.call c).reportMissed = (s.call c).target := if_pos pending
  rw [completeCall_quiet s why none_, reportCompletion_gate _ origin, all]
  rfl

end

theorem openGate_spec {g : GateId} {s t : State} {r : Gate} (serving : s.service = .service) (hr : r = s.gate g) (ht : t = openGate g s) :
    (∀ e, s.lit e g → { endpoint := e, code := .light, dest := (s.endpoint e).node, value := 1 } ∈ t.directives) ∧
    (∀ d ∈ t.directives, d ∈ s.directives ∨ d.code = .light ∧ d.value = 1 ∧ s.lit d.endpoint g) ∧
    (∀ new : Gate, new = { r with state := .open_, windowDeadline := some (s.now + r.windowTime * 1000) } →
      (r.sequence = [] ∨ r.mask = 0 → t = { s with gates := s.gates.set g new, directives := t.directives }) ∧
      (r.sequence ≠ [] → r.mask ≠ 0 → (∀ c, (s.call c).state ≠ .free) → t = { s with
        gates := s.gates.set g new, directives := t.directives
        events := s.eventsWith s.config.eventNode (s.admissionFailure g .full 0xFF) }) ∧
      (∀ c, r.sequence ≠ [] → r.mask ≠ 0 → (s.call c).state = .free → (∀ d, d < c → (s.call d).state ≠ .free) →
        (∀ (before after : List MessageId) (id : MessageId), r.sequence = before ++ id :: after → s.validMessage id = false →
          (∀ x ∈ before, s.validMessage x = true) → t = { s with
            gates := s.gates.set g new, directives := t.directives
            events := s.eventsWith s.config.eventNode (s.admissionFailure g .badValue (BitVec.ofNat 8 id.val)) }) ∧
        ((∀ id ∈ r.sequence, s.validMessage id = true) → t = { s with
          gates := s.gates.set g { new with admissionCall := some c }, directives := t.directives
          calls := s.calls.set c { state := .pending, origin := .gate g, tag := BitVec.ofNat 8 g.val, priority := r.priority,
                                   target := r.mask, source := .stored r.sequence 1, retain := false, requeue := 0,
                                   arrival := s.arrivalCounter, pendingSince := s.now, delivered := 0, missed := 0, plays := 0,
                                   position := 0, offset := 0, player := none, outcome := none }
          arrivalCounter := s.arrivalCounter + 1 }))) := by
  obtain ⟨u, lights, eq, record, opens⟩ := openGate_eq g s
  have directives : t.directives = u.directives := by
    rw [ht, opens]
    split
    · rfl
    · exact requestAdmission_directives g u
  have request : r.sequence ≠ [] → r.mask ≠ 0 → t = requestAdmission g u := fun sequence mask => by
    rw [ht, opens, ← hr, if_neg fun h => h.elim sequence mask]
  refine ⟨fun e lit => ?_, fun d hd => ?_, fun new hnew => ⟨fun quiet => ?_, fun sequence mask full => ?_, fun c sequence mask free lowest =>
    ⟨fun before after id split_ invalid valid => ?_, fun valid => ?_⟩⟩⟩
  · rw [directives, lights]
    exact issueLights_waits (s := { s with gates := s.gates.set g ((s.gate g).opened s.now) }) serving lit true
  · rw [directives, lights] at hd
    exact issueLights_fresh hd
  all_goals
    have opened : new = (s.gate g).opened s.now := by rw [hnew, hr]; rfl
  · have done : t = u := by rw [ht, opens, ← hr, if_pos quiet]
    rw [done, opened]
    exact eq
  · have done : t = _ := (request sequence mask).trans (requestAdmission_full (freeCall_none (by rw [eq]; exact full)))
    rw [directives, opened, done, eq]
    rfl
  · have done : t = _ := (request sequence mask).trans (requestAdmission_invalid (before := before) (after := after) (id := id)
      (freeCall_some (by rw [eq]; exact free) (by rw [eq]; exact lowest)) (by rw [record, ← split_, hr]; rfl) (by rw [eq]; exact invalid)
      (by rw [eq]; exact valid))
    rw [directives, opened, done, eq]
    rfl
  · have done : t = _ := (request sequence mask).trans (requestAdmission_accepted (freeCall_some (by rw [eq]; exact free) (by rw [eq]; exact lowest))
      (by rw [record, eq]; rw [hr] at valid; exact valid))
    rw [record] at done
    rw [directives, opened, done, eq, hr]
    simp only [Vector.set_set]
    rfl

theorem closeGate_spec {g : GateId} {dest : GateState} {s t : State} {r : Gate} (serving : s.service = .service) (hr : r = s.gate g)
    (ht : t = closeGate g dest s) :
    (t.gate g).still = { r.still with state := dest, windowDeadline := none, lastClose := some s.now } ∧
    (∀ h, h ≠ g → (t.gate h).still = (s.gate h).still) ∧
    (∀ e, s.lit e g → { endpoint := e, code := .light, dest := (s.endpoint e).node, value := 0 } ∈ t.directives) ∧
    (r.admissionCall = none ∨ (∃ c, r.admissionCall = some c ∧ (s.call c).state = .tail) →
      t.calls = s.calls ∧ t.events = s.events ∧ (t.gate g).admissionCall = r.admissionCall) ∧
    (∀ c, r.admissionCall = some c → (s.call c).state = .pending → (s.call c).origin = .gate g →
      t.calls = s.calls.set c {} ∧ (t.gate g).admissionCall = none ∧ t.events = s.eventsWith s.config.eventNode
        (s.admissionEvent g ((s.call c).outcome.getD .cancelled) 0 (s.call c).target)) ∧
    (∀ c, r.admissionCall = some c → (s.call c).state = .waking ∨ (s.call c).state = .playing → s.config.tailTime ≠ 0 →
      t.calls = s.calls.set c ((s.call c).inTail s.config.tailTime (some .cancelled)) ∧ t.events = s.events ∧
      (t.gate g).admissionCall = some c) ∧
    (∀ c, r.admissionCall = some c → (s.call c).state = .waking ∨ (s.call c).state = .playing → s.config.tailTime = 0 →
      t.calls = s.calls.set c {}) ∧
    t.faults = s.faults ∧ t.settled = { s with gates := t.gates }.settled := by
  obtain ⟨u, lights, eq, record, closes⟩ := closeGate_eq g dest s
  have call : u.call = s.call := by rw [eq]; rfl
  have still : t.still = u.still := by
    rw [ht, closes]; exact whenSome_keeps _ _ (fun c v => cancelCall_still v c) _
  have kept : PowersOnly (fun _ => True) u t := by
    rw [ht, closes]
    cases (s.gate g).admissionCall with
    | none => exact .refl u
    | some c => exact cancelCall_powersOnly u c
  have cancels : ∀ c, r.admissionCall = some c → t = cancelCall c u := fun c named => by rw [ht, closes, ← hr, named]; rfl
  have settled : t.settled = s.settled := by rw [ht]; exact closeGate_settled s g dest
  refine ⟨?_, fun h ne => ?_, fun e lit => ?_, fun quiet => ?_, fun c named pending origin => ?_, fun c named running time => ?_,
    fun c named running zero => ?_, ?_, ?_⟩
  · rw [still_gate still, record, hr]; rfl
  · have entry : u.gate h = s.gate h := by rw [eq]; exact (vector_set_get _ _ _ _).trans (if_neg ne)
    rw [still_gate still, entry]
  · refine kept.others _ ?_ (fun h => nomatch h)
    rw [lights]
    exact issueLights_waits (s := { s with gates := s.gates.set g ((s.gate g).shut dest s.now) }) serving lit false
  · have same : t = u := by
      rcases quiet with none_ | ⟨c, named, tail⟩
      · rw [ht, closes, ← hr, none_]; rfl
      · rw [cancels c named, cancelCall_tail (by rw [call]; exact tail)]
    rw [same, record, eq, hr]
    exact ⟨rfl, rfl, rfl⟩
  · have done : t = _ := (cancels c named).trans ((cancelCall_pending (by rw [call]; exact pending)).trans
      (completeCall_pending_gate (by rw [call]; exact pending) (by rw [call]; exact origin) _))
    rw [call, record] at done
    have shut : ((s.gate g).shut dest s.now).admissionCall = some c := by rw [← named, hr]; rfl
    have gate : (t.gate g).admissionCall = none := by
      rw [done]
      exact (congrArg Gate.admissionCall ((vector_set_get _ g g _).trans (if_pos rfl))).trans (if_pos shut)
    refine ⟨?_, gate, ?_⟩
    · rw [done, eq]
    · rw [done, eq]; rfl
  · have done : t = _ := (cancels c named).trans ((cancelCall_running (by rw [call]; exact running)).trans
      (enterTail_stays (by rw [eq]; exact time) _))
    have gate : t.gate g = u.gate g := by rw [done]; rfl
    rw [gate, record, done, call, eq, ← named, hr]
    exact ⟨rfl, rfl, rfl⟩
  · have done : t = _ := (cancels c named).trans ((cancelCall_running (by rw [call]; exact running)).trans
      (enterTail_completes (by rw [eq]; exact zero) _))
    rw [done, completeCall_calls, eq]
    exact Vector.set_set ..
  · rw [ht, closes, whenSome_keeps _ State.faults (fun c v => cancelCall_faults c v), eq]
  · calc t.settled = { s.settled with gates := t.settled.gates } := by rw [settled]
      _ = ({ s with gates := t.gates } : State).settled := rfl

theorem gateEffect_forceOpen {g : GateId} {s : State} (closed : (s.gate g).state = .closed) :
    gateEffect g .open_ true s = openGate g s := by
  unfold gateEffect
  rw [closed]
  exact if_pos (Bool.true_or _)

/-- Settles O42: an opening, a closing, what leads to either, and the completion of a GATE call. -/
theorem gatesOpenAndClose : Obligations.GatesOpenAndClose := by
  refine ⟨fun g s t r serving hr ht => openGate_spec serving hr ht, fun g dest s t r serving hr ht => closeGate_spec serving hr ht,
    ?_, ?_, ?_, ?_, ?_⟩
  · rintro src req g s u c rfl ready serving closed hu
    have index : indexOf 2 (BitVec.ofNat 8 g.val).toNat = some g := by
      have small : (BitVec.ofNat 8 g.val).toNat = g.val := by
        have := g.isLt
        rw [BitVec.toNat_ofNat]; omega
      rw [small, indexOf_val]
    have gate : (leaveCommand s).gate g = s.gate g := by
      obtain ⟨_, _, left⟩ := leaveCommand_eq s
      rw [left]; rfl
    have body : gateForceBody (BitVec.ofNat 8 g.val) 0 (leaveCommand s) = (u, .normal .ok [gateStateCode (u.gate g).state]) := by
      unfold gateForceBody
      have opens : gateEffect g .open_ true (leaveCommand s) = u := by
        rw [hu]
        exact gateEffect_forceOpen (gate ▸ closed)
      rw [if_neg (notConfiguration ((leaveCommand_service s).trans serving)), index]
      show (gateEffect g .open_ true (leaveCommand s), Answer.normal .ok [gateStateCode ((gateEffect g .open_ true (leaveCommand s)).gate g).state]) = _
      rw [opens]
    obtain ⟨_, _, _, gs, _, frame, state⟩ := openGate_frame g (leaveCommand s)
    have opened : (u.gate g).state = .open_ := by rw [hu, frame]; exact state
    have shared : u.node = s.node ∧ u.replies = s.replies := by
      rw [hu, frame]; exact ⟨leaveCommand_node s, leaveCommand_replies s⟩
    refine congrArg Host.Outcome.next ((takeCommand_ready ready).trans ?_)
    rw [body, placeReply_normal, reply_node (s := s) shared.1, shared.2, opened]
    rfl
  · rintro src code s c rfl head noReset trusted serving
    refine congrArg Host.Outcome.next ((takeMarker_head head noReset).trans ((if_pos trusted).trans ?_))
    exact if_pos serving
  · rintro g code s k rfl
    refine ⟨fun closed opens passed => ?_, fun open_ opens => ?_, fun open_ closes => ?_, fun open_ bars => ?_⟩
    · unfold offerMarker gateEffect
      rcases opens with opens | opens <;> rw [opens, closed] <;> simp [passed]
    · unfold offerMarker gateEffect
      rcases opens with opens | opens <;> rw [opens, open_] <;> rfl
    · unfold offerMarker gateEffect
      rw [closes, open_]
    · unfold offerMarker gateEffect
      rw [bars, open_]
  · refine fun g s => ⟨fun d open_ deadline => ⟨fun past => ?_, fun ahead => ?_⟩, fun other => congrArg _ (if_neg other)⟩
    · refine congrArg Host.Outcome.next ((if_pos open_).trans ?_)
      rw [deadline]
      exact if_pos past
    · refine congrArg Host.Outcome.next ((if_pos open_).trans ?_)
      rw [deadline]
      exact if_neg (Nat.not_le.mpr ahead)
  · rintro c g s r serving rfl origin
    refine ⟨fun tail over_ => ?_, fun pending late => ?_⟩
    · have run : exec (.tailEnd c) s = .next (completeCall c .computed s) :=
        congrArg Host.Outcome.next ((if_pos serving).trans (if_pos ⟨tail, over_⟩))
      have running : (s.call c).state ≠ .pending := by rw [tail]; decide
      obtain ⟨zs, es, ds, eq, -⟩ := completeCall_eq s c .computed
      rw [reportCompletion_gate _ origin, finalOutcome_computed running, reportDelivered_eq running, reportMissed_eq running] at eq
      refine ⟨_, run, completeCall_calls c _ s, ?_, ?_⟩
      · rw [eq]; rfl
      · rw [eq]; rfl
    · have run : exec (.pendingExpiry c) s = .next (completeCall c .expired s) :=
        congrArg Host.Outcome.next ((if_pos serving).trans (if_pos ⟨pending, late⟩))
      rw [run, completeCall_pending_gate pending origin]
      rfl

end Sys2Proof.Machine
end

section
/-! The drop of a zone from its call (R98), and SUSPEND, which drops one (R32). -/

namespace Sys2Proof.Machine

section
variable {s t : State} {z y : ZoneId} {c d : CallId}

/-- No zone has two claiming calls (R101). -/
def State.ClaimsUnique (s : State) : Prop := ∀ z c d, (s.call c).claims z = true → (s.call d).claims z = true → c = d

theorem State.CallsSound.unique (sound : s.CallsSound) : s.ClaimsUnique := fun _ _ _ hc hd => claims_unique sound hc hd

theorem State.ClaimsUnique.claimant (unique : s.ClaimsUnique) : s.claimant z = some c ↔ (s.call c).claims z = true := by
  refine ⟨claimant_claims, fun holds => find_finRange.mpr ⟨holds, fun d lt => ?_⟩⟩
  by_contra claims
  exact absurd (unique z d c (by simpa using claims) holds) (ne_of_lt lt)

/-- A zone loses none of its only claimants but by losing them all. -/
theorem State.ClaimsUnique.of_fewer (unique : s.ClaimsUnique)
    (fewer : ∀ z c, (t.call c).claims z = true → (s.call c).claims z = true) : t.ClaimsUnique :=
  fun z c d hc hd => unique z c d (fewer z c hc) (fewer z d hd)

theorem loseZone_eq (z : ZoneId) (r : Call) : r.loseZone z = r.without z := rfl

theorem without_claims (r : Call) (z y : ZoneId) : (r.without z).claims y = (r.claims y && !decide (y = z)) := by
  show (r.running && (r.delivered &&& ~~~ zoneBit z).getLsbD y.val) = (r.running && r.delivered.getLsbD y.val && !decide (y = z))
  rw [BitVec.getLsbD_and, BitVec.getLsbD_not, zoneBit_getLsbD]
  simp [Bool.and_assoc]

theorem claims_delivered {r : Call} (h : r.claims z = true) : r.delivered.getLsbD z.val = true := (claims_iff.mp h).2

theorem claims_state {r : Call} (h : r.claims z = true) : r.state ≠ .pending := by
  rcases (claims_iff.mp h).1 with h | h | h <;> rw [h] <;> decide

/-! ### The drop (R98) -/

theorem dropZone_none (h : s.claimant z = none) : dropZone z s = s := by
  unfold dropZone
  rw [h]

/-- What is left of a record from which a zone was dropped. -/
def Call.dropped (z : ZoneId) (r : Call) : Call := if (r.without z).delivered = 0 then {} else r.without z

/-- The first part of a drop: the zone moves to the missed set and is released. -/
def loseAndRelease (z : ZoneId) (c : CallId) (s : State) : State := afterRelease z (modCall c (Call.loseZone z) s)

theorem loseAndRelease_eq (z : ZoneId) (c : CallId) (s : State) : ∃ es ds, loseAndRelease z c s = { s with
    calls := s.calls.set c ((s.call c).without z), zones := s.zones.set z ((s.zone z).released s.now), endpoints := es
    directives := ds } := by
  obtain ⟨es, ds, eq⟩ := afterRelease_eq z (modCall c (Call.loseZone z) s)
  exact ⟨es, ds, by rw [loseAndRelease, eq]; rfl⟩

theorem loseAndRelease_call (z : ZoneId) (c d : CallId) (s : State) :
    (loseAndRelease z c s).call d = if d = c then (s.call c).without z else s.call d := by
  obtain ⟨es, ds, eq⟩ := loseAndRelease_eq z c s
  rw [eq]; exact set_call _ _ _ _

theorem dropZone_some (h : s.claimant z = some c) : dropZone z s =
    if ((s.call c).without z).delivered = 0 then completeCall c .computed (loseAndRelease z c s) else loseAndRelease z c s := by
  unfold dropZone
  rw [h]
  simp only
  have record := loseAndRelease_call z c c s
  rw [if_pos rfl] at record
  rw [show afterRelease z (modCall c (Call.loseZone z) s) = loseAndRelease z c s from rfl, record]

theorem dropZone_sends (z : ZoneId) (s : State) : Sends s (dropZone z s) := by
  cases h : s.claimant z with
  | none => rw [dropZone_none h]; exact .refl s
  | some c =>
    have lost : Sends s (loseAndRelease z c s) := (modCall_sends s c _).trans (afterRelease_sends _ z)
    rw [dropZone_some h]
    exact .ite (lost.trans (completeCall_sends _ c _)) lost

/-- Each record after a drop. -/
theorem dropZone_call (z : ZoneId) (d : CallId) (s : State) :
    (dropZone z s).call d = if s.claimant z = some d then (s.call d).dropped z else s.call d := by
  cases h : s.claimant z with
  | none => rw [dropZone_none h, if_neg (by simp)]
  | some c =>
    rw [dropZone_some h]
    unfold Call.dropped
    by_cases same : d = c
    · subst same
      rw [if_pos rfl]
      split
      · rw [completeCall_call, if_pos rfl]
      · rw [loseAndRelease_call, if_pos rfl]
    · rw [if_neg fun e => same (Option.some.inj e).symm]
      split
      · rw [completeCall_call, if_neg same, loseAndRelease_call, if_neg same]
      · rw [loseAndRelease_call, if_neg same]

theorem dropZone_claims (z y : ZoneId) (d : CallId) (s : State) : ((dropZone z s).call d).claims y =
    ((s.call d).claims y && !(decide (y = z) && decide (s.claimant z = some d))) := by
  rw [dropZone_call]
  split
  · next h =>
    have left : ((s.call d).dropped z).claims y = ((s.call d).without z).claims y := by
      unfold Call.dropped
      split
      · next gone =>
        rw [Bool.eq_iff_iff, claims_iff, claims_iff]
        simp [gone]
      · rfl
    rw [left, without_claims]
    simp [h]
  · next h => simp [h]

/-- The zone records after a drop. -/
theorem dropZone_zones (z : ZoneId) (s : State) : (dropZone z s).zones =
    if (s.claimant z).isSome then s.zones.set z ((s.zone z).released s.now) else s.zones := by
  cases h : s.claimant z with
  | none => rw [dropZone_none h]; rfl
  | some c =>
    obtain ⟨es, ds, eq⟩ := loseAndRelease_eq z c s
    have lost : (loseAndRelease z c s).zones = s.zones.set z ((s.zone z).released s.now) := by rw [eq]
    rw [dropZone_some h]
    split
    · next gone =>
      have record := loseAndRelease_call z c c s
      rw [if_pos rfl] at record
      have running : ((s.call c).without z).state ≠ .pending :=
        (claims_state (claimant_claims h) : (s.call c).state ≠ .pending)
      rw [completeCall_quiet _ _ (by rw [record, reportDelivered_eq running, gone])]
      obtain ⟨_, _, report⟩ := reportCompletion_eq ({ loseAndRelease z c s with calls := (loseAndRelease z c s).calls.set c {} })
        ((loseAndRelease z c s).call c) c (((loseAndRelease z c s).call c).finalOutcome .computed) 0
        ((loseAndRelease z c s).call c).reportMissed
      rw [report]
      exact lost
    · exact lost

theorem dropZone_zone (z y : ZoneId) (s : State) : (dropZone z s).zone y =
    if y = z ∧ (s.claimant z).isSome = true then (s.zone z).released s.now else s.zone y := by
  unfold State.zone
  rw [dropZone_zones]
  by_cases claimed : (s.claimant z).isSome = true
  · rw [if_pos claimed, vector_set_get]
    simp [claimed, State.zone]
  · rw [if_neg claimed, if_neg fun h => claimed h.2]

theorem dropZone_faults (z : ZoneId) (s : State) : (dropZone z s).faults = s.faults := congrArg Prod.fst (dropZone_unclaimed s z)

theorem dropZone_loops (z : ZoneId) (s : State) : (dropZone z s).loops = s.loops :=
  congrArg (fun v => v.2.2) (dropZone_unclaimed s z)

theorem dropZone_claimant_other (ne : y ≠ z) (s : State) : (dropZone z s).claimant y = s.claimant y :=
  claimant_congr fun d => by rw [dropZone_claims]; simp [ne]

theorem dropZone_unclaims (unique : s.ClaimsUnique) (z : ZoneId) : (dropZone z s).claimant z = none := by
  refine claimant_eq_none.mpr fun d => ?_
  rw [dropZone_claims]
  by_cases h : (s.call d).claims z = true
  · simp [unique.claimant.mpr h]
  · simp [h]

theorem dropZone_unique (unique : s.ClaimsUnique) (z : ZoneId) : (dropZone z s).ClaimsUnique :=
  unique.of_fewer fun y d h => by
    rw [dropZone_claims, Bool.and_eq_true] at h
    exact h.1

theorem dropZone_worksOut (claimed : (s.claimant z).isSome = true) : (dropZone z s).PowerWorkedOut z := by
  obtain ⟨c, h⟩ := Option.isSome_iff_exists.mp claimed
  have lost : (loseAndRelease z c s).PowerWorkedOut z := afterRelease_worksOut z _
  rw [dropZone_some h]
  split
  · refine completeCall_workedOut _ _ lost ?_
    rw [loseAndRelease_call, if_pos rfl, without_claims]
    simp
  · exact lost

theorem State.PowerWorkedOut.dropZone (worked : s.PowerWorkedOut y) (z : ZoneId) : (dropZone z s).PowerWorkedOut y := by
  cases h : s.claimant z with
  | none => rwa [dropZone_none h]
  | some c =>
    by_cases same : y = z
    · subst same; exact dropZone_worksOut (by rw [h]; rfl)
    have held : ∀ r : Call, (r.without z).claims y = r.claims y := fun r => by rw [without_claims]; simp [same]
    have lost : (loseAndRelease z c s).PowerWorkedOut y := by
      refine State.PowerWorkedOut.afterRelease ?_ z
      refine worked.congr rfl rfl rfl rfl (congrArg Option.isSome (claimant_congr fun d => ?_))
      rw [modCall_call]
      split
      · next e => subst e; exact held _
      · rfl
    rw [dropZone_some h]
    split
    · next gone =>
      refine completeCall_workedOut _ _ lost ?_
      rw [loseAndRelease_call, if_pos rfl, ← Bool.not_eq_true, claims_iff, gone]
      simp
    · exact lost

theorem active_names {r : Zone} {e : EndpointId} (h : r.active = some e) : r.primary = some e ∨ r.standby = some e := by
  unfold Zone.active at h
  split at h
  · exact .inl h
  · exact .inr h

end

/-! ### SUSPEND (R32) -/

section
variable {s t : State} {src : Node} {req : Byte} {z : ZoneId}

/-- A reply OK to a state that shares the node and the replies of another. -/
theorem placeReply_shared (node : t.node = s.node) (replies : t.replies = s.replies) (src : Node) (code req : Byte) :
    placeReply src code req (t, .normal .ok []) = { t with replies := s.replies ++ [s.reply src code req .ok []] } := by
  rw [placeReply_normal, reply_node node, replies]

theorem enabledZone_some {zone : Byte} (hz : z.val = zone.toNat) (on : (s.zone z).enabled = true) : s.enabledZone zone = some z := by
  unfold State.enabledZone
  rw [← hz, indexOf_val, Option.filter_some, if_pos on]

theorem enabledZone_none {zone : Byte} (h : 32 ≤ zone.toNat ∨ ∃ z : ZoneId, z.val = zone.toNat ∧ (s.zone z).enabled = false) :
    s.enabledZone zone = none := by
  unfold State.enabledZone
  rcases h with far | ⟨z, hz, off⟩
  · rw [indexOf_none far]; rfl
  · rw [← hz, indexOf_val, Option.filter_some, if_neg (by rw [off]; decide)]

/-- A change of the suspended flag, all at once. -/
theorem setSuspended_spec {on : Bool} (serving : s.service = .service) (changes : (s.zone z).suspended ≠ on)
    (ht : t = setSuspended on z s) :
    t.still = ({ s with zones := s.zones.set z { s.zone z with suspended := on } } : State).still ∧ t.faults = s.faults ∧
    (∀ d, t.call d = if on = true ∧ s.claimant z = some d then (s.call d).dropped z else s.call d) ∧
    (on = true → s.ClaimsUnique → t.claimant z = none) ∧
    (∀ new : Zone, new = { s.zone z with suspended := on } →
      t.zones = s.zones.set z (if on = true ∧ (s.claimant z).isSome = true then new.released s.now else new)) ∧
    t.PowerWorkedOut z ∧ Sends s t ∧
    (∀ e, on = true → (s.zone z).enabled = true → (s.zone z).active = some e → (s.endpoint e).inUse = true →
      (s.endpoint e).role ≠ .usherLight → (s.endpoint e).place = z → (t.endpoint e).commanded = .suspended) := by
  have change : ∃ u, u = modZone z (fun r => { r with suspended := on }) s := ⟨_, rfl⟩
  obtain ⟨u, hu⟩ := change
  have drop : ∃ v, v = if on = true then dropZone z u else u := ⟨_, rfl⟩
  obtain ⟨v, hv⟩ := drop
  have last : t = recommandZone z v := by
    rw [ht, hv, hu]; exact if_neg changes
  obtain ⟨es, ds, eq⟩ := recommandZone_eq z v
  have still : v.still = u.still := by
    rw [hv]; split
    · exact dropZone_still u z
    · rfl
  have claimant : u.claimant z = s.claimant z := by rw [hu]; rfl
  have call : u.call = s.call := by rw [hu]; rfl
  have zones : u.zones = s.zones.set z { s.zone z with suspended := on } := by rw [hu]; rfl
  have calls : ∀ d, t.call d = v.call d := fun d => by rw [last, eq]; rfl
  have worked : t.PowerWorkedOut z := last ▸ recommandZone_worksOut z v
  have sends : Sends s t := by
    have first : Sends s u := hu ▸ modZone_sends s z _
    have second : Sends u v := hv ▸ .ite (dropZone_sends z u) (.refl u)
    exact first.trans (second.trans (last ▸ recommandZone_sends v z))
  have records : ∀ new : Zone, new = { s.zone z with suspended := on } →
      t.zones = s.zones.set z (if on = true ∧ (s.claimant z).isSome = true then new.released s.now else new) := by
    intro new hnew
    have record : u.zone z = new := by
      rw [hu, hnew]; exact (vector_set_get _ _ _ _).trans (if_pos rfl)
    have done : t.zones = v.zones := by rw [last, eq]
    rw [← hnew] at zones
    rw [done, hv]
    by_cases drops : on = true
    · rw [if_pos drops, dropZone_zones, claimant, record, zones]
      by_cases claimed : (s.claimant z).isSome = true
      · rw [if_pos claimed, if_pos ⟨drops, claimed⟩, hu]
        exact Vector.set_set ..
      · rw [if_neg claimed, if_neg fun h => claimed h.2]
    · rw [if_neg drops, if_neg fun h => drops h.1, zones]
  refine ⟨?_, ?_, fun d => ?_, fun drops unique => ?_, records, worked, sends, fun e drops enabled active used role place => ?_⟩
  · rw [last, recommandZone_still, still, hu]; rfl
  · have faults : v.faults = u.faults := by
      rw [hv]; split
      · exact dropZone_faults z u
      · rfl
    rw [last, eq]
    exact faults.trans (by rw [hu]; rfl)
  · rw [calls d, hv]
    by_cases drops : on = true
    · rw [if_pos drops, dropZone_call, claimant, call]
      simp only [drops, true_and]
    · rw [if_neg drops, if_neg fun h => drops h.1, call]
  · refine (claimant_congr (s := v) fun d => by rw [calls d]).trans ?_
    rw [hv, if_pos drops]
    exact dropZone_unclaims (s := u) (fun y c d => by rw [call]; exact unique y c d) z
  · have record : ∃ deadline, t.zone z = { s.zone z with suspended := on, idleDeadline := deadline } := by
      have entry : t.zone z = _ := (congrArg (fun v : Vector Zone 32 => v[z]) (records _ rfl)).trans ((vector_set_get _ _ _ _).trans (if_pos rfl))
      rw [entry]
      by_cases released : on = true ∧ (s.claimant z).isSome = true
      · rw [if_pos released, Zone.released]
        split
        · exact ⟨_, rfl⟩
        · exact ⟨_, rfl⟩
      · rw [if_neg released]; exact ⟨_, rfl⟩
    obtain ⟨deadline, record⟩ := record
    have endpoint := sends.endpoint e
    have role' : (t.endpoint e).role ≠ .usherLight := fun h => role ((congrArg Endpoint.role endpoint).symm.trans h)
    have place' : (t.endpoint e).place = z := (congrArg Endpoint.place endpoint).trans place
    have active' : (t.zone z).active = some e := by rw [record]; exact active
    rw [worked e (active_names active') ((congrArg Endpoint.inUse endpoint).trans used) place']
    refine (commandedPower_active (sends.service.trans serving) role' place' (by rw [record]; exact enabled) active').1 ?_
    rw [record]; exact drops

theorem suspendBody_noZone {zone setting : Byte} (serving : s.service = .service) (h : s.enabledZone zone = none) :
    suspendBody zone setting s = refuse .badIndex s := by
  unfold suspendBody
  rw [if_neg (notConfiguration serving), h]

theorem suspendBody_noSetting {zone setting : Byte} (serving : s.service = .service) (h : s.enabledZone zone = some z)
    (bad : flagOf setting = none) : suspendBody zone setting s = refuse .badValue s := by
  unfold suspendBody
  rw [if_neg (notConfiguration serving), h]
  simp only [bad]

theorem suspendBody_sets {zone setting : Byte} {on : Bool} (serving : s.service = .service) (h : s.enabledZone zone = some z)
    (flag : flagOf setting = some on) : suspendBody zone setting s = (setSuspended on z s, .normal .ok []) := by
  unfold suspendBody
  rw [if_neg (notConfiguration serving), h]
  simp only [flag]

end

/-- Settles O39: the refusals in their order, then the change of the flag. -/
theorem suspendSetsTheFlag : Obligations.SuspendSetsTheFlag := by
  intro src req zone setting s ready
  have run : exec (.suspend src req zone setting) s =
      .next (placeReply src 0x07 req (suspendBody zone setting (leaveCommand s))) :=
    congrArg Host.Outcome.next (takeCommand_ready ready)
  have refused : ∀ {st}, suspendBody zone setting (leaveCommand s) = refuse st (leaveCommand s) →
      exec (.suspend src req zone setting) s = .next (s.answered (s.reply src 0x07 req st [])) := fun h => by
    rw [run, h, placeReply_refuse]
  have zone_eq : (leaveCommand s).zone = s.zone := funext fun z => leaveCommand_zone s z
  refine ⟨fun config => refused (if_pos ((leaveCommand_service s).trans config)), fun serving => ⟨fun bad => refused ?_,
    fun z hz on => ?_⟩⟩
  · exact suspendBody_noZone ((leaveCommand_service s).trans serving) (enabledZone_none (by rw [zone_eq]; exact bad))
  · have serving' : (leaveCommand s).service = .service := (leaveCommand_service s).trans serving
    have named : (leaveCommand s).enabledZone zone = some z := enabledZone_some hz (by rw [zone_eq]; exact on)
    refine ⟨fun bad => refused (suspendBody_noSetting serving' named (flagOf_eq_none bad)), fun flag hflag => ?_⟩
    rw [suspendBody_sets serving' named hflag] at run
    refine ⟨fun same => ?_, fun new => ?_⟩
    · rw [run, setSuspended, if_pos (by rw [zone_eq]; exact same), placeReply_shared (leaveCommand_node s) (leaveCommand_replies s)]
      rfl
    · obtain ⟨_, _, left⟩ := leaveCommand_eq s
      have change : ∃ t, t = setSuspended flag z (leaveCommand s) := ⟨_, rfl⟩
      obtain ⟨t, ht⟩ := change
      obtain ⟨still, faults, calls, unclaimed, zones, worked, sends, suspended⟩ :=
        setSuspended_spec serving' (by rw [zone_eq]; exact new) ht
      rw [← ht] at run
      obtain ⟨node, -, -, -, -, replies, -⟩ := still_shares still
      rw [placeReply_shared (s := s) (node.trans (leaveCommand_node s)) (replies.trans (leaveCommand_replies s))] at run
      refine ⟨_, run, rfl, ?_, ?_, fun c drops claimed => ?_, fun drops sound => ?_, fun n hn => ?_, worked.replies _, ?_, fun d other => ?_,
        fun e drops active used role place => ?_⟩
      · refine (still_replies still _).trans ?_
        unfold State.answered
        rw [left]
        rfl
      · rw [left] at faults; exact faults
      · refine (calls c).trans ?_
        rw [left]
        exact if_pos ⟨drops, claimed⟩
      · exact unclaimed drops (by rw [left]; exact sound.unique)
      · refine (zones n ?_).trans ?_
        · rw [hn, zone_eq]
        · rw [left]; rfl
      · have step : Sends s (leaveCommand s) := by rw [left]; exact .of_same rfl rfl rfl rfl
        exact (step.trans (sends.replies _)).sent serving
      · refine (calls d).trans ?_
        rw [left]
        exact if_neg fun h => other.elim (fun ne => ne h.2) fun off => by rw [h.1] at off; exact nomatch off
      · rw [left] at suspended
        exact suspended e drops on active used role place

end Sys2Proof.Machine
end

section
/-! TEST (R31, R61): modes and levels of several zones, and the drops that follow from them. -/

namespace Sys2Proof.Machine

/-! ### A record from which several zones are dropped (R98) -/

/-- A record in which a set of zones has moved from the delivered set to the missed set. -/
def Call.withoutAll (r : Call) (gone : ZoneSet) : Call :=
  { r with delivered := r.delivered &&& ~~~ gone, missed := r.missed ||| gone
           wake := Vector.ofFn fun z => if gone.getLsbD z.val then none else r.wake[z] }

/-- The zones of a mask that a call claims. -/
def Call.claimed (r : Call) (m : ZoneSet) : ZoneSet := if r.running then r.delivered &&& m else 0

/-- A record after the zones of a mask were dropped. -/
def Call.afterDrops (r : Call) (m : ZoneSet) : Call :=
  if r.claimed m = 0 then r else if (r.withoutAll (r.claimed m)).delivered = 0 then {} else r.withoutAll (r.claimed m)

/-- The mask of a list of zones. -/
def maskList (l : List ZoneId) : ZoneSet := l.foldr (fun z m => zoneBit z ||| m) 0

section
variable {s t u : State} {z y : ZoneId} {c : CallId}

theorem maskList_getLsbD (l : List ZoneId) (z : ZoneId) : (maskList l).getLsbD z.val = decide (z ∈ l) := by
  induction l with
  | nil => simp [maskList]
  | cons a l ih =>
    rw [show maskList (a :: l) = zoneBit a ||| maskList l from rfl, BitVec.getLsbD_or, zoneBit_getLsbD, ih]
    simp

theorem maskList_zonesOf (m : ZoneSet) : maskList (zonesOf m) = m := zoneSet_ext fun z => by
  rw [maskList_getLsbD, Bool.eq_iff_iff, decide_eq_true_iff, mem_zonesOf]

theorem claimed_getLsbD (r : Call) (m : ZoneSet) (z : ZoneId) :
    (r.claimed m).getLsbD z.val = (r.claims z && m.getLsbD z.val) := by
  unfold Call.claimed Call.claims
  cases r.running
  · simp
  · simp only [if_true, BitVec.getLsbD_and, Bool.true_and]

theorem withoutAll_withoutAll (r : Call) (a b : ZoneSet) : (r.withoutAll a).withoutAll b = r.withoutAll (a ||| b) := by
  have wake : (Vector.ofFn fun z : ZoneId => if b.getLsbD z.val then none else (r.withoutAll a).wake[z]) =
      Vector.ofFn fun z : ZoneId => if (a ||| b).getLsbD z.val then none else r.wake[z] := by
    ext i hi : 1
    rw [Vector.getElem_ofFn, Vector.getElem_ofFn, BitVec.getLsbD_or]
    cases hb : b.getLsbD i
    · rw [if_neg (by decide), Bool.or_false]
      exact Vector.getElem_ofFn hi
    · rw [if_pos rfl, Bool.or_true, if_pos rfl]
  unfold Call.withoutAll at wake ⊢
  simp only [Call.mk.injEq, true_and, and_true]
  refine ⟨zoneSet_ext fun z => ?_, zoneSet_ext fun z => ?_, wake⟩
  · simp only [BitVec.getLsbD_and, BitVec.getLsbD_not, BitVec.getLsbD_or, Bool.not_or, z.isLt, decide_true, Bool.true_and, Bool.and_assoc]
  · simp only [BitVec.getLsbD_or, Bool.or_assoc]

theorem withoutAll_claimed (r : Call) (a m : ZoneSet) (z : ZoneId) :
    ((r.withoutAll a).claimed m).getLsbD z.val = (r.claims z && !a.getLsbD z.val && m.getLsbD z.val) := by
  rw [claimed_getLsbD]
  congr 1
  show (r.running && (r.delivered &&& ~~~ a).getLsbD z.val) = (r.running && r.delivered.getLsbD z.val && !a.getLsbD z.val)
  rw [BitVec.getLsbD_and, BitVec.getLsbD_not]
  simp [Bool.and_assoc]

/-- A record that lost every zone is FREE and loses no more. -/
theorem free_afterDrops (m : ZoneSet) : ({} : Call).afterDrops m = {} := rfl

/-- Drops one after the other are the drops of all. -/
theorem afterDrops_afterDrops (r : Call) (a b : ZoneSet) : (r.afterDrops a).afterDrops b = r.afterDrops (a ||| b) := by
  have whole : ∀ z : ZoneId, (r.claimed (a ||| b)).getLsbD z.val = ((r.claimed a).getLsbD z.val || (r.claims z && b.getLsbD z.val)) :=
    fun z => by rw [claimed_getLsbD, claimed_getLsbD, BitVec.getLsbD_or, Bool.and_or_distrib_left]
  have left : ∀ (gone : ZoneSet) (z : ZoneId), (r.withoutAll gone).delivered.getLsbD z.val = (r.delivered.getLsbD z.val && !gone.getLsbD z.val) :=
    fun gone z => by
      show (r.delivered &&& ~~~ gone).getLsbD z.val = _
      rw [BitVec.getLsbD_and, BitVec.getLsbD_not]
      simp
  by_cases first : r.claimed a = 0
  · have same : r.claimed (a ||| b) = r.claimed b := zoneSet_ext fun z => by
      rw [whole, first, claimed_getLsbD]; simp
    unfold Call.afterDrops
    rw [if_pos first, same]
  by_cases all : (r.withoutAll (r.claimed a)).delivered = 0
  · have some_ : r.claimed (a ||| b) ≠ 0 := fun none_ => first (zoneSet_eq_zero.mpr fun z => by
      have bit := zoneSet_eq_zero.mp none_ z
      rw [whole, Bool.or_eq_false_iff] at bit
      exact bit.1)
    have none_left : (r.withoutAll (r.claimed (a ||| b))).delivered = 0 := zoneSet_eq_zero.mpr fun z => by
      have bit := zoneSet_eq_zero.mp all z
      rw [left] at bit ⊢
      rw [whole]
      cases h : (r.claimed a).getLsbD z.val
      · rw [h] at bit; simp only [Bool.not_false, Bool.and_true] at bit; rw [bit]; rfl
      · simp
    rw [show r.afterDrops a = {} from (if_neg first).trans (if_pos all), free_afterDrops]
    exact ((if_neg some_).trans (if_pos none_left)).symm
  · have step : r.afterDrops a = r.withoutAll (r.claimed a) := (if_neg first).trans (if_neg all)
    have sum : r.claimed (a ||| b) = r.claimed a ||| (r.withoutAll (r.claimed a)).claimed b := zoneSet_ext fun z => by
      rw [whole, BitVec.getLsbD_or, withoutAll_claimed]
      cases (r.claimed a).getLsbD z.val <;> simp
    have some_ : r.claimed (a ||| b) ≠ 0 := fun none_ => first (zoneSet_eq_zero.mpr fun z => by
      have bit := zoneSet_eq_zero.mp none_ z
      rw [whole, Bool.or_eq_false_iff] at bit
      exact bit.1)
    rw [step]
    unfold Call.afterDrops
    rw [if_neg some_, sum, ← withoutAll_withoutAll]
    by_cases second : (r.withoutAll (r.claimed a)).claimed b = 0
    · have same : (r.withoutAll (r.claimed a)).withoutAll 0 = r.withoutAll (r.claimed a) := by
        rw [withoutAll_withoutAll]; congr 1; simp
      rw [if_pos second, second, same, if_neg all]
    · rw [if_neg second]

theorem without_eq (r : Call) (z : ZoneId) : r.without z = r.withoutAll (zoneBit z) := by
  have wake : r.wake.set z none = Vector.ofFn fun y : ZoneId => if (zoneBit z).getLsbD y.val then none else r.wake[y] := by
    ext i hi : 1
    rw [Vector.getElem_set, Vector.getElem_ofFn, zoneBit_getLsbD z ⟨i, hi⟩]
    by_cases same : z.val = i
    · subst same; simp
    · rw [if_neg same, if_neg]
      · rfl
      · simp only [decide_eq_true_eq, Fin.ext_iff]; exact fun h => same h.symm
  unfold Call.without Call.withoutAll
  rw [wake]
  rfl

/-- A record after the drop of one zone, claimed or not. -/
theorem dropZone_afterDrops (unique : s.ClaimsUnique) (z : ZoneId) (c : CallId) :
    (dropZone z s).call c = (s.call c).afterDrops (zoneBit z) := by
  have bits : ∀ y : ZoneId, ((s.call c).claimed (zoneBit z)).getLsbD y.val = ((s.call c).claims y && decide (y = z)) := fun y => by
    rw [claimed_getLsbD, zoneBit_getLsbD]
  rw [dropZone_call]
  by_cases claims : (s.call c).claims z = true
  · have one : (s.call c).claimed (zoneBit z) = zoneBit z := zoneSet_ext fun y => by
      rw [bits, zoneBit_getLsbD]
      by_cases same : y = z
      · simp [same, claims]
      · simp [same]
    have some_ : zoneBit z ≠ 0 := fun none_ => by
      have bit := zoneSet_eq_zero.mp none_ z
      rw [zoneBit_getLsbD] at bit
      simp at bit
    rw [if_pos (unique.claimant.mpr claims)]
    unfold Call.afterDrops Call.dropped
    rw [one, if_neg some_, without_eq]
  · have none_ : (s.call c).claimed (zoneBit z) = 0 := zoneSet_eq_zero.mpr fun y => by
      rw [bits]
      by_cases same : y = z
      · subst same; simp [claims]
      · simp [same]
    rw [if_neg fun h => claims (claimant_claims h)]
    exact (if_pos none_).symm

/-! ### Modes and levels (R31, R61) -/

theorem endCandidate_loop (z : ZoneId) (i : ParamId) (s : State) : (endCandidate z s).loops[i] =
    if s.loopOf z = some i then { s.loops[i] with candidate := none, accumulator := 0 } else s.loops[i] := by
  unfold endCandidate
  cases found : s.loopOf z with
  | none => simp [whenSome]
  | some l =>
    simp only [whenSome, modLoop_get]
    by_cases same : i = l
    · subst same; simp
    · rw [if_neg same, if_neg fun h => same (Option.some.inj h).symm]

/-- A loop record whose candidate has ended. -/
def LoopRecord.ended (r : LoopRecord) : LoopRecord := { r with candidate := none, accumulator := 0 }

theorem setTest_eq (m : TestMode) (level : Nat) (z : ZoneId) (s : State) : ∃ ls, setTest m level z s =
      { s with zones := s.zones.set z { s.zone z with testMode := m, testLevel := level }, loops := ls } ∧
    ∀ i : ParamId, ls[i] = if m ≠ .none ∧ s.loopOf z = some i then s.loops[i].ended else s.loops[i] := by
  have change : ∃ u, u = modZone z (fun r => { r with testMode := m, testLevel := level }) s := ⟨_, rfl⟩
  obtain ⟨u, hu⟩ := change
  have loopOf : u.loopOf = s.loopOf := by rw [hu]; rfl
  by_cases off : m = .none
  · refine ⟨s.loops, ?_, fun i => (if_neg fun h => h.1 off).symm⟩
    unfold setTest
    rw [if_pos off]
    rfl
  · obtain ⟨ls, ended, -⟩ := endCandidate_eq z u
    refine ⟨ls, ?_, fun i => ?_⟩
    · have step : setTest m level z s = endCandidate z u := by rw [hu]; exact if_neg off
      rw [step, ended, hu]
      rfl
    · have entry := endCandidate_loop z i u
      rw [ended, loopOf] at entry
      refine Eq.trans entry ?_
      rw [hu]
      simp only [off, ne_eq, not_false_eq_true, true_and]
      rfl

/-- The modes and levels of several zones, and the candidates that end with them. -/
theorem setTests_eq (m : TestMode) (level : Nat) (l : List ZoneId) (s : State) : ∃ zs ls, forEach l (setTest m level) s =
      { s with zones := zs, loops := ls } ∧
    (∀ y, zs[y] = if y ∈ l then { s.zone y with testMode := m, testLevel := level } else s.zone y) ∧
    ∀ i : ParamId, ls[i] = if m ≠ .none ∧ ∃ z ∈ l, s.loopOf z = some i then s.loops[i].ended else s.loops[i] := by
  induction l generalizing s with
  | nil => exact ⟨s.zones, s.loops, rfl, fun y => rfl, fun i => by simp⟩
  | cons a l ih =>
    obtain ⟨ls₀, first, loop₀⟩ := setTest_eq m level a s
    obtain ⟨zs, ls, eq, zone, loop⟩ := ih (setTest m level a s)
    have zone₀ : ∀ y, (setTest m level a s).zone y =
        if y = a then { s.zone a with testMode := m, testLevel := level } else s.zone y := fun y => by
      rw [first]; exact vector_set_get _ _ _ _
    have loops₀ : ∀ i : ParamId, (setTest m level a s).loops[i] = ls₀[i] := fun i => by rw [first]
    have bound : (setTest m level a s).loopOf = s.loopOf := loopOf_congr fun i => by
      rw [loops₀, loop₀]
      split <;> rfl
    refine ⟨zs, ls, by rw [forEach_cons, eq, first], fun y => ?_, fun i => ?_⟩
    · rw [zone y, zone₀]
      by_cases same : y = a
      · subst same; simp
      · simp [same]
    · rw [loop i, loops₀, loop₀, bound]
      by_cases off : m = .none
      · simp [off]
      · by_cases here : s.loopOf a = some i
        · by_cases later : ∃ z ∈ l, s.loopOf z = some i <;> simp [off, here, LoopRecord.ended]
        · simp [off, here]

/-! ### What follows for each zone (R31) -/

section
variable (m was : TestMode)

theorem followTest_none (z : ZoneId) (s : State) : followTest .none was z s = if was = .none then s else recommandZone z s := by
  unfold followTest
  simp

theorem followTest_calls (z : ZoneId) (s : State) : (followTest m was z s).calls = if m = .none then s.calls else (dropZone z s).calls := by
  have powered : ∀ u : State, (recommandZone z u).calls = u.calls := fun u => by
    obtain ⟨_, _, eq⟩ := recommandZone_eq z u
    rw [eq]
  unfold followTest
  simp only
  by_cases off : m = .none
  · rw [if_pos off, if_pos off]
    split
    · rfl
    · exact powered s
  · rw [if_neg off, if_neg off]
    split
    · rfl
    · exact powered _

theorem followTest_call (z : ZoneId) (c : CallId) (s : State) :
    (followTest m was z s).call c = if m = .none then s.call c else (dropZone z s).call c := by
  unfold State.call
  rw [followTest_calls]
  split <;> rfl

theorem followTest_zone (z y : ZoneId) (s : State) : (followTest m was z s).zone y =
    if m ≠ .none ∧ y = z ∧ (s.claimant z).isSome = true then (s.zone z).released s.now else s.zone y := by
  have after : (followTest m was z s).zone y = (if m = .none then s else dropZone z s).zone y := by
    unfold followTest
    simp only
    split
    · rfl
    · exact recommandZone_zone z y _
  rw [after]
  by_cases off : m = .none
  · rw [if_pos off, if_neg fun h => h.1 off]
  · rw [if_neg off, dropZone_zone]
    simp only [ne_eq, off, not_false_eq_true, true_and]

theorem followTest_unclaimed (z : ZoneId) (s : State) : (followTest m was z s).unclaimed = s.unclaimed := by
  unfold followTest
  simp only
  split <;> split <;> simp only [dropZone_unclaimed, recommandZone_unclaimed]

theorem followTest_sends (z : ZoneId) (s : State) : Sends s (followTest m was z s) := by
  have first : Sends s (if m = .none then s else dropZone z s) := .ite (.refl s) (dropZone_sends z s)
  unfold followTest
  exact .ite first (first.trans (recommandZone_sends _ z))

variable {m was}

theorem followTest_worksOut (moved : ¬ (was = .none ↔ m = .none)) (z : ZoneId) (s : State) : (followTest m was z s).PowerWorkedOut z := by
  unfold followTest
  simp only
  rw [if_neg moved]
  exact recommandZone_worksOut z _

theorem State.PowerWorkedOut.followTest (worked : s.PowerWorkedOut y) (z : ZoneId) : (followTest m was z s).PowerWorkedOut y := by
  have first : (if m = .none then s else Machine.dropZone z s).PowerWorkedOut y := by
    split
    · exact worked
    · exact worked.dropZone z
  unfold Machine.followTest
  simp only
  split
  · exact first
  · exact first.recommandZone z

end

/-- A run keeps what every change keeps, and has what one of its changes gives. -/
theorem forEach_gives {α : Type} {P : State → Prop} {f : α → State → State} {l : List α} (keeps : ∀ a s, P s → P (f a s))
    {a : α} (ha : a ∈ l) (gives : ∀ s, P (f a s)) (s : State) : P (forEach l f s) := by
  induction l generalizing s with
  | nil => exact absurd ha List.not_mem_nil
  | cons b l ih =>
    rw [forEach_cons]
    rcases List.mem_cons.mp ha with rfl | ha
    · exact forEach_invariant _ keeps l (gives s)
    · exact ih ha _

/-- What a zone shows of itself and of its claims. -/
def State.zoneView (z : ZoneId) (s : State) : Zone × (CallId → Bool) := (s.zone z, fun c => (s.call c).claims z)

theorem zoneView_claimant (h : t.zoneView z = s.zoneView z) : t.claimant z = s.claimant z :=
  claimant_congr fun c => congrFun (congrArg Prod.snd h) c

theorem followTest_zoneView {m was : TestMode} (ne : y ≠ z) (s : State) : (followTest m was z s).zoneView y = s.zoneView y := by
  refine Prod.ext ?_ (funext fun c => ?_)
  · show (followTest m was z s).zone y = s.zone y
    rw [followTest_zone, if_neg fun h => ne h.2.1]
  · show ((followTest m was z s).call c).claims y = (s.call c).claims y
    rw [followTest_call]
    split
    · rfl
    · rw [dropZone_claims]; simp [ne]

variable {m : TestMode} {was : ZoneId → TestMode}

/-- The records of the calls after the drops of several zones. -/
theorem followTests_call (on : m ≠ .none) (l : List ZoneId) (unique : s.ClaimsUnique) :
    (forEach l (fun z t => followTest m (was z) z t) s).call c = (s.call c).afterDrops (maskList l) := by
  induction l generalizing s with
  | nil =>
    have none_ : (s.call c).claimed (maskList []) = 0 := by unfold Call.claimed maskList; simp
    exact (if_pos none_).symm
  | cons a l ih =>
    have step : ∀ d, (followTest m (was a) a s).call d = (s.call d).afterDrops (zoneBit a) := fun d => by
      rw [followTest_call, if_neg on, dropZone_afterDrops unique]
    have unique' : (followTest m (was a) a s).ClaimsUnique := unique.of_fewer fun y d h => by
      rw [followTest_call, if_neg on, dropZone_claims, Bool.and_eq_true] at h
      exact h.1
    rw [forEach_cons, ih unique', step, afterDrops_afterDrops]
    rfl

/-- The records of the zones after the drops of several. -/
theorem followTests_zone (l : List ZoneId) (distinct : l.Nodup) (z : ZoneId) (s : State) :
    (forEach l (fun z t => followTest m (was z) z t) s).zone z =
      if m ≠ .none ∧ z ∈ l ∧ (s.claimant z).isSome = true then (s.zone z).released s.now else s.zone z := by
  obtain ⟨out, inside⟩ := forEach_own distinct State.zoneView State.now (f := fun z t => followTest m (was z) z t)
    (fun a x u ne => followTest_zoneView ne u) (fun a u => still_now (followTest_still m _ a u)) s z
  by_cases here : z ∈ l
  · obtain ⟨u, same, now, eq⟩ := inside here
    have zone : u.zone z = s.zone z := congrArg Prod.fst same
    refine (congrArg Prod.fst eq).trans ?_
    show (followTest m (was z) z u).zone z = _
    rw [followTest_zone, zoneView_claimant same, zone, now]
    simp only [here, true_and]
  · rw [if_neg fun h => here h.2.1]
    exact congrArg Prod.fst (out here)

theorem followTests_unclaims (on : m ≠ .none) (l : List ZoneId) (unique : s.ClaimsUnique) (here : z ∈ l) :
    (forEach l (fun z t => followTest m (was z) z t) s).claimant z = none := by
  refine claimant_eq_none.mpr fun c => ?_
  rw [followTests_call on l unique, ← Bool.not_eq_true]
  intro claims
  have bits := claimed_getLsbD (s.call c) (maskList l) z
  rw [maskList_getLsbD, decide_eq_true here, Bool.and_true] at bits
  unfold Call.afterDrops at claims
  split at claims
  · next none_ =>
    rw [none_] at bits
    rw [← bits] at claims
    simp at claims
  · split at claims
    · rw [claims_of_free (.inl rfl)] at claims; exact nomatch claims
    · obtain ⟨running, held⟩ := Bool.and_eq_true_iff.mp claims
      have bit : ((s.call c).delivered &&& ~~~ (s.call c).claimed (maskList l)).getLsbD z.val = true := held
      rw [BitVec.getLsbD_and, BitVec.getLsbD_not, bits, Bool.and_eq_true] at bit
      obtain ⟨delivered, left⟩ := bit
      have claims' : (s.call c).claims z = true := Bool.and_eq_true_iff.mpr ⟨running, delivered⟩
      simp [claims'] at left

end

/-! ### The row -/

section
variable {s t : State} {mask : ZoneSet} {m : TestMode} {level : Nat}

/-- A TEST that passes its checks, all at once. -/
theorem testZones_spec (ht : t = testZones m level mask s) :
    t.still = { s with
      zones := Vector.ofFn fun z : ZoneId =>
        if mask.getLsbD z.val then { s.zone z with testMode := m, testLevel := level } else s.zone z }.still ∧
    t.faults = s.faults ∧
    (m ≠ .none → s.ClaimsUnique → ∀ z : ZoneId, mask.getLsbD z.val = true → t.claimant z = none) ∧
    (m = .none → t.calls = s.calls) ∧
    (m ≠ .none → s.ClaimsUnique → ∀ c, t.call c = (s.call c).afterDrops mask) ∧
    (∀ (z : ZoneId) (new : Zone),
      new = (if mask.getLsbD z.val then { s.zone z with testMode := m, testLevel := level } else s.zone z) →
      t.zone z = if m ≠ .none ∧ mask.getLsbD z.val = true ∧ (s.claimant z).isSome = true then new.released s.now else new) ∧
    (∀ z : ZoneId, mask.getLsbD z.val = true → ¬ ((s.zone z).testMode = .none ↔ m = .none) → t.PowerWorkedOut z) ∧
    Sends s t ∧
    (∀ l : ParamId, t.loops[l] = if m ≠ .none ∧ ∃ z : ZoneId, mask.getLsbD z.val = true ∧ s.loopOf z = some l
      then { s.loops[l] with candidate := none, accumulator := 0 } else s.loops[l]) := by
  obtain ⟨zs, ls, eq, zone, loop⟩ := setTests_eq m level (zonesOf mask) s
  have first : ∃ u : State, u = { s with zones := zs, loops := ls } := ⟨_, rfl⟩
  obtain ⟨u, hu⟩ := first
  have run : t = forEach (zonesOf mask) (fun z t => followTest m (s.zone z).testMode z t) u := by
    rw [ht, hu, ← eq]; rfl
  have call : u.call = s.call := by rw [hu]; rfl
  have unique : s.ClaimsUnique → u.ClaimsUnique := fun h z c d => by rw [call]; exact h z c d
  have still : t.still = u.still := by rw [run]; exact forEach_keeps _ _ (fun z v => followTest_still m _ z v) _
  have unclaimed : t.unclaimed = u.unclaimed := by rw [run]; exact forEach_keeps _ _ (fun z v => followTest_unclaimed m _ z v) _
  simp only [mem_zonesOf] at zone loop
  refine ⟨?_, ?_, fun on free z here => ?_, fun off => ?_, fun on free c => ?_, fun z new hnew => ?_, fun z here moved => ?_, ?_, fun l => ?_⟩
  · have zones : zs = Vector.ofFn fun z : ZoneId =>
        if mask.getLsbD z.val then { s.zone z with testMode := m, testLevel := level } else s.zone z := by
      ext i hi : 1
      rw [Vector.getElem_ofFn]
      exact zone ⟨i, hi⟩
    have loops : ls.map LoopRecord.still = s.loops.map LoopRecord.still := by
      ext i hi : 1
      rw [Vector.getElem_map, Vector.getElem_map]
      have entry : ls[i] = _ := loop ⟨i, hi⟩
      rw [entry]
      split <;> rfl
    rw [still, hu, zones]
    unfold State.still
    simp only [loops]
  · exact (congrArg Prod.fst unclaimed).trans (by rw [hu]; rfl)
  · rw [run]
    exact followTests_unclaims on _ (unique free) (mem_zonesOf.mpr here)
  · have kept : t.calls = u.calls := by
      rw [run]; exact forEach_keeps _ _ (fun z v => by rw [followTest_calls, if_pos off]) _
    rw [kept, hu]
  · rw [run, followTests_call on _ (unique free), call, maskList_zonesOf]
  · have entry : u.zone z = new := by rw [hu, hnew]; exact zone z
    have claimant : u.claimant z = s.claimant z := by rw [hu]; rfl
    rw [run, followTests_zone _ (zonesOf_nodup mask), entry, claimant, show u.now = s.now by rw [hu]]
    simp only [mem_zonesOf]
  · rw [run]
    exact forEach_gives (P := fun v => v.PowerWorkedOut z) (f := fun z t => followTest m (s.zone z).testMode z t) (fun a v h => h.followTest a) (mem_zonesOf.mpr here)
      (fun v => followTest_worksOut moved z v) u
  · have start : Sends s u := by rw [hu]; exact .of_same rfl rfl rfl rfl
    rw [run]
    exact start.trans (.forEach (fun z v => followTest_sends m _ z v) _ u)
  · have loops : t.loops = ls := (congrArg (fun v => v.2.2) unclaimed).trans (by rw [hu]; rfl)
    rw [loops]
    exact loop l

theorem testModeOf_none {b : Byte} (h : 3 < b.toNat) : testModeOf b = none := by
  have other : ∀ n : Byte, n.toNat ≤ 3 → b ≠ n := fun n small same => by subst same; omega
  unfold testModeOf
  rw [if_neg (other 0 (by decide)), if_neg (other 1 (by decide)), if_neg (other 2 (by decide)), if_neg (other 3 (by decide))]

theorem testBody_refusesValue {mode : Byte} {level : BitVec 16} (serving : s.service = .service) (h : 3 < mode.toNat ∨ mask = 0) :
    testBody mode level mask s = refuse .badValue s := by
  unfold testBody
  rw [if_neg (notConfiguration serving)]
  rcases h with far | empty
  · rw [testModeOf_none far]
  · cases testModeOf mode with
    | none => rfl
    | some m => exact if_pos empty

theorem testBody_refusesIndex {mode : Byte} {level : BitVec 16} {z : ZoneId} (serving : s.service = .service)
    (hm : testModeOf mode = some m) (some_ : mask ≠ 0) (here : mask.getLsbD z.val = true) (off : (s.zone z).enabled = false) :
    testBody mode level mask s = refuse .badIndex s := by
  unfold testBody
  rw [if_neg (notConfiguration serving), hm]
  refine (if_neg some_).trans (if_neg fun all => ?_)
  rw [List.all_eq_true] at all
  have on := all z (mem_zonesOf.mpr here)
  rw [off] at on
  exact nomatch on

theorem testBody_tests {mode : Byte} {level : BitVec 16} (serving : s.service = .service)
    (hm : testModeOf mode = some m) (some_ : mask ≠ 0) (on : ∀ z : ZoneId, mask.getLsbD z.val = true → (s.zone z).enabled = true) :
    testBody mode level mask s = (testZones m level.toNat mask s, .normal .ok []) := by
  unfold testBody
  rw [if_neg (notConfiguration serving), hm]
  exact (if_neg some_).trans (if_pos (List.all_eq_true.mpr fun z hz => on z (mem_zonesOf.mp hz)))

end

/-- Settles O38: the refusals in their order, then modes and levels with what follows from them. -/
theorem testSetsModeAndLevel : Obligations.TestSetsModeAndLevel := by
  intro src req mode level mask s ready
  have run : exec (.test src req mode level mask) s = .next (placeReply src 0x06 req (testBody mode level mask (leaveCommand s))) :=
    congrArg Host.Outcome.next (takeCommand_ready ready)
  have refused : ∀ {st}, testBody mode level mask (leaveCommand s) = refuse st (leaveCommand s) →
      exec (.test src req mode level mask) s = .next (s.answered (s.reply src 0x06 req st [])) := fun h => by
    rw [run, h, placeReply_refuse]
  refine ⟨fun config => refused (if_pos ((leaveCommand_service s).trans config)), fun serving => ?_⟩
  have serving' : (leaveCommand s).service = .service := (leaveCommand_service s).trans serving
  refine ⟨fun bad => refused (testBody_refusesValue serving' bad), fun m hm some_ => ⟨fun z here off =>
    refused (testBody_refusesIndex serving' hm some_ here (by rw [leaveCommand_zone]; exact off)), fun on => ?_⟩⟩
  have change : ∃ t, t = testZones m level.toNat mask (leaveCommand s) := ⟨_, rfl⟩
  obtain ⟨t, ht⟩ := change
  rw [testBody_tests serving' hm some_ fun z here => by rw [leaveCommand_zone]; exact on z here, ← ht] at run
  obtain ⟨still, faults, unclaimed, kept, calls, zones, worked, sends, loops⟩ := testZones_spec ht
  obtain ⟨_, _, left⟩ := leaveCommand_eq s
  obtain ⟨node, -, -, -, -, replies, -⟩ := still_shares still
  rw [placeReply_shared (s := s) (node.trans (leaveCommand_node s)) (replies.trans (leaveCommand_replies s))] at run
  have step : Sends s (leaveCommand s) := by rw [left]; exact .of_same rfl rfl rfl rfl
  refine ⟨_, run, rfl, ?_, faults.trans (leaveCommand_faults s), fun tests sound => ?_, fun off => ?_, fun tests sound c gone r hgone hr => ?_,
    fun _ z new hnew => ?_, fun z here moved => ?_, (step.trans (sends.replies _)).sent serving, fun l => ?_⟩
  · refine (still_replies still _).trans ?_
    unfold State.answered
    rw [left]
    rfl
  · exact unclaimed tests (by rw [left]; exact sound.unique)
  · exact (kept off).trans (leaveCommand_calls s)
  · refine (calls tests (by rw [left]; exact sound.unique) c).trans ?_
    have call : (leaveCommand s).call c = s.call c := by rw [left]; rfl
    rw [call, hr, hgone]
    rfl
  · refine (zones z new (by rw [leaveCommand_zone]; exact hnew)).trans ?_
    rw [left]
    rfl
  · exact (worked z here (by rw [leaveCommand_zone]; exact moved)).replies _
  · refine (loops l).trans ?_
    rw [left]
    rfl

end Sys2Proof.Machine
end

section
/-! The swap of a zone (R46, R47), and the POWER that every chain of swaps, raises and preemptions sends (R41). -/

namespace Sys2Proof.Machine

/-! ### POWER sent by larger changes -/

section
variable (s : State)

theorem checkDrop_sends (z : ZoneId) : Sends s (checkDrop z s) := by
  unfold checkDrop
  split
  · exact .refl s
  · exact .ite (dropZone_sends z s) (.refl s)

theorem rewake_sends (z : ZoneId) : Sends s (rewake z s) := by
  unfold rewake
  split
  · exact .refl s
  · exact .ite (modCall_sends s _ _) (.refl s)

theorem deriveProtection_sends (z : ZoneId) : Sends s (deriveProtection z s) :=
  .ite (.refl s) <| (modZone_sends s z _).trans <| .ite ((endCandidate_sends _ z).trans (dropZone_sends z _)) (.refl _)

theorem enterTail_sends (c : CallId) (fixed : Option CallOutcome) : Sends s (enterTail c fixed s) :=
  (modCall_sends s c _).trans <| .ite (completeCall_sends _ c _) (.refl _)

theorem cancelCall_sends (c : CallId) : Sends s (cancelCall c s) := by
  unfold cancelCall
  split
  · exact completeCall_sends s c _
  · exact enterTail_sends s c _
  · exact enterTail_sends s c _
  · exact .refl s
  · exact .refl s

theorem preempt_sends (c : CallId) : Sends s (preempt c s) :=
  .ite ((modCall_sends s c _).trans (.forEach (fun z u => afterRelease_sends u z) _ _)) <|
    .ite (completeCall_sends s c _) (completeCall_sends s c _)

theorem swapZone_sends (z : ZoneId) : Sends s (swapZone z s) :=
  (modZone_sends s z _).trans <| (endCandidate_sends _ z).trans <| (recommandZone_sends _ z).trans <| (checkDrop_sends _ z).trans <|
    (rewake_sends _ z).trans (deriveProtection_sends _ z)

theorem faultEvent_sends (f : FaultRef) (flags : Byte) (st : FaultState) (a : PolicyAction) (n : Nat) :
    Sends s (faultEvent f flags st a n s) := pushEvent_sends s _ _ _

theorem raise_sends (f : FaultRef) : Sends s (raise f s) := by
  have chain : ∀ u : State, ∀ o : Option ZoneId, Sends s u → Sends s (whenSome o swapZone u) :=
    fun u o h => h.trans (.whenSome (fun z v => swapZone_sends v z) o u)
  unfold raise
  simp only
  exact .ite ((chain _ _ ((setFault_sends s _ _).trans (faultEvent_sends _ _ _ _ _ _))).trans
    (.whenSome (fun z v => deriveProtection_sends v z) _ _)) (chain _ _ ((setFault_sends s _ _).trans (faultEvent_sends _ _ _ _ _ _)))

theorem observe_sends (f : FaultRef) (b : Bool) : Sends s (observe f b s) :=
  .ite (.refl s) <| .ite (setFault_sends s _ _) <| .ite (.ite (raise_sends s f) (setFault_sends s _ _)) (setFault_sends s _ _)

theorem observeWake_sends (z : ZoneId) (b : Bool) : Sends s (observeWake z b s) :=
  .whenSome (fun _ u => observe_sends u _ b) _ s

theorem enterPlaying_sends (c : CallId) : Sends s (enterPlaying c s) :=
  (modCall_sends s c _).trans (.forEach (fun z u => observeWake_sends u z false) _ _)

theorem examineWakeZone_sends (c : CallId) (z : ZoneId) : Sends s (examineWakeZone c z s) := by
  unfold examineWakeZone
  split
  · split
    · exact .ite ((modCall_sends s c _).trans ((afterRelease_sends _ z).trans (observeWake_sends _ z true))) (.refl s)
    · exact modCall_sends s c _
  · exact .refl s

theorem preemptByZone_sends (priority : Nat) (d : ZoneSet) : Sends s (preemptByZone priority d s) :=
  .forEach (fun c u => .ite (preempt_sends u c) (.refl u)) _ s

theorem startCall_sends (c : CallId) (d : ZoneSet) (p : PlayerId) : Sends s (startCall c d p s) := by
  have claimed : ∀ u : State, Sends s u → Sends s (countStart (modCall c (u.claimRecord d p) u)) :=
    fun u h => h.trans ((modCall_sends u c (u.claimRecord d p)).trans (.of_same rfl rfl rfl rfl))
  have powered := (claimed _ (preemptByZone_sends s (s.call c).priority d)).trans (.forEach (fun z u => recommandZone_sends u z) (zonesOf d) _)
  exact .ite (powered.trans (enterPlaying_sends _ c)) powered

end

/-! ### Conditions of a zone that a chain of changes keeps -/

section
variable {s t : State} {z y : ZoneId} {c d : CallId} {e x : EndpointId}

/-- What an endpoint reports, through every chain of changes. -/
theorem still_reports (h : t.still = s.still) (e : EndpointId) :
    (t.endpoint e).presence = (s.endpoint e).presence ∧ (t.endpoint e).reported = (s.endpoint e).reported := by
  have entry := still_endpoint h e
  exact ⟨(congrArg Endpoint.presence entry :), (congrArg Endpoint.reported entry :)⟩

theorem awake_of_still (h : t.still = s.still) (active : (t.zone z).active = (s.zone z).active) : t.awake z = s.awake z := by
  rw [Bool.eq_iff_iff, awake_iff, awake_iff, active]
  simp only [still_reports h]

theorem deliverable_of_still (h : t.still = s.still) (active : (t.zone z).active = (s.zone z).active) (clear : (t.zone z).protection = .normal) :
    s.deliverable z = true ↔ (s.zone z).protection ≠ .muted ∧ t.deliverable z = true := by
  have service : t.service = s.service := (congrArg State.service h :)
  have zone := still_zone h z
  have enabled : (t.zone z).enabled = (s.zone z).enabled := (congrArg Zone.enabled zone :)
  have mode : (t.zone z).testMode = (s.zone z).testMode := (congrArg Zone.testMode zone :)
  have suspended : (t.zone z).suspended = (s.zone z).suspended := (congrArg Zone.suspended zone :)
  have quiet : (t.zone z).protection ≠ .muted := by rw [clear]; decide
  rw [deliverable_iff, deliverable_iff, service, enabled, mode, suspended, active]
  simp only [still_reports h]
  exact ⟨fun ⟨a, b, c, d, loud, f⟩ => ⟨loud, a, b, c, d, quiet, f⟩, fun ⟨loud, a, b, c, d, _, f⟩ => ⟨a, b, c, d, loud, f⟩⟩

/-- Table 2-5 does not ask for the protection of a zone. -/
theorem State.PowerWorkedOut.protect (worked : s.PowerWorkedOut y) (z : ZoneId) (p : Protection) :
    (modZone z (fun r => { r with protection := p }) s).PowerWorkedOut y := by
  have entry : ∀ x, ∃ q, (modZone z (fun r => { r with protection := p }) s).zone x = { s.zone x with protection := q } := fun x => by
    rw [modZone_zone]
    split
    · next same => subst same; exact ⟨p, rfl⟩
    · exact ⟨_, rfl⟩
  generalize hu : modZone z (fun r => { r with protection := p }) s = u at entry ⊢
  have claimant : u.claimant = s.claimant := by rw [← hu]; rfl
  have endpoint : u.endpoint = s.endpoint := by rw [← hu]; rfl
  have service : u.service = s.service := by rw [← hu]; rfl
  have now : u.now = s.now := by rw [← hu]; rfl
  intro e named used place
  obtain ⟨q, eq⟩ := entry y
  rw [endpoint] at used place ⊢
  rw [eq] at named
  rw [worked e named used place]
  simp only [State.commandedPower, endpoint, service, now, claimant, place, eq]
  rfl

/-! ### The parts of a swap -/

theorem rewake_call (z : ZoneId) (c : CallId) (s : State) : (rewake z s).call c =
    if s.claimant z = some c ∧ (s.call c).state = .waking ∧ s.awake z = false
    then { s.call c with wake := (s.call c).wake.set z (some (s.now + s.config.wakeTimeout)) } else s.call c := by
  unfold rewake
  cases h : s.claimant z with
  | none => exact (if_neg fun h => nomatch h.1).symm
  | some d =>
    simp only
    by_cases waits : (s.call d).state = .waking ∧ s.awake z = false
    · rw [if_pos waits, modCall_call]
      by_cases same : c = d
      · subst same; rw [if_pos rfl, if_pos ⟨rfl, waits⟩]
      · rw [if_neg same, if_neg fun h => same (Option.some.inj h.1).symm]
    · rw [if_neg waits]
      by_cases same : d = c
      · subst same; exact (if_neg fun h => waits h.2).symm
      · exact (if_neg fun h => same (Option.some.inj h.1)).symm

theorem rewake_eq (z : ZoneId) (s : State) : ∃ cs, rewake z s = { s with calls := cs } := by
  unfold rewake
  split
  · exact ⟨_, rfl⟩
  · split
    · exact ⟨_, rfl⟩
    · exact ⟨_, rfl⟩

theorem rewake_claimant (z y : ZoneId) (s : State) : (rewake z s).claimant y = s.claimant y :=
  claimant_congr fun c => by
    rw [rewake_call]
    split <;> rfl

/-- Why a zone loses its claim (R98). -/
def State.mustDrop (s : State) (z : ZoneId) (c : CallId) : Prop :=
  s.deliverable z = false ∨ (s.call c).state = .playing ∧ s.awake z = false

theorem checkDrop_drops (h : s.claimant z = some c) (must : s.mustDrop z c) : checkDrop z s = dropZone z s := by
  unfold checkDrop
  rw [h]
  refine if_pos ?_
  rcases must with off | ⟨playing, asleep⟩
  · rw [off]; rfl
  · rw [playing, asleep]; simp

theorem checkDrop_keeps (h : ∀ c, s.claimant z = some c → ¬ s.mustDrop z c) : checkDrop z s = s := by
  unfold checkDrop
  cases claimed : s.claimant z with
  | none => rfl
  | some c =>
    have keeps := h c claimed
    refine if_neg fun must => keeps ?_
    simpa [State.mustDrop] using must

/-- A derivation that finds no fault: only the protection changes. -/
theorem deriveProtection_clear (h : s.protectionOf z = .normal) :
    deriveProtection z s = modZone z (fun r => { r with protection := .normal }) s := by
  unfold deriveProtection
  simp only [h]
  split
  · next same =>
    unfold modZone
    rw [same]
    exact congrArg (fun v => { s with zones := v }) (Vector.set_getElem_self z.isLt).symm
  · exact if_neg (by decide)

/-- The first steps of a swap: active side, candidate and commanded states. -/
def swapStart (z : ZoneId) (s : State) : State :=
  recommandZone z (endCandidate z (modZone z (fun r => { r with side := r.side.flip }) s))

theorem swapStart_eq (z : ZoneId) (s : State) : ∃ ls es ds, swapStart z s = { s with
      zones := s.zones.set z { s.zone z with side := (s.zone z).side.flip }, loops := ls, endpoints := es, directives := ds } ∧
    ∀ l, s.loopOf z = some l → ls = s.loops.set l { s.loops[l] with candidate := none, accumulator := 0 } := by
  have change : ∃ u, u = modZone z (fun r => { r with side := r.side.flip }) s := ⟨_, rfl⟩
  obtain ⟨u, hu⟩ := change
  obtain ⟨ls, ended, loop⟩ := endCandidate_eq z u
  obtain ⟨es, ds, eq⟩ := recommandZone_eq z (endCandidate z u)
  refine ⟨ls, es, ds, ?_, fun l h => ?_⟩
  · rw [swapStart, ← hu, eq, ended, hu]; rfl
  · have at_l := loop l (by rw [hu]; exact h)
    rw [at_l, hu]; rfl

theorem flip_active (r : Zone) : ({ r with side := r.side.flip } : Zone).active = r.other := by
  unfold Zone.active Zone.other Side.flip
  cases r.side <;> rfl

theorem released_active (r : Zone) (now : Nat) : (r.released now).active = r.active := by
  unfold Zone.released
  split <;> rfl

theorem released_side (r : Zone) (now : Nat) : (r.released now).side = r.side := by
  unfold Zone.released
  split <;> rfl

theorem protectionOf_clear (active : (s.zone z).active = some e) (clear : ∀ k, (s.fault (.endpoint e k)).state.actionable = false) :
    s.protectionOf z = .normal := by
  have none_ : ∀ p, s.actionableWith e p = false := fun p => by
    rw [← Bool.not_eq_true, actionableWith_iff]
    rintro ⟨k, i, acts, -, -⟩
    have acts' : (s.fault (.endpoint e k)).state.actionable = true := actionable_iff.mpr acts
    rw [clear k] at acts'
    exact nomatch acts'
  unfold State.protectionOf
  rw [active]
  simp only [none_]
  rfl

/-- Whether a swap drops the zone that a call claims: by what its new side shows, and by the protection that it had. -/
theorem swapZone_spec (other : (s.zone z).other = some e) (clear : ∀ k, (s.fault (.endpoint e k)).state.actionable = false)
    (ht : t = swapZone z s) :
    (∃ v, v = swapStart z s ∧ t.faults = s.faults ∧ t.awake z = v.awake z ∧ t.claimant z = (checkDrop z v).claimant z ∧
      (v.deliverable z = true ↔ (s.zone z).protection ≠ .muted ∧ t.deliverable z = true) ∧
      (∀ y, t.zone y = if y = z then { (checkDrop z v).zone z with protection := .normal } else (checkDrop z v).zone y) ∧
      (∀ c, t.call c = (rewake z (checkDrop z v)).call c) ∧ t.loops = v.loops) ∧
    (∀ y, (t.zone y).side = if y = z then (s.zone z).side.flip else (s.zone y).side) ∧
    (t.zone z).active = some e ∧ (t.zone z).protection = t.protectionOf z ∧ t.PowerWorkedOut z := by
  have start : ∃ v, v = swapStart z s := ⟨_, rfl⟩
  obtain ⟨v, hv⟩ := start
  have check : ∃ w, w = checkDrop z v := ⟨_, rfl⟩
  obtain ⟨w, hw⟩ := check
  have wait : ∃ x, x = rewake z w := ⟨_, rfl⟩
  obtain ⟨x, hx⟩ := wait
  have last : t = deriveProtection z x := by rw [ht, hx, hw, hv]; rfl
  obtain ⟨ls, es, ds, started, -⟩ := swapStart_eq z s
  rw [← hv] at started
  have record : v.zone z = { s.zone z with side := (s.zone z).side.flip } := by
    rw [started]; exact (vector_set_get _ _ _ _).trans (if_pos rfl)
  have dropped : w = v ∨ w = dropZone z v := by
    rw [hw]
    by_cases must : ∃ c, v.claimant z = some c ∧ v.mustDrop z c
    · obtain ⟨c, claimed, must⟩ := must
      exact .inr (checkDrop_drops claimed must)
    · exact .inl (checkDrop_keeps fun c claimed h => must ⟨c, claimed, h⟩)
  obtain ⟨cs, waited⟩ := rewake_eq z w
  rw [← hx] at waited
  have faults : x.faults = s.faults := by
    have kept : w.faults = v.faults := by
      rcases dropped with h | h
      · rw [h]
      · rw [h, dropZone_faults]
    rw [waited]
    exact kept.trans (by rw [started])
  have loops : x.loops = v.loops := by
    rw [waited]
    rcases dropped with h | h
    · rw [h]
    · exact (congrArg State.loops h).trans (dropZone_loops z v)
  have active_w : (w.zone z).active = some e := by
    have first : (v.zone z).active = some e := by rw [record, flip_active, other]
    rcases dropped with h | h
    · rw [h, first]
    · rw [h, dropZone_zone]
      split
      · rw [released_active, first]
      · exact first
  have active_x : (x.zone z).active = some e := by rw [waited]; exact active_w
  have fault : x.fault = s.fault := by funext f; simp only [State.fault, faults]
  have eq : t = modZone z (fun r => { r with protection := .normal }) x := by
    rw [last]
    exact deriveProtection_clear (protectionOf_clear active_x fun k => by rw [fault]; exact clear k)
  have zone : ∀ y, t.zone y = if y = z then { w.zone z with protection := .normal } else w.zone y := fun y => by
    rw [eq, modZone_zone, waited]; rfl
  have active_t : (t.zone z).active = some e := by rw [zone, if_pos rfl]; exact active_w
  have still : t.still = v.still := by
    rw [last, deriveProtection_still, hx, rewake_still, hw, checkDrop_still]
  have active_v : (t.zone z).active = (v.zone z).active := by rw [active_t, record, flip_active, other]
  have clear_t : (t.zone z).protection = .normal := by rw [zone, if_pos rfl]
  have faults_t : t.faults = s.faults := by rw [eq]; exact faults
  refine ⟨⟨v, hv, faults_t, awake_of_still still active_v, ?_, ?_, hw ▸ zone, fun c => ?_, ?_⟩, fun y => ?_, active_t, ?_, ?_⟩
  · rw [← hw, ← rewake_claimant z z w, ← hx, eq]; rfl
  · rw [deliverable_of_still still active_v clear_t, record]
  · rw [← hw, ← hx, eq]; rfl
  · rw [eq]; exact loops
  · have side_v : (v.zone y).side = if y = z then (s.zone z).side.flip else (s.zone y).side := by
      have entry : v.zone y = if y = z then { s.zone z with side := (s.zone z).side.flip } else s.zone y := by
        rw [started]; exact vector_set_get _ _ _ _
      rw [entry]
      split <;> rfl
    have side_w : (w.zone y).side = (v.zone y).side := by
      rcases dropped with h | h
      · rw [h]
      · rw [h, dropZone_zone]
        split
        · next same => rw [same.1, released_side]
        · rfl
    rw [zone, ← side_v, ← side_w]
    split
    · next same => rw [same]
    · rfl
  · rw [clear_t]
    refine (protectionOf_clear active_t fun k => ?_).symm
    simp only [State.fault, faults_t]
    exact clear k
  · have worked_v : v.PowerWorkedOut z := hv ▸ recommandZone_worksOut z _
    have worked_w : w.PowerWorkedOut z := by
      rcases dropped with h | h
      · rw [h]; exact worked_v
      · rw [h]; exact worked_v.dropZone z
    rw [eq]
    refine State.PowerWorkedOut.protect ?_ z _
    have claimant : x.claimant = w.claimant := funext fun y => by rw [hx, rewake_claimant]
    refine worked_w.congr ?_ ?_ ?_ ?_ (by rw [claimant])
    all_goals rw [waited]
    rfl

/-- What a swap leaves of the calls (R47, R93, R98). -/
theorem swapZone_claim (other : (s.zone z).other = some e) (clear : ∀ k, (s.fault (.endpoint e k)).state.actionable = false)
    (unique : s.ClaimsUnique) (ht : t = swapZone z s) :
    (∀ c, t.claimant z = some c → (t.call c).state = .playing → t.awake z = true) ∧
    (∀ d, s.claimant z ≠ some d → t.call d = s.call d) ∧
    (t.zone z).idleDeadline = (if (s.claimant z).isSome = true ∧ t.claimant z = none
      then ((s.zone z).released s.now).idleDeadline else (s.zone z).idleDeadline) ∧
    ∀ c, s.claimant z = some c →
      ((s.zone z).protection = .muted ∨ t.deliverable z = false ∨ (s.call c).state = .playing ∧ t.awake z = false →
        t.claimant z = none ∧ t.call c = if ((s.call c).without z).delivered = 0 then {} else (s.call c).without z) ∧
      ((s.zone z).protection ≠ .muted → t.deliverable z = true →
        (t.awake z = true ∨ (s.call c).state = .tail → t.call c = s.call c) ∧
        (t.awake z = false → (s.call c).state = .waking → t.call c =
          { s.call c with wake := (s.call c).wake.set z (some (s.now + s.config.wakeTimeout)) })) := by
  obtain ⟨⟨v, hv, -, awake, claimant, delivers, zone, call, -⟩, -⟩ := swapZone_spec other clear ht
  obtain ⟨ls, es, ds, started, -⟩ := swapStart_eq z s
  rw [← hv] at started
  have call_v : v.call = s.call := by rw [started]; rfl
  have claimant_v : v.claimant z = s.claimant z := by rw [started]; rfl
  have unique_v : v.ClaimsUnique := fun y c d => by rw [call_v]; exact unique y c d
  have now_v : v.now = s.now := by rw [started]
  have config_v : v.config = s.config := by rw [started]
  have zone_v : v.zone z = { s.zone z with side := (s.zone z).side.flip } := by
    rw [started]; exact (vector_set_get _ _ _ _).trans (if_pos rfl)
  have must_iff : ∀ c, v.mustDrop z c ↔
      ((s.zone z).protection = .muted ∨ t.deliverable z = false ∨ (s.call c).state = .playing ∧ t.awake z = false) := fun c => by
    unfold State.mustDrop
    rw [call_v, awake, ← Bool.not_eq_true, delivers, not_and_or, not_not, Bool.not_eq_true, or_assoc]
  have idle := (congrArg Zone.idleDeadline (zone z)).trans (congrArg Zone.idleDeadline (if_pos rfl))
  by_cases drop : ∃ c, s.claimant z = some c ∧ v.mustDrop z c
  · obtain ⟨c, claimed, must⟩ := drop
    have dropped := checkDrop_drops (claimant_v.trans claimed) must
    rw [dropped] at claimant call idle
    have free : t.claimant z = none := claimant.trans (dropZone_unclaims unique_v z)
    have calls : ∀ d, t.call d = if s.claimant z = some d then (s.call d).dropped z else s.call d := fun d => by
      rw [call, rewake_call, if_neg (fun h => by rw [dropZone_unclaims unique_v z] at h; exact nomatch h.1), dropZone_call, claimant_v, call_v]
    refine ⟨fun d h => absurd (free.symm.trans h) (by simp), fun d ne => (calls d).trans (if_neg ne), ?_, fun d hd => ⟨fun _ =>
      ⟨free, (calls d).trans (if_pos hd)⟩, fun loud delivered => ?_⟩⟩
    · rw [if_pos ⟨by rw [claimed]; rfl, free⟩]
      refine idle.trans ?_
      rw [dropZone_zone, claimant_v, claimed, if_pos ⟨rfl, rfl⟩, zone_v, now_v]
      unfold Zone.released
      split <;> rfl
    · have same : c = d := Option.some.inj (claimed.symm.trans hd)
      subst same
      rcases (must_iff c).mp must with muted | off | ⟨playing, asleep⟩
      · exact absurd muted loud
      · rw [delivered] at off; exact nomatch off
      · refine ⟨fun h => ?_, fun _ waking => absurd (playing.symm.trans waking) (by decide)⟩
        rcases h with up | tail
        · rw [asleep] at up; exact nomatch up
        · rw [playing] at tail; exact nomatch tail
  · have keeps : ∀ c, s.claimant z = some c → ¬ v.mustDrop z c := fun c claimed must => drop ⟨c, claimed, must⟩
    have kept : checkDrop z v = v := checkDrop_keeps fun c h => keeps c (claimant_v ▸ h)
    rw [kept] at claimant call idle
    have same : t.claimant z = s.claimant z := claimant.trans claimant_v
    have calls : ∀ d, t.call d = if s.claimant z = some d ∧ (s.call d).state = .waking ∧ t.awake z = false
        then { s.call d with wake := (s.call d).wake.set z (some (s.now + s.config.wakeTimeout)) } else s.call d := fun d => by
      rw [call, rewake_call, claimant_v, call_v, awake, now_v, config_v]
    refine ⟨fun c h playing => ?_, fun d ne => (calls d).trans (if_neg fun h => ne h.1), ?_, fun c claimed => ⟨fun must =>
      absurd ((must_iff c).mpr must) (keeps c claimed), fun _ _ => ⟨fun h => ?_, fun asleep waking => ?_⟩⟩⟩
    · have claimed := same.symm.trans h
      by_contra asleep
      rw [Bool.not_eq_true] at asleep
      refine keeps c claimed ((must_iff c).mpr (.inr (.inr ⟨?_, asleep⟩)))
      rw [calls c] at playing
      split at playing
      · next waits => rw [show (s.call c).state = .waking from waits.2.1] at playing; exact nomatch playing
      · exact playing
    · rw [if_neg fun h => ?_]
      · exact idle.trans (show (v.zone z).idleDeadline = _ by rw [zone_v])
      · rw [← same, h.2] at h
        exact nomatch h.1
    · refine (calls c).trans (if_neg fun w => ?_)
      rcases h with up | tail
      · rw [up] at w; exact nomatch w.2.2
      · rw [tail] at w; exact nomatch w.2.1
    · exact (calls c).trans (if_pos ⟨claimed, waking, asleep⟩)

theorem swapBody_noZone {zone : Byte} (serving : s.service = .service) (h : s.enabledZone zone = none) :
    swapBody zone s = refuse .badIndex s := by
  unfold swapBody
  rw [if_neg (notConfiguration serving), h]

theorem swapBody_of_zone {zone : Byte} (serving : s.service = .service) (h : s.enabledZone zone = some z) : swapBody zone s =
    if (s.zone z).standby = none then refuse .badValue s
    else if s.swapCondition z then (swapZone z s, .normal .ok []) else refuse .busy s := by
  unfold swapBody
  rw [if_neg (notConfiguration serving), h]

theorem swapCondition_iff (standby : (s.zone z).standby.isSome = true) (other : (s.zone z).other = some e) : s.swapCondition z = true ↔
    (s.endpoint e).presence = .present ∧ ∀ k, (s.fault (.endpoint e k)).state.actionable = false := by
  have none_ : s.hasActionable e = false ↔ ∀ k, (s.fault (.endpoint e k)).state.actionable = false := by
    rw [← Bool.not_eq_true, hasActionable_iff]; simp
  rw [← none_]
  unfold State.swapCondition
  rw [other, standby]
  simp

end

/-- Settles O40: the refusals in their order, then the swap. -/
theorem swapChangesTheActiveSide : Obligations.SwapChangesTheActiveSide := by
  intro src req zone s ready
  have run : exec (.swap src req zone) s = .next (placeReply src 0x08 req (swapBody zone (leaveCommand s))) :=
    congrArg Host.Outcome.next (takeCommand_ready ready)
  have refused : ∀ {st}, swapBody zone (leaveCommand s) = refuse st (leaveCommand s) →
      exec (.swap src req zone) s = .next (s.answered (s.reply src 0x08 req st [])) := fun h => by
    rw [run, h, placeReply_refuse]
  have zone_eq : (leaveCommand s).zone = s.zone := funext fun z => leaveCommand_zone s z
  refine ⟨fun config => refused (if_pos ((leaveCommand_service s).trans config)), fun serving => ?_⟩
  have serving' : (leaveCommand s).service = .service := (leaveCommand_service s).trans serving
  refine ⟨fun bad => refused (swapBody_noZone serving' (enabledZone_none (by rw [zone_eq]; exact bad))), fun z hz on => ?_⟩
  have named := swapBody_of_zone serving' (enabledZone_some hz (by rw [zone_eq]; exact on) : (leaveCommand s).enabledZone zone = some z)
  rw [zone_eq] at named
  refine ⟨fun spare => refused (named.trans (if_pos spare)), fun e standby other => ?_⟩
  have spare : (s.zone z).standby ≠ none := fun h => by rw [h] at standby; exact nomatch standby
  obtain ⟨_, _, left⟩ := leaveCommand_eq s
  have condition : (leaveCommand s).swapCondition z = true ↔
      (s.endpoint e).presence = .present ∧ ∀ k, (s.fault (.endpoint e k)).state.actionable = false := by
    rw [left]
    exact swapCondition_iff standby other
  refine ⟨fun bad => refused ((named.trans (if_neg spare)).trans (if_neg fun ok => ?_)), fun present clear => ?_⟩
  · obtain ⟨present, clear⟩ := condition.mp ok
    rcases bad with absent | ⟨k, acts⟩
    · exact absent present
    · rw [clear k] at acts; exact nomatch acts
  have change : ∃ t, t = swapZone z (leaveCommand s) := ⟨_, rfl⟩
  obtain ⟨t, ht⟩ := change
  rw [(named.trans (if_neg spare)).trans (if_pos (condition.mpr ⟨present, clear⟩)), ← ht] at run
  have other' : ((leaveCommand s).zone z).other = some e := by rw [zone_eq]; exact other
  have clear' : ∀ k, ((leaveCommand s).fault (.endpoint e k)).state.actionable = false := by rw [left]; exact clear
  obtain ⟨⟨v, hv, faults, awake, claimant, delivers, zones, calls, loops⟩, sides, active, protection, worked⟩ :=
    swapZone_spec other' clear' ht
  have still : t.still = (leaveCommand s).still := by rw [ht, swapZone_still]
  have sends : Sends s t := .trans (by rw [left]; exact .of_same rfl rfl rfl rfl) (ht ▸ swapZone_sends (leaveCommand s) z)
  have claim : s.CallsSound → _ := fun sound => swapZone_claim other' clear' (by rw [left]; exact sound.unique) ht
  obtain ⟨node, -, -, -, -, replies, -⟩ := still_shares still
  rw [placeReply_shared (s := s) (node.trans (leaveCommand_node s)) (replies.trans (leaveCommand_replies s))] at run
  obtain ⟨ls, es, ds, started, loop⟩ := swapStart_eq z (leaveCommand s)
  rw [← hv] at started
  refine ⟨_, run, rfl, ?_, ?_, active, fun x named used place => ?_, protection, fun l hl => ?_, fun sound => (claim sound).1,
    fun sound => ?_, (sends.trans (.of_same rfl rfl rfl rfl)).sent serving, faults.trans (leaveCommand_faults s), ?_⟩
  · refine (sides z).trans ((if_pos rfl).trans ?_)
    rw [zone_eq]
    cases (s.zone z).side <;> rfl
  · intro y ne
    refine (sides y).trans ((if_neg ne).trans ?_)
    rw [zone_eq]
  · have settled : (t.endpoint x).still = (s.endpoint x).still := sends.endpoint x
    exact worked.replies _ x named ((congrArg Endpoint.inUse settled).trans used) ((congrArg Endpoint.place settled).trans place)
  · have bound : (leaveCommand s).loopOf z = some l := by rw [left]; exact hl
    refine loops.trans ?_
    rw [started]
    rw [loop l bound, left]
  · have spec := (claim sound).2
    rw [left] at spec
    exact spec
  · refine (still_replies still _).trans ?_
    unfold State.answered
    rw [left]

end Sys2Proof.Machine
end

section
/-! Fault records through raises and observations (R119, R120), and what the changes of one moment, raises and swaps among them, leave of
one zone: its claim, idle deadline and commanded power (R39, R40, R98). -/

namespace Sys2Proof.Machine

/-! ### Fault records (R119, R120) -/

section
variable {s t u : State} {z y : ZoneId} {e : EndpointId}

theorem endCandidate_faults (z : ZoneId) (s : State) : (endCandidate z s).faults = s.faults := by
  obtain ⟨_, eq, -⟩ := endCandidate_eq z s
  rw [eq]

theorem checkDrop_cases (z : ZoneId) (s : State) : checkDrop z s = s ∨ checkDrop z s = dropZone z s := by
  unfold checkDrop
  split
  · exact .inl rfl
  · split
    · exact .inr rfl
    · exact .inl rfl

theorem checkDrop_faults (z : ZoneId) (s : State) : (checkDrop z s).faults = s.faults := by
  rcases checkDrop_cases z s with eq | eq
  · rw [eq]
  · rw [eq, dropZone_faults]

theorem swapZone_faults (z : ZoneId) (s : State) : (swapZone z s).faults = s.faults := by
  obtain ⟨_, _, _, started, -⟩ := swapStart_eq z s
  obtain ⟨_, waited⟩ := rewake_eq z (checkDrop z (swapStart z s))
  show (deriveProtection z (rewake z (checkDrop z (swapStart z s)))).faults = _
  rw [(deriveProtection_spec z _).1, waited]
  exact (checkDrop_faults z _).trans (by rw [started])

theorem whenSome_faults {f : ZoneId → State → State} (h : ∀ z s, (f z s).faults = s.faults) (o : Option ZoneId) (s : State) :
    (whenSome o f s).faults = s.faults := by
  cases o with
  | none => rfl
  | some z => exact h z s

theorem faultEvent_faults (f : FaultRef) (flags : Byte) (st : FaultState) (a : PolicyAction) (n : Nat) (s : State) :
    (faultEvent f flags st a n s).faults = s.faults := pushEvent_faults s _ _ _

theorem raise_faults (f : FaultRef) (s : State) :
    (raise f s).faults = (setFault f ((s.fault f).raisedBy s.policy[policyIndex f] s.now) s).faults := by
  have swapped : ∀ (o : Option ZoneId) (u : State), (whenSome o swapZone u).faults = u.faults := whenSome_faults swapZone_faults
  unfold raise
  simp only
  split
  · rw [whenSome_faults fun z u => (deriveProtection_spec z u).1, swapped, faultEvent_faults]
  · rw [swapped, faultEvent_faults]

/-- The record that one observation leaves (R119). -/
def State.observed (s : State) (f : FaultRef) (isPresent : Bool) : FaultRecord :=
  if s.policy[policyIndex f].mode = .disabled then s.fault f
  else if (s.fault f).state.raised then { s.fault f with lastPresent := isPresent }
  else if isPresent then
    if s.policy[policyIndex f].deglitch ≤ (s.fault f).deglitch + 1 then (s.fault f).raisedBy s.policy[policyIndex f] s.now
    else { s.fault f with state := .counting, deglitch := (s.fault f).deglitch + 1, lastPresent := true }
  else { s.fault f with state := .clear, deglitch := 0, lastPresent := false }

theorem observe_fault (f x : FaultRef) (b : Bool) (s : State) : (observe f b s).fault x = if x = f then s.observed f b else s.fault x := by
  have put : ∀ r, (setFault f r s).fault x = if x = f then r else s.fault x := fun r => setFault_fault _ _ _ _
  unfold observe State.observed
  simp only
  split
  · split
    · next same => rw [same]
    · rfl
  · split
    · exact put _
    · split
      · split
        · refine Eq.trans ?_ (put _)
          simp only [State.fault, raise_faults]
        · exact put _
      · exact put _

/-- After an observation the record's last observation is what was observed. -/
theorem observed_lastPresent {f : FaultRef} (watched : s.policy[policyIndex f].mode ≠ .disabled) (b : Bool) :
    (s.observed f b).lastPresent = b := by
  unfold State.observed
  rw [if_neg watched]
  cases b <;> split
  · rfl
  · rfl
  · rfl
  · rw [if_pos rfl]
    split <;> rfl

end

/-! ### One zone through a chain of changes (R39, R40, R98) -/

/-- From `s` to `t`, at one moment, no zone gains a claim, and zone `z` keeps its configuration; where its endpoints had the states of
Table 2-5 they have them again; it keeps its idle deadline with its claim, and one that loses its claim is released. -/
structure Drops (z : ZoneId) (s t : State) : Prop where
  now : t.now = s.now
  record : (t.zone z).still = (s.zone z).still
  fewer : ∀ y c, (t.call c).claims y = true → (s.call c).claims y = true
  worked : s.PowerWorkedOut z → t.PowerWorkedOut z
  deadline : s.ClaimsUnique → (t.claimant z).isSome = (s.claimant z).isSome → (t.zone z).idleDeadline = (s.zone z).idleDeadline
  released : s.ClaimsUnique → (s.claimant z).isSome = true → t.claimant z = none →
    t.PowerWorkedOut z ∧ (t.zone z).idleDeadline = ((s.zone z).released s.now).idleDeadline
  either : (t.zone z).idleDeadline = (s.zone z).idleDeadline ∨ (t.zone z).idleDeadline = ((s.zone z).released s.now).idleDeadline

theorem released_still (r : Zone) (now : Nat) : (r.released now).still = r.still := by
  unfold Zone.released
  split <;> rfl

theorem released_deadline {r q : Zone} (still : r.still = q.still) (deadline : r.idleDeadline = q.idleDeadline) (now : Nat) :
    (r.released now).idleDeadline = (q.released now).idleDeadline := by
  have policy : r.idlePolicy = q.idlePolicy := (congrArg Zone.idlePolicy still :)
  have time : r.idleTime = q.idleTime := (congrArg Zone.idleTime still :)
  unfold Zone.released
  rw [policy, time]
  split
  · rfl
  · exact deadline

theorem claimant_fewer {s t : State} {z : ZoneId} (fewer : ∀ y c, (t.call c).claims y = true → (s.call c).claims y = true)
    (free : s.claimant z = none) : t.claimant z = none := by
  rw [claimant_eq_none] at free ⊢
  intro c
  rw [← Bool.not_eq_true]
  intro claims
  have old := fewer z c claims
  rw [free c] at old
  exact nomatch old

namespace Drops
variable {s t u : State} {z y : ZoneId}

/-- A change that leaves every claim, and of the zone its configuration and idle deadline. -/
theorem of_claims (now : t.now = s.now) (record : (t.zone z).still = (s.zone z).still)
    (deadline : (t.zone z).idleDeadline = (s.zone z).idleDeadline)
    (claims : ∀ y c, (t.call c).claims y = (s.call c).claims y) (worked : s.PowerWorkedOut z → t.PowerWorkedOut z) : Drops z s t where
  now := now
  record := record
  fewer := fun y c h => claims y c ▸ h
  worked := worked
  deadline := fun _ _ => deadline
  released := fun _ held lost => absurd ((claimant_congr fun c => (claims z c).symm).trans lost) fun h => by rw [h] at held; exact nomatch held
  either := .inl deadline

theorem of_same (now : t.now = s.now) (zones : t.zones = s.zones) (calls : t.calls = s.calls) (endpoints : t.endpoints = s.endpoints)
    (service : t.service = s.service) : Drops z s t := by
  have zone : t.zone z = s.zone z := by simp only [State.zone, zones]
  have call : ∀ c, t.call c = s.call c := fun c => by simp only [State.call, calls]
  refine .of_claims now (by rw [zone]) (by rw [zone]) (fun y c => by rw [call]) fun worked => worked.congr endpoints service now zone ?_
  exact congrArg Option.isSome (claimant_congr fun c => by rw [call])

theorem refl (z : ZoneId) (s : State) : Drops z s s := of_same rfl rfl rfl rfl rfl

theorem unique (h : Drops z s t) (unique : s.ClaimsUnique) : t.ClaimsUnique := unique.of_fewer h.fewer

theorem trans (h : Drops z s t) (g : Drops z t u) : Drops z s u := by
  have none_ : s.claimant z = none → t.claimant z = none := claimant_fewer h.fewer
  have none' : t.claimant z = none → u.claimant z = none := claimant_fewer g.fewer
  refine ⟨g.now.trans h.now, g.record.trans h.record, fun y c claims => h.fewer y c (g.fewer y c claims), fun worked => g.worked (h.worked worked),
    fun unique same => ?_, fun unique held lost => ?_, ?_⟩
  · have mid : (t.claimant z).isSome = (s.claimant z).isSome := by
      cases first : s.claimant z with
      | none => rw [none_ first]
      | some c =>
        cases second : t.claimant z with
        | none => rw [first, none' second] at same; exact nomatch same
        | some d => rfl
    exact (g.deadline (h.unique unique) (same.trans mid.symm)).trans (h.deadline unique mid)
  · cases mid : t.claimant z with
    | none =>
      obtain ⟨worked, deadline⟩ := h.released unique held mid
      exact ⟨g.worked worked, (g.deadline (h.unique unique) (by rw [lost, mid])).trans deadline⟩
    | some d =>
      obtain ⟨worked, deadline⟩ := g.released (h.unique unique) (by rw [mid]; rfl) lost
      refine ⟨worked, deadline.trans ?_⟩
      rw [h.now]
      exact released_deadline h.record (h.deadline unique (by rw [mid, held]; rfl)) s.now
  · rcases g.either with same | again
    · exact h.either.imp same.trans same.trans
    · refine .inr (again.trans ?_)
      rw [h.now]
      rcases h.either with same | once
      · exact released_deadline h.record same s.now
      · rw [released_deadline (h.record.trans (released_still _ s.now).symm) once s.now, Zone.released_released]

theorem forEach {α : Type} {f : α → State → State} (h : ∀ a s, Drops z s (f a s)) (l : List α) (s : State) : Drops z s (forEach l f s) :=
  forEach_invariant (P := Drops z s) s (fun a _ g => g.trans (h a _)) l (refl z s)

theorem whenSome {α : Type} {f : α → State → State} (h : ∀ a s, Drops z s (f a s)) (o : Option α) (s : State) :
    Drops z s (whenSome o f s) := by
  cases o with
  | none => exact refl z s
  | some a => exact h a s

theorem ite {p : Prop} [Decidable p] (h : Drops z s t) (g : Drops z s u) : Drops z s (if p then t else u) := by
  split
  · exact h
  · exact g

end Drops

section
variable (s : State) (z y : ZoneId)

theorem setFault_drops (f : FaultRef) (r : FaultRecord) : Drops z s (setFault f r s) := .of_same rfl rfl rfl rfl rfl
theorem modLoop_drops (l : ParamId) (f : LoopRecord → LoopRecord) : Drops z s (modLoop l f s) := .of_same rfl rfl rfl rfl rfl

theorem faultEvent_drops (f : FaultRef) (flags : Byte) (st : FaultState) (a : PolicyAction) (n : Nat) :
    Drops z s (faultEvent f flags st a n s) := by
  unfold faultEvent
  rw [pushEvent_eq]
  exact .of_same rfl rfl rfl rfl rfl

theorem endCandidate_drops : Drops z s (endCandidate y s) := .whenSome (fun l u => modLoop_drops u z l _) _ s

theorem recommandZone_drops : Drops z s (recommandZone y s) := by
  obtain ⟨es, ds, eq⟩ := recommandZone_eq y s
  have zones : (recommandZone y s).zones = s.zones := by rw [eq]
  have calls : (recommandZone y s).calls = s.calls := by rw [eq]
  have zone : (recommandZone y s).zone z = s.zone z := by simp only [State.zone, zones]
  refine .of_claims (by rw [eq]) (by rw [zone]) (by rw [zone]) (fun x c => by simp only [State.call, calls]) fun worked => worked.recommandZone y

/-- A change of a zone record that leaves its configuration and idle deadline, and after which the endpoints of the zone still have the
states of Table 2-5. -/
theorem modZone_drops {f : Zone → Zone} (record : ∀ r, (f r).still = r.still) (deadline : ∀ r, (f r).idleDeadline = r.idleDeadline)
    (worked : s.PowerWorkedOut z → (modZone y f s).PowerWorkedOut z) : Drops z s (modZone y f s) := by
  refine .of_claims rfl ?_ ?_ (fun _ _ => rfl) worked
  · rw [modZone_zone]
    split
    · next same => rw [record, same]
    · rfl
  · rw [modZone_zone]
    split
    · next same => rw [deadline, same]
    · rfl

theorem dropZone_drops : Drops z s (dropZone y s) := by
  have record : ((dropZone y s).zone z).still = (s.zone z).still := by
    rw [dropZone_zone]
    split
    · next same =>
      rw [same.1, released_still]
    · rfl
  refine ⟨(congrArg State.now (dropZone_still s y) :), record, fun x c h => ?_, fun worked => worked.dropZone y, fun unique same => ?_,
    fun unique held lost => ?_, ?_⟩
  · rw [dropZone_claims, Bool.and_eq_true] at h
    exact h.1
  · rw [dropZone_zone, if_neg]
    rintro ⟨rfl, claimed⟩
    rw [dropZone_unclaims unique z, claimed] at same
    exact nomatch same
  · by_cases here : z = y
    · subst here
      refine ⟨dropZone_worksOut held, ?_⟩
      rw [dropZone_zone, if_pos ⟨rfl, held⟩]
    · rw [dropZone_claimant_other here] at lost
      rw [lost] at held
      exact nomatch held
  · rw [dropZone_zone]
    split
    · next here => rw [here.1]; exact .inr rfl
    · exact .inl rfl

theorem checkDrop_drops_zone : Drops z s (checkDrop y s) := by
  rcases checkDrop_cases y s with eq | eq
  · rw [eq]; exact .refl z s
  · rw [eq]; exact dropZone_drops s z y

theorem rewake_drops : Drops z s (rewake y s) := by
  obtain ⟨cs, eq⟩ := rewake_eq y s
  have zone : (rewake y s).zone z = s.zone z := by rw [eq]; rfl
  have claimant : (rewake y s).claimant z = s.claimant z := rewake_claimant y z s
  refine .of_claims (by rw [eq]) (by rw [zone]) (by rw [zone]) (fun x c => ?_) fun worked =>
    worked.congr (by rw [eq]) (by rw [eq]) (by rw [eq]) zone (by rw [claimant])
  rw [rewake_call]
  split <;> rfl

theorem deriveProtection_drops : Drops z s (deriveProtection y s) := by
  have protect : ∀ p, Drops z s (modZone y (fun r => { r with protection := p }) s) := fun p =>
    modZone_drops s z y (fun _ => rfl) (fun _ => rfl) fun worked => worked.protect y p
  exact .ite (.refl z s) ((protect _).trans (.ite ((endCandidate_drops _ z y).trans (dropZone_drops _ z y)) (.refl z _)))

theorem swapStart_drops : Drops z s (swapStart y s) := by
  obtain ⟨ls, es, ds, eq, -⟩ := swapStart_eq y s
  have zone : (swapStart y s).zone z = if z = y then { s.zone y with side := (s.zone y).side.flip } else s.zone z := by
    rw [eq]; exact vector_set_get _ _ _ _
  refine .of_claims (by rw [eq]) ?_ ?_ (fun _ _ => by rw [eq]; rfl) fun worked => ?_
  · rw [zone]; split
    · next same => rw [same]; rfl
    · rfl
  · rw [zone]; split
    · next same => rw [same]
    · rfl
  · by_cases here : z = y
    · subst here; exact recommandZone_worksOut z _
    · exact ((endCandidate_drops _ z y).worked (worked.modZone_other here _)).recommandZone y

theorem swapZone_drops : Drops z s (swapZone y s) :=
  (swapStart_drops s z y).trans <| (checkDrop_drops_zone _ z y).trans <| (rewake_drops _ z y).trans (deriveProtection_drops _ z y)

theorem raise_drops (f : FaultRef) : Drops z s (raise f s) := by
  have chain : ∀ (u : State) (o : Option ZoneId), Drops z s u → Drops z s (whenSome o swapZone u) :=
    fun u o h => h.trans (.whenSome (fun y v => swapZone_drops v z y) o u)
  have noted : ∀ r flags st a n, Drops z s (faultEvent f flags st a n (setFault f r s)) := fun r flags st a n =>
    (setFault_drops s z f r).trans (faultEvent_drops _ z f flags st a n)
  unfold raise
  simp only
  exact .ite ((chain _ _ (noted _ _ _ _ _)).trans (.whenSome (fun y v => deriveProtection_drops v z y) _ _)) (chain _ _ (noted _ _ _ _ _))

theorem observe_drops (f : FaultRef) (b : Bool) : Drops z s (observe f b s) :=
  .ite (.refl z s) <| .ite (setFault_drops s z _ _) <| .ite (.ite (raise_drops s z f) (setFault_drops s z _ _)) (setFault_drops s z _ _)

end

end Sys2Proof.Machine
end

section
/-! A silent endpoint (R37) and an idle deadline that is reached (R40). -/

namespace Sys2Proof.Machine

/-! ### What an observation leaves of a zone's active endpoint and of its loop record -/

section
variable {s t u : State} {z : ZoneId} {e : EndpointId}

theorem active_of_side {r q : Zone} (still : r.still = q.still) (side : r.side = q.side) : r.active = q.active := by
  have primary : r.primary = q.primary := (congrArg Zone.primary still :)
  have standby : r.standby = q.standby := (congrArg Zone.standby still :)
  unfold Zone.active
  rw [primary, standby, side]

theorem zoneOfEndpoint_of_still (h : t.still = s.still) (e : EndpointId) : t.zoneOfEndpoint e = s.zoneOfEndpoint e := by
  have entry := still_endpoint h e
  have used : (t.endpoint e).inUse = (s.endpoint e).inUse := (congrArg Endpoint.inUse entry :)
  have role : (t.endpoint e).role = (s.endpoint e).role := (congrArg Endpoint.role entry :)
  have place : (t.endpoint e).place = (s.endpoint e).place := (congrArg Endpoint.place entry :)
  unfold State.zoneOfEndpoint
  simp only [used, role, place]

theorem checkDrop_active (z : ZoneId) (s : State) : ((checkDrop z s).zone z).active = (s.zone z).active := by
  rcases checkDrop_cases z s with eq | eq
  · rw [eq]
  · rw [eq, dropZone_zone]
    split
    · exact released_active _ _
    · rfl

theorem faultEvent_zones (f : FaultRef) (flags : Byte) (st : FaultState) (a : PolicyAction) (n : Nat) (s : State) :
    (faultEvent f flags st a n s).zones = s.zones := by
  unfold faultEvent
  rw [pushEvent_eq]

/-- What holds after the steps of which an observation may consist: a record written, a raise's event, its swap, a protection derived. -/
theorem observe_induction {P : State → Prop} {f : FaultRef} (start : P s) (put : ∀ r, P (setFault f r s))
    (event : ∀ v flags st a n, P v → P (faultEvent f flags st a n v))
    (swap : ∀ v p st r y, (setFault f r s).swapTarget f p st = some y → P v → P (swapZone y v))
    (derive : ∀ v y, v.zoneConcerned f = some y → P v → P (deriveProtection y v)) (b : Bool) : P (observe f b s) := by
  have raised : P (raise f s) := by
    have swapped : ∀ v p st r, P v → P (whenSome ((setFault f r s).swapTarget f p st) swapZone v) := fun v p st r h => by
      cases target : (setFault f r s).swapTarget f p st with
      | none => exact h
      | some y => exact swap v p st r y target h
    have derived : ∀ v, P v → P (whenSome (v.zoneConcerned f) deriveProtection v) := fun v h => by
      cases concerned : v.zoneConcerned f with
      | none => exact h
      | some y => exact derive v y concerned h
    unfold raise
    simp only
    split
    · exact derived _ (swapped _ _ _ _ (event _ _ _ _ _ (put _)))
    · exact swapped _ _ _ _ (event _ _ _ _ _ (put _))
  unfold observe
  simp only
  split
  · exact start
  · split
    · exact put _
    · split
      · split
        · exact raised
        · exact put _
      · exact put _

/-- A fault of an endpoint that is not the active one of its zone swaps nothing. -/
theorem observe_active_other (b : Bool) (k : Fin 6) (concerned : s.zoneOfEndpoint e = some z) (ne : (s.zone z).active ≠ some e) :
    ((observe (.endpoint e k) b s).zone z).active = (s.zone z).active := by
  refine active_of_side (still_zone (observe_still s _ b) z) ?_
  refine observe_induction (P := fun v => (v.zone z).side = (s.zone z).side) rfl (fun _ => rfl) (fun v flags st a n h => ?_)
    (fun v p st r y target => absurd target ?_) (fun v y _ h => ((deriveProtection_spec y v).2.1 z).trans h) b
  · unfold State.zone
    rw [faultEvent_zones]
    exact h
  · have zone : (setFault (.endpoint e k) r s).zoneConcerned (.endpoint e k) = some z := concerned
    unfold State.swapTarget
    rw [zone]
    simp only
    rw [if_neg fun h => ne h.2.2.2.2.1]
    simp

/-- The candidate of a zone that has ended ends no further. -/
theorem endCandidate_again (h : u.loops = (endCandidate z s).loops) : (endCandidate z u).loops = (endCandidate z s).loops := by
  have entry : ∀ i : ParamId, u.loops[i] = if s.loopOf z = some i then { s.loops[i] with candidate := none, accumulator := 0 } else s.loops[i] :=
    fun i => (congrArg (fun v : Vector LoopRecord 8 => v[i]) h).trans (endCandidate_loop z i s)
  have bound : u.loopOf = s.loopOf := loopOf_congr fun i => by
    rw [entry]
    split <;> rfl
  rw [← h]
  ext i hi : 1
  have here : (endCandidate z u).loops[(⟨i, hi⟩ : ParamId)] = u.loops[(⟨i, hi⟩ : ParamId)] := by
    rw [endCandidate_loop, bound, entry]
    split <;> rfl
  exact here

theorem swapZone_loops (z : ZoneId) (s : State) : (swapZone z s).loops = (endCandidate z s).loops := by
  have change : ∃ v, v = modZone z (fun r => { r with side := r.side.flip }) s := ⟨_, rfl⟩
  obtain ⟨v, hv⟩ := change
  have start : (swapStart z s).loops = (endCandidate z s).loops := by
    obtain ⟨_, _, eq⟩ := recommandZone_eq z (endCandidate z v)
    rw [swapStart, ← hv, eq]
    ext i hi : 1
    have here : (endCandidate z v).loops[(⟨i, hi⟩ : ParamId)] = (endCandidate z s).loops[(⟨i, hi⟩ : ParamId)] := by
      rw [endCandidate_loop, endCandidate_loop, hv]
      rfl
    exact here
  obtain ⟨_, waited⟩ := rewake_eq z (checkDrop z (swapStart z s))
  have before : (rewake z (checkDrop z (swapStart z s))).loops = (endCandidate z s).loops := by
    have checked : (checkDrop z (swapStart z s)).loops = (swapStart z s).loops := by
      rcases checkDrop_cases z (swapStart z s) with eq | eq
      · rw [eq]
      · rw [eq, dropZone_loops]
    rw [waited]
    exact checked.trans start
  show (deriveProtection z (rewake z (checkDrop z (swapStart z s)))).loops = _
  rcases (deriveProtection_spec z (rewake z (checkDrop z (swapStart z s)))).2.2.2 with same | ended
  · exact same.trans before
  · exact ended.trans (endCandidate_again before)

/-- A fault of an endpoint of a zone whose candidate has ended leaves the loop records. -/
theorem observe_loops_ended {k : Fin 6} (concerned : s.zoneOfEndpoint e = some z) (ended : s.loops = (endCandidate z u).loops) (b : Bool) :
    (observe (.endpoint e k) b s).loops = s.loops := by
  have of_still : ∀ v : State, v.still = s.still → ∀ y, v.zoneConcerned (.endpoint e k) = some y → y = z := fun v h y hy =>
    Option.some.inj (hy.symm.trans ((zoneOfEndpoint_of_still h e).trans concerned))
  have goal := observe_induction (P := fun v => v.still = s.still ∧ v.loops = s.loops) (f := .endpoint e k) ⟨rfl, rfl⟩ (fun _ => ⟨rfl, rfl⟩)
    (fun v flags st a n h => ⟨(faultEvent_still _ _ _ _ _ _).trans h.1, ?_⟩) (fun v p st r y target h => ⟨(swapZone_still _ _).trans h.1, ?_⟩)
    (fun v y hy h => ⟨(deriveProtection_still _ _).trans h.1, ?_⟩) b
  · exact goal.2
  · refine Eq.trans ?_ h.2
    unfold faultEvent
    rw [pushEvent_eq]
  · have same : y = z := by
      unfold State.swapTarget at target
      have zone : (setFault (.endpoint e k) r s).zoneConcerned (.endpoint e k) = some z := concerned
      rw [zone] at target
      simp only at target
      split at target
      · exact (Option.some.inj target).symm
      · exact nomatch target
    subst same
    rw [swapZone_loops, ended]
    exact endCandidate_again (h.2.trans ended)
  · have same := of_still v h.1 y hy
    subst same
    rcases (deriveProtection_spec y v).2.2.2 with eq | eq
    · exact eq.trans h.2
    · rw [eq, ended]
      exact endCandidate_again (h.2.trans ended)

end

/-! ### A silent endpoint (R37) -/

section
variable {s t : State} {z : ZoneId} {e : EndpointId}

theorem endpointSilent_iff : s.endpointSilent e = true ↔ (s.endpoint e).inUse = true ∧ (s.endpoint e).presence ≠ .absent ∧
    ∃ last, (s.endpoint e).lastTelemetry = some last ∧ s.config.lost < s.now - last := by
  unfold State.endpointSilent
  cases (s.endpoint e).lastTelemetry <;> simp [and_assoc]

theorem presenceTest_quiet (h : s.service = .configuration ∨ s.endpointSilent e = false) : presenceTest e s = s := by
  refine if_neg fun both => ?_
  rcases h with config | heard
  · rw [config] at both; exact nomatch both.1
  · rw [heard] at both; exact nomatch both.2

theorem presenceTest_silent (serving : s.service = .service) (silent : s.endpointSilent e = true) : presenceTest e s =
    if (s.endpoint e).presence = .present then loseEndpoint e (modEndpoint e Endpoint.leave s) else modEndpoint e Endpoint.leave s :=
  if_pos ⟨serving, silent⟩

theorem loseEndpoint_active (concerned : s.zoneOfEndpoint e = some z) (active : (s.zone z).active = some e) :
    loseEndpoint e s = checkDrop z (observe (endpointLostRef e) true (endCandidate z s)) := by
  unfold loseEndpoint
  rw [concerned]
  exact if_pos active

theorem loseEndpoint_spare (concerned : s.zoneOfEndpoint e = some z) (active : (s.zone z).active ≠ some e) :
    loseEndpoint e s = observe (endpointLostRef e) true s := by
  unfold loseEndpoint
  rw [concerned]
  exact if_neg active

theorem loseEndpoint_drops (z : ZoneId) (e : EndpointId) (s : State) : Drops z s (loseEndpoint e s) := by
  unfold loseEndpoint
  split
  · exact .ite ((endCandidate_drops s z _).trans ((observe_drops _ z _ _).trans (checkDrop_drops_zone _ z _))) (observe_drops s z _ _)
  · exact observe_drops s z _ _

/-- ENDPOINT_LOST is observed present. -/
theorem loseEndpoint_fault (watched : s.policy[0].mode ≠ .disabled) : ((loseEndpoint e s).fault (endpointLostRef e)).lastPresent = true := by
  have seen : ∀ u : State, u.policy = s.policy → ((observe (endpointLostRef e) true u).fault (endpointLostRef e)).lastPresent = true :=
    fun u h => by
      rw [observe_fault, if_pos rfl]
      exact observed_lastPresent (by rw [h]; exact watched) true
  unfold loseEndpoint
  split
  · next z _ =>
    split
    · obtain ⟨ls, eq, -⟩ := endCandidate_eq z s
      have faults := checkDrop_faults z (observe (endpointLostRef e) true (endCandidate z s))
      simp only [State.fault, faults]
      exact seen _ (by rw [eq])
    · exact seen _ rfl
  · exact seen _ rfl

/-- The zone of an endpoint that is still its active one after it was lost is claimed no more. -/
theorem loseEndpoint_unclaims (gone : (s.endpoint e).presence = .absent) (concerned : s.zoneOfEndpoint e = some z)
    (unique : s.ClaimsUnique) (active : ((loseEndpoint e s).zone z).active = some e) : (loseEndpoint e s).claimant z = none := by
  by_cases before : (s.zone z).active = some e
  · rw [loseEndpoint_active concerned before] at active ⊢
    have look : ∃ w, w = observe (endpointLostRef e) true (endCandidate z s) := ⟨_, rfl⟩
    obtain ⟨w, hw⟩ := look
    rw [← hw] at active ⊢
    rw [checkDrop_active] at active
    have still : w.still = s.still := by rw [hw, observe_still, endCandidate_still]
    have off : w.deliverable z = false := by
      rw [← Bool.not_eq_true, deliverable_iff]
      rintro ⟨-, -, -, -, -, x, hx, present, -⟩
      rw [active] at hx
      cases hx
      rw [(still_reports still e).1, gone] at present
      exact nomatch present
    cases claimed : w.claimant z with
    | none =>
      rw [checkDrop_keeps fun c h => by rw [claimed] at h; exact nomatch h]
      exact claimed
    | some c =>
      rw [checkDrop_drops claimed (.inl off)]
      have chain : Drops z s w := hw ▸ (endCandidate_drops s z z).trans (observe_drops _ z _ _)
      exact dropZone_unclaims (chain.unique unique) z
  · rw [loseEndpoint_spare concerned before] at active
    exact absurd ((observe_active_other true 0 concerned before).symm.trans active) before

theorem loseEndpoint_loops {l : ParamId} (concerned : s.zoneOfEndpoint e = some z) (active : (s.zone z).active = some e)
    (bound : s.loopOf z = some l) :
    (loseEndpoint e s).loops = s.loops.set l { s.loops[l] with candidate := none, accumulator := 0 } := by
  obtain ⟨ls, eq, loop⟩ := endCandidate_eq z s
  have kept : (observe (endpointLostRef e) true (endCandidate z s)).loops = (endCandidate z s).loops :=
    observe_loops_ended (u := s) ((zoneOfEndpoint_of_still (endCandidate_still s z) e).trans concerned) rfl true
  have done : (loseEndpoint e s).loops = ls := by
    rw [loseEndpoint_active concerned active]
    rcases checkDrop_cases z (observe (endpointLostRef e) true (endCandidate z s)) with same | dropped
    · rw [same, kept, eq]
    · rw [dropped, dropZone_loops, kept, eq]
  rw [done, loop l bound]

theorem idleTest_quiet {d : Nat} (deadline : (s.zone z).idleDeadline = some d) (h : s.service = .configuration ∨ s.now < d) :
    idleTest z s = s := by
  unfold idleTest
  rw [deadline]
  rcases h with config | early
  · exact if_neg fun serving => by rw [config] at serving; exact nomatch serving
  · simp only [if_neg (Nat.not_le.mpr early), ite_self]

theorem idleTest_due {d : Nat} (serving : s.service = .service) (deadline : (s.zone z).idleDeadline = some d) (due : d ≤ s.now) :
    idleTest z s = recommandZone z (modZone z (fun r => { r with idleDeadline := none }) s) := by
  unfold idleTest
  rw [if_pos serving, deadline]
  exact if_pos due

end

/-- Settles O16: the loss of an endpoint by its parts, then the idle deadline. -/
theorem endpointTimersRunOut : Obligations.EndpointTimersRunOut := by
  refine ⟨fun e s => ⟨fun last serving used here heard long => ?_, fun h => ?_⟩, fun z s d deadline => ⟨fun serving due => ?_, fun h => ?_⟩⟩
  · have run := presenceTest_silent serving (endpointSilent_iff.mpr ⟨used, here, last, heard, long⟩)
    have leave : ∃ u, u = modEndpoint e Endpoint.leave s := ⟨_, rfl⟩
    obtain ⟨u, hu⟩ := leave
    rw [← hu] at run
    have gone : (u.endpoint e).presence = .absent := by
      rw [hu, modEndpoint_endpoint, if_pos rfl]; rfl
    have concerned : ∀ z, s.zoneOfEndpoint e = some z → u.zoneOfEndpoint e = some z := fun z h => by
      rw [hu]
      unfold State.zoneOfEndpoint at h ⊢
      rw [modEndpoint_endpoint, if_pos rfl]
      exact h
    refine ⟨_, congrArg Host.Outcome.next run, ?_, fun present watched => ?_, fun z present sound zone active => ?_,
      fun z l present zone active bound => ?_, fun debouncing => ?_⟩
    · have still : (if (s.endpoint e).presence = .present then loseEndpoint e u else u).still = u.still := by
        split
        · exact loseEndpoint_still u e
        · rfl
      rw [still, hu]
      rfl
    · rw [if_pos present]
      exact loseEndpoint_fault (s := u) (by rw [hu]; exact watched)
    · rw [if_pos present] at active ⊢
      have unique : u.ClaimsUnique := by rw [hu]; exact sound.unique
      have lost := loseEndpoint_unclaims gone (concerned z zone) unique active
      refine ⟨lost, fun claimed => ?_⟩
      have spec := (loseEndpoint_drops z e u).released unique (by rw [hu]; exact claimed) lost
      rw [show (u.zone z) = s.zone z by rw [hu]; rfl, show u.now = s.now by rw [hu]; rfl] at spec
      exact spec
    · rw [if_pos present, loseEndpoint_loops (concerned z zone) (by rw [hu]; exact active) (by rw [hu]; exact bound), hu]
      rfl
    · have away : (s.endpoint e).presence ≠ .present := by rw [debouncing]; decide
      rw [if_neg away, hu]
      rfl
  · refine congrArg Host.Outcome.next (presenceTest_quiet (h.imp_right fun quiet => ?_))
    rw [← Bool.not_eq_true, endpointSilent_iff]
    rintro ⟨used, here, last, heard, long⟩
    rcases quiet with free | absent | ⟨q, hq, short⟩
    · rw [free] at used; exact nomatch used
    · exact here absent
    · rw [heard] at hq
      cases hq
      omega
  · refine ⟨_, congrArg Host.Outcome.next (idleTest_due serving deadline due), ?_⟩
    have change : ∃ u, u = modZone z (fun r => { r with idleDeadline := none }) s := ⟨_, rfl⟩
    obtain ⟨u, hu⟩ := change
    rw [← hu]
    have record : u.zone z = { s.zone z with idleDeadline := none } := by rw [hu, modZone_zone, if_pos rfl]
    have entry : ∀ y, (recommandZone z u).zone y = u.zone y := fun y => recommandZone_zone z y u
    have worked := recommandZone_worksOut z u
    have still := recommandZone_still u z
    have endpoint := still_endpoint still
    have claimant : (recommandZone z u).claimant z = none ↔ s.claimant z = none := by
      obtain ⟨_, _, eq⟩ := recommandZone_eq z u
      rw [eq, hu]; rfl
    refine ⟨?_, fun e on policy free quiet unclaimed active used role place => ?_, ?_⟩
    · obtain ⟨_, _, eq⟩ := recommandZone_eq z u
      rw [eq, hu]; rfl
    · have settled := endpoint e
      have same : u.endpoint e = s.endpoint e := by rw [hu]; rfl
      have service : u.service = .service := by rw [hu]; exact serving
      have now : (recommandZone z u).service = u.service := (congrArg State.service still :)
      rw [same] at settled
      have used' := (congrArg Endpoint.inUse settled :).trans used
      have role' : ((recommandZone z u).endpoint e).role ≠ .usherLight := fun h => role ((congrArg Endpoint.role settled :).symm.trans h)
      have place' := (congrArg Endpoint.place settled :).trans place
      have zone := (entry z).trans record
      have active' : ((recommandZone z u).zone z).active = some e := by rw [zone]; exact active
      rw [worked e (active_names active') used' place']
      refine (commandedPower_active (now.trans service) role' place' (by rw [zone]; exact on) active').2.2 ?_ ?_ ?_ (claimant.mpr unclaimed) ?_
      · rw [zone]; exact free
      · rw [zone]; exact quiet
      · rw [zone]; exact policy
      · rw [zone]; exact fun d h => nomatch h
    · obtain ⟨es, ds, eq⟩ := recommandZone_eq z u
      refine ⟨by rw [eq, hu]; rfl, by rw [eq, hu]; rfl, by rw [eq, hu]; rfl, ?_⟩
      rw [still, hu, modZone_still _ _ (by intro r; rfl)]
  · exact congrArg Host.Outcome.next (idleTest_quiet deadline h)

end Sys2Proof.Machine
end

section
/-! The examination of a WAKING call (R93). -/

namespace Sys2Proof.Machine

/-- A record that has lost the zones of one set, and whose zones of another wait for a deadline. -/
def Call.awaited (r : Call) (gone fresh : ZoneSet) (deadline : Nat) : Call :=
  { r with
    delivered := r.delivered &&& ~~~ gone, missed := r.missed ||| gone
    wake := Vector.ofFn fun z => if gone.getLsbD z.val then none else if fresh.getLsbD z.val then some deadline else r.wake[z] }

section
variable {s t u : State} {z y : ZoneId} {c d : CallId} {e : EndpointId} {gone fresh : ZoneSet} {deadline : Nat}

theorem awaited_zero (r : Call) (deadline : Nat) : r.awaited 0 0 deadline = r := by
  have wake : (Vector.ofFn fun z : ZoneId => if (0 : ZoneSet).getLsbD z.val then none else
      if (0 : ZoneSet).getLsbD z.val then some deadline else r.wake[z]) = r.wake := by
    ext i hi : 1
    rw [Vector.getElem_ofFn]
    simp
  have delivered : r.delivered &&& ~~~ (0 : ZoneSet) = r.delivered := zoneSet_ext fun z => by
    rw [BitVec.getLsbD_and, BitVec.getLsbD_not]; simp
  have missed : r.missed ||| (0 : ZoneSet) = r.missed := zoneSet_ext fun z => by rw [BitVec.getLsbD_or]; simp
  unfold Call.awaited
  rw [wake, delivered, missed]

theorem awaited_without (r : Call) (gone fresh : ZoneSet) (deadline : Nat) (z : ZoneId) :
    (r.awaited gone fresh deadline).without z = r.awaited (gone ||| zoneBit z) fresh deadline := by
  have wake : (r.awaited gone fresh deadline).wake.set z none = (r.awaited (gone ||| zoneBit z) fresh deadline).wake := by
    ext i hi : 1
    unfold Call.awaited
    rw [Vector.getElem_set, Vector.getElem_ofFn, Vector.getElem_ofFn, BitVec.getLsbD_or, zoneBit_getLsbD z ⟨i, hi⟩]
    by_cases same : z.val = i
    · subst same; simp
    · rw [if_neg same, decide_eq_false (fun h => same (congrArg Fin.val h).symm), Bool.or_false]
  have delivered : (r.awaited gone fresh deadline).delivered &&& ~~~ zoneBit z = (r.awaited (gone ||| zoneBit z) fresh deadline).delivered :=
    zoneSet_ext fun y => by
      simp only [Call.awaited, BitVec.getLsbD_and, BitVec.getLsbD_not, BitVec.getLsbD_or, Bool.not_or, y.isLt, decide_true, Bool.true_and,
        Bool.and_assoc]
  have missed : (r.awaited gone fresh deadline).missed ||| zoneBit z = (r.awaited (gone ||| zoneBit z) fresh deadline).missed :=
    zoneSet_ext fun y => by simp only [Call.awaited, BitVec.getLsbD_or, Bool.or_assoc]
  show { r.awaited gone fresh deadline with
    delivered := (r.awaited gone fresh deadline).delivered &&& ~~~ zoneBit z
    missed := (r.awaited gone fresh deadline).missed ||| zoneBit z
    wake := (r.awaited gone fresh deadline).wake.set z none } = _
  rw [wake, delivered, missed]
  rfl

theorem awaited_waits (r : Call) (gone fresh : ZoneSet) (deadline : Nat) (here : gone.getLsbD z.val = false) :
    { r.awaited gone fresh deadline with wake := (r.awaited gone fresh deadline).wake.set z (some deadline) } =
      r.awaited gone (fresh ||| zoneBit z) deadline := by
  have wake : (r.awaited gone fresh deadline).wake.set z (some deadline) = (r.awaited gone (fresh ||| zoneBit z) deadline).wake := by
    ext i hi : 1
    unfold Call.awaited
    rw [Vector.getElem_set, Vector.getElem_ofFn, Vector.getElem_ofFn, BitVec.getLsbD_or, zoneBit_getLsbD z ⟨i, hi⟩]
    by_cases same : z.val = i
    · subst same
      rw [if_pos rfl, if_neg (by rw [here]; decide)]
      simp
    · rw [if_neg same, decide_eq_false (fun h => same (congrArg Fin.val h).symm), Bool.or_false]
  rw [wake]
  rfl

/-! ### Observations of WAKE_FAILED -/

/-- WAKE_FAILED, as its policy and history stand, acts on no zone. -/
def State.WakeCalm (s : State) : Prop :=
  s.policy[1].mode = .disabled ∨ s.policy[1].mode = .report ∧ ∀ e, (s.fault (wakeFailedRef e)).lastRecovery = none

theorem raise_report {f : FaultRef} (mode : s.policy[policyIndex f].mode = .report) (fresh : (s.fault f).lastRecovery = none) :
    ∃ flags n, raise f s = faultEvent f flags .reported s.policy[policyIndex f].action n
      (setFault f ((s.fault f).raisedBy s.policy[policyIndex f] s.now) s) := by
  have recent : (s.fault f).recentRecovery s.now = false := by unfold FaultRecord.recentRecovery; rw [fresh]
  have state : ((s.fault f).raisedBy s.policy[policyIndex f] s.now).state = .reported := by
    unfold FaultRecord.raisedBy FaultRecord.escalates raisedState
    simp only [recent, mode, Bool.false_and]
    rfl
  have quiet : ∀ u : State, u.swapTarget f s.policy[policyIndex f] .reported = none := fun u => by
    unfold State.swapTarget
    cases u.zoneConcerned f with
    | none => rfl
    | some z => exact if_neg fun h => nomatch h.1
  unfold raise
  simp only [state, quiet]
  exact ⟨_, _, rfl⟩

theorem observe_calm (calm : s.WakeCalm) (e : EndpointId) (b : Bool) :
    ∃ fs al es, observe (wakeFailedRef e) b s = { s with faults := fs, alert := al, events := es } := by
  unfold observe
  simp only
  split
  · exact ⟨_, _, _, rfl⟩
  · next watched =>
    split
    · exact ⟨_, _, _, rfl⟩
    · split
      · split
        · rcases calm with off | ⟨report, fresh⟩
          · exact absurd off watched
          · obtain ⟨flags, n, eq⟩ := raise_report (f := wakeFailedRef e) report (fresh e)
            rw [eq]
            unfold faultEvent
            rw [pushEvent_eq]
            exact ⟨_, _, _, rfl⟩
        · exact ⟨_, _, _, rfl⟩
      · exact ⟨_, _, _, rfl⟩

theorem observed_lastRecovery {f : FaultRef} (fresh : (s.fault f).lastRecovery = none) (b : Bool) : (s.observed f b).lastRecovery = none := by
  have recent : (s.fault f).recentRecovery s.now = false := by unfold FaultRecord.recentRecovery; rw [fresh]
  unfold State.observed
  split
  · exact fresh
  · split
    · exact fresh
    · split
      · split
        · show (if _ then _ else none) = none
          rw [recent]
          rfl
        · exact fresh
      · exact fresh

/-- An observation of WAKE_FAILED for a zone, while it is calm: only the fault records, the ALERT pin and the events. -/
theorem observeWake_calm (calm : s.WakeCalm) (z : ZoneId) (b : Bool) :
    (∃ fs al es, observeWake z b s = { s with faults := fs, alert := al, events := es }) ∧ (observeWake z b s).WakeCalm ∧
    (∀ e, ((observeWake z b s).fault (wakeFailedRef e)).lastPresent =
      if s.policy[1].mode ≠ .disabled ∧ (s.zone z).active = some e then b else (s.fault (wakeFailedRef e)).lastPresent) := by
  unfold observeWake
  cases active : (s.zone z).active with
  | none => exact ⟨⟨_, _, _, rfl⟩, calm, fun e => (if_neg fun h => nomatch h.2).symm⟩
  | some x =>
    show (∃ fs al es, observe (wakeFailedRef x) b s = _) ∧ (observe (wakeFailedRef x) b s).WakeCalm ∧
      ∀ e, ((observe (wakeFailedRef x) b s).fault (wakeFailedRef e)).lastPresent = _
    obtain ⟨fs, al, es, eq⟩ := observe_calm calm x b
    have record : ∀ e, (observe (wakeFailedRef x) b s).fault (wakeFailedRef e) =
        if e = x then s.observed (wakeFailedRef x) b else s.fault (wakeFailedRef e) := fun e => by
      rw [observe_fault]
      by_cases same : e = x
      · subst same; rw [if_pos rfl, if_pos rfl]
      · rw [if_neg same, if_neg]
        intro h
        injection h with h _
        exact same h
    have policy : (observe (wakeFailedRef x) b s).policy = s.policy := by rw [eq]
    refine ⟨⟨fs, al, es, eq⟩, ?_, fun e => ?_⟩
    · unfold State.WakeCalm
      rw [policy]
      refine calm.imp_right fun ⟨report, fresh⟩ => ⟨report, fun e => ?_⟩
      rw [record]
      split
      · exact observed_lastRecovery (fresh x) b
      · exact fresh e
    · rw [record]
      by_cases same : e = x
      · subst same
        rw [if_pos rfl]
        by_cases off : s.policy[1].mode = .disabled
        · rw [if_neg fun h => h.1 off]
          unfold State.observed
          rw [if_pos (show s.policy[policyIndex (wakeFailedRef e)].mode = .disabled from off)]
        · rw [if_pos ⟨off, rfl⟩]
          exact observed_lastPresent (show s.policy[policyIndex (wakeFailedRef e)].mode ≠ .disabled from off) b
      · rw [if_neg same, if_neg fun h => same (Option.some.inj h.2).symm]

/-! ### The examination of one zone -/

/-- Where call `c` was examined in `s` for the zones of `m`, of which those in `late` are lost and those in `unset` wait. -/
structure Examined (c : CallId) (s : State) (late unset m : ZoneSet) (u : State) : Prop where
  still : u.still = s.still
  call : u.call c = (s.call c).awaited (late &&& m) (unset &&& m) (s.now + s.config.wakeTimeout)
  others : ∀ d, d ≠ c → u.call d = s.call d
  zone : ∀ z : ZoneId, u.zone z = if (late &&& m).getLsbD z.val then (s.zone z).released s.now else s.zone z
  worked : ∀ z : ZoneId, (late &&& m).getLsbD z.val = true → u.PowerWorkedOut z
  calm : u.WakeCalm
  seen : ∀ (z : ZoneId) e, s.policy[1].mode ≠ .disabled → (late &&& m).getLsbD z.val = true → (s.zone z).active = some e →
    (u.fault (wakeFailedRef e)).lastPresent = true
  sends : Sends s u

theorem State.PowerWorkedOut.observed (worked : s.PowerWorkedOut z) (h : ∃ fs al es, t = { s with faults := fs, alert := al, events := es }) :
    t.PowerWorkedOut z := by
  obtain ⟨_, _, _, rfl⟩ := h
  exact worked.congr rfl rfl rfl rfl rfl

theorem and_or_bit_same {a m : ZoneSet} (h : a.getLsbD z.val = true) : a &&& (m ||| zoneBit z) = a &&& m ||| zoneBit z :=
  zoneSet_ext fun y => by
    rw [BitVec.getLsbD_and, BitVec.getLsbD_or, BitVec.getLsbD_or, BitVec.getLsbD_and, zoneBit_getLsbD]
    by_cases same : y = z
    · subst same; simp [h]
    · simp [same]

theorem and_or_bit_none {a m : ZoneSet} (h : a.getLsbD z.val = false) : a &&& (m ||| zoneBit z) = a &&& m :=
  zoneSet_ext fun y => by
    rw [BitVec.getLsbD_and, BitVec.getLsbD_or, BitVec.getLsbD_and, zoneBit_getLsbD]
    by_cases same : y = z
    · subst same; rw [h]; rfl
    · simp [same]

/-- One zone examined. -/
theorem Examined.step {late unset m : ZoneSet} (waking : (s.call c).state = .waking)
    (hlate : ∀ z : ZoneId, late.getLsbD z.val = true ↔ (s.call c).delivered.getLsbD z.val = true ∧ s.awake z = false ∧
      ∃ d, (s.call c).wake[z] = some d ∧ d ≤ s.now)
    (hunset : ∀ z : ZoneId, unset.getLsbD z.val = true ↔ (s.call c).delivered.getLsbD z.val = true ∧ s.awake z = false ∧
      (s.call c).wake[z] = none)
    (h : Examined c s late unset m u) (held : (s.call c).delivered.getLsbD z.val = true) (new : m.getLsbD z.val = false) :
    Examined c s late unset (m ||| zoneBit z) (examineWakeZone c z u) := by
  have now : u.now = s.now := (congrArg State.now h.still :)
  have config : u.config = s.config := (congrArg State.config h.still :)
  have outside : ∀ a : ZoneSet, (a &&& m).getLsbD z.val = false := fun a => by rw [BitVec.getLsbD_and, new, Bool.and_false]
  have zone : u.zone z = s.zone z := by rw [h.zone, if_neg (by rw [outside]; decide)]
  have awake : u.awake z = s.awake z := awake_of_still h.still (by rw [zone])
  have state : (u.call c).state = .waking := by rw [h.call]; exact waking
  have bit : (u.call c).delivered.getLsbD z.val = true := by
    rw [h.call]
    show ((s.call c).delivered &&& ~~~ (late &&& m)).getLsbD z.val = true
    rw [BitVec.getLsbD_and, BitVec.getLsbD_not, outside, held]
    simp
  have wake : (u.call c).wake[z] = (s.call c).wake[z] := by
    rw [h.call]
    refine (Vector.getElem_ofFn z.isLt).trans ?_
    rw [outside, outside]
    rfl
  by_cases asleep : s.awake z = false
  swap
  · have quiet : examineWakeZone c z u = u := if_neg fun all => asleep (awake ▸ all.2.2)
    have off : ∀ a : ZoneSet, (a.getLsbD z.val = true → s.awake z = false) → a &&& (m ||| zoneBit z) = a &&& m := fun a ha =>
      and_or_bit_none (by rw [← Bool.not_eq_true]; exact fun on => asleep (ha on))
    have lates := off late fun on => ((hlate z).mp on).2.1
    have unsets := off unset fun on => ((hunset z).mp on).2.1
    rw [quiet]
    exact ⟨h.still, by rw [lates, unsets]; exact h.call, h.others, by rw [lates]; exact h.zone, by rw [lates]; exact h.worked, h.calm,
      by rw [lates]; exact h.seen, h.sends⟩
  have sends := h.sends.trans (examineWakeZone_sends u c z)
  have still := (examineWakeZone_still u c z).trans h.still
  have enter : examineWakeZone c z u = match (u.call c).wake[z] with
      | some d => if d ≤ u.now then observeWake z true (afterRelease z (modCall c (Call.loseZone z) u)) else u
      | none => modCall c (fun r => { r with wake := r.wake.set z (some (u.now + u.config.wakeTimeout)) }) u :=
    if_pos ⟨state, bit, awake.trans asleep⟩
  rw [wake, now, config] at enter
  cases deadline : (s.call c).wake[z] with
  | none =>
    rw [deadline] at enter
    simp only at enter
    have not_late : late.getLsbD z.val = false := by
      rw [← Bool.not_eq_true, hlate]
      rintro ⟨-, -, d, hd, -⟩
      rw [deadline] at hd
      exact nomatch hd
    have is_unset : unset.getLsbD z.val = true := (hunset z).mpr ⟨held, asleep, deadline⟩
    have lates : late &&& (m ||| zoneBit z) = late &&& m := and_or_bit_none not_late
    have unsets := and_or_bit_same (m := m) is_unset
    refine ⟨still, ?_, fun d ne => ?_, ?_, ?_, ?_, ?_, sends⟩
    · rw [enter, modCall_call, if_pos rfl, h.call, lates, unsets]
      exact awaited_waits _ _ _ _ (outside late)
    · rw [enter, modCall_call, if_neg ne]; exact h.others d ne
    · rw [enter, lates]; exact h.zone
    · rw [lates]
      intro y hy
      rw [enter]
      refine (h.worked y hy).congr rfl rfl rfl rfl (congrArg Option.isSome (claimant_congr fun d => ?_))
      rw [modCall_call]
      split
      · next same => subst same; rfl
      · rfl
    · rw [enter]; exact h.calm
    · rw [enter, lates]; exact h.seen
  | some d =>
    rw [deadline] at enter
    simp only at enter
    have not_unset : unset.getLsbD z.val = false := by
      rw [← Bool.not_eq_true, hunset]
      rintro ⟨-, -, none_⟩
      rw [deadline] at none_
      exact nomatch none_
    have unsets : unset &&& (m ||| zoneBit z) = unset &&& m := and_or_bit_none not_unset
    by_cases due : d ≤ s.now
    swap
    · have not_late : late.getLsbD z.val = false := by
        rw [← Bool.not_eq_true, hlate]
        rintro ⟨-, -, d', hd, early⟩
        rw [deadline] at hd
        cases hd
        exact due early
      have lates : late &&& (m ||| zoneBit z) = late &&& m := and_or_bit_none not_late
      rw [if_neg due] at enter
      rw [enter]
      exact ⟨h.still, by rw [lates, unsets]; exact h.call, h.others, by rw [lates]; exact h.zone, by rw [lates]; exact h.worked, h.calm,
        by rw [lates]; exact h.seen, h.sends⟩
    have is_late : late.getLsbD z.val = true := (hlate z).mpr ⟨held, asleep, d, deadline, due⟩
    have lates := and_or_bit_same (m := m) is_late
    rw [if_pos due] at enter
    have lose : ∃ v, v = afterRelease z (modCall c (Call.loseZone z) u) := ⟨_, rfl⟩
    obtain ⟨v, hv⟩ := lose
    obtain ⟨es, ds, released⟩ := afterRelease_eq z (modCall c (Call.loseZone z) u)
    rw [← hv] at enter released
    have zone_v : ∀ y, v.zone y = if y = z then (s.zone z).released s.now else u.zone y := fun y => by
      rw [released, ← zone, ← now]; exact vector_set_get _ _ _ _
    have call_v : ∀ x, v.call x = if x = c then (u.call c).without z else u.call x := fun x => by
      rw [released]; exact modCall_call _ _ _ _
    have calm_v : v.WakeCalm := by rw [released]; exact h.calm
    have policy_v : v.policy = s.policy := by rw [released]; exact (congrArg State.policy h.still :)
    have fault_v : v.fault = u.fault := by rw [released]; rfl
    obtain ⟨look, calm, seen⟩ := observeWake_calm calm_v z true
    rw [← enter] at look calm seen
    have bits : ∀ y : ZoneId, (late &&& (m ||| zoneBit z)).getLsbD y.val = ((late &&& m).getLsbD y.val || decide (y = z)) := fun y => by
      rw [lates, BitVec.getLsbD_or, zoneBit_getLsbD]
    have zone_t : (examineWakeZone c z u).zone = v.zone := by obtain ⟨_, _, _, eq⟩ := look; rw [eq]; rfl
    have call_t : (examineWakeZone c z u).call = v.call := by obtain ⟨_, _, _, eq⟩ := look; rw [eq]; rfl
    refine ⟨still, ?_, fun x ne => ?_, fun y => ?_, fun y hy => ?_, calm, fun y e watched hy active => ?_, sends⟩
    · rw [call_t, call_v, if_pos rfl, h.call, lates, unsets]
      exact awaited_without _ _ _ _ _
    · rw [call_t, call_v, if_neg ne]; exact h.others x ne
    · rw [zone_t, zone_v, bits]
      by_cases same : y = z
      · subst same; simp
      · simp only [same, decide_false, Bool.or_false, if_false]; exact h.zone y
    · refine State.PowerWorkedOut.observed (s := v) ?_ look
      by_cases same : y = z
      · subst same; rw [hv]; exact afterRelease_worksOut y _
      · rw [bits, decide_eq_false same, Bool.or_false] at hy
        rw [hv]
        refine State.PowerWorkedOut.afterRelease ?_ z
        refine (h.worked y hy).congr rfl rfl rfl rfl (congrArg Option.isSome (claimant_congr fun x => ?_))
        rw [modCall_call]
        split
        · next same' =>
          subst same'
          rw [loseZone_eq, without_claims]
          simp [same]
        · rfl
    · rw [seen, policy_v, fault_v]
      split
      · rfl
      · next other =>
        by_cases same : y = z
        · subst same
          refine absurd ⟨watched, ?_⟩ other
          rw [zone_v, if_pos rfl, released_active]
          exact active
        · rw [bits, decide_eq_false same, Bool.or_false] at hy
          exact h.seen y e watched hy active

/-- All zones of a list examined. -/
theorem Examined.run {late unset m : ZoneSet} (waking : (s.call c).state = .waking)
    (hlate : ∀ z : ZoneId, late.getLsbD z.val = true ↔ (s.call c).delivered.getLsbD z.val = true ∧ s.awake z = false ∧
      ∃ d, (s.call c).wake[z] = some d ∧ d ≤ s.now)
    (hunset : ∀ z : ZoneId, unset.getLsbD z.val = true ↔ (s.call c).delivered.getLsbD z.val = true ∧ s.awake z = false ∧
      (s.call c).wake[z] = none)
    {l : List ZoneId} (distinct : l.Nodup) (held : ∀ z ∈ l, (s.call c).delivered.getLsbD z.val = true)
    (new : ∀ z ∈ l, m.getLsbD z.val = false) (h : Examined c s late unset m u) :
    Examined c s late unset (m ||| maskList l) (forEach l (examineWakeZone c) u) := by
  induction l generalizing m u with
  | nil =>
    have none_ : m ||| maskList [] = m := zoneSet_ext fun z => by rw [BitVec.getLsbD_or, maskList_getLsbD]; simp
    rw [none_]
    exact h
  | cons a l ih =>
    obtain ⟨other, rest⟩ := List.nodup_cons.mp distinct
    have mask : m ||| maskList (a :: l) = m ||| zoneBit a ||| maskList l := (BitVec.or_assoc ..).symm
    rw [forEach_cons, mask]
    refine ih rest (fun z hz => held z (List.mem_cons_of_mem a hz)) (fun z hz => ?_)
      (h.step waking hlate hunset (held a List.mem_cons_self) (new a List.mem_cons_self))
    rw [BitVec.getLsbD_or, new z (List.mem_cons_of_mem a hz), zoneBit_getLsbD, Bool.false_or, decide_eq_false_iff_not]
    rintro rfl
    exact other hz

/-- All zones of a WAKING call examined, while WAKE_FAILED is calm. -/
theorem examined_all {late unset : ZoneSet} (waking : (s.call c).state = .waking) (calm : s.WakeCalm)
    (hlate : ∀ z : ZoneId, late.getLsbD z.val = true ↔ (s.call c).delivered.getLsbD z.val = true ∧ s.awake z = false ∧
      ∃ d, (s.call c).wake[z] = some d ∧ d ≤ s.now)
    (hunset : ∀ z : ZoneId, unset.getLsbD z.val = true ↔ (s.call c).delivered.getLsbD z.val = true ∧ s.awake z = false ∧
      (s.call c).wake[z] = none) :
    ∃ m, late &&& m = late ∧ unset &&& m = unset ∧
      Examined c s late unset m (forEach (zonesOf (s.call c).delivered) (examineWakeZone c) s) := by
  have none_ : ∀ a : ZoneSet, a &&& 0 = 0 := fun a => BitVec.and_zero
  have within : ∀ a : ZoneSet, (∀ z : ZoneId, a.getLsbD z.val = true → (s.call c).delivered.getLsbD z.val = true) →
      a &&& (0 ||| maskList (zonesOf (s.call c).delivered)) = a := fun a ha => zoneSet_ext fun z => by
    rw [BitVec.getLsbD_and, BitVec.getLsbD_or, maskList_zonesOf]
    cases h : a.getLsbD z.val with
    | false => rfl
    | true => rw [ha z h]; simp
  have off : ∀ z : ZoneId, ¬ (0 : ZoneSet).getLsbD z.val = true := fun z => by simp
  have start : Examined c s late unset 0 s := by
    refine ⟨rfl, ?_, fun _ _ => rfl, fun z => ?_, fun z hz => ?_, calm, fun z e _ hz => ?_, .refl s⟩
    · rw [none_, none_, awaited_zero]
    · rw [none_, if_neg (off z)]
    · rw [none_] at hz; exact absurd hz (off z)
    · rw [none_] at hz; exact absurd hz (off z)
  refine ⟨_, within late fun z hz => ((hlate z).mp hz).1, within unset fun z hz => ((hunset z).mp hz).1,
    start.run waking hlate hunset (zonesOf_nodup _) (fun z hz => mem_zonesOf.mp hz) fun z _ => ?_⟩
  simp

/-! ### PLAYING entered (R91, R93) -/

/-- WAKE_FAILED observed absent for several zones: the fault records and the ALERT pin alone. -/
theorem observeWakes_absent (l : List ZoneId) (s : State) :
    (∃ fs al, forEach l (fun z => observeWake z false) s = { s with faults := fs, alert := al }) ∧
    ∀ e, ((forEach l (fun z => observeWake z false) s).fault (wakeFailedRef e)).lastPresent =
      if s.policy[1].mode ≠ .disabled ∧ ∃ z ∈ l, (s.zone z).active = some e then false else (s.fault (wakeFailedRef e)).lastPresent := by
  have one : ∀ (z : ZoneId) (u : State), (∃ fs al, observeWake z false u = { u with faults := fs, alert := al }) ∧
      ∀ e, ((observeWake z false u).fault (wakeFailedRef e)).lastPresent =
        if u.policy[1].mode ≠ .disabled ∧ (u.zone z).active = some e then false else (u.fault (wakeFailedRef e)).lastPresent := by
    intro z u
    unfold observeWake
    cases active : (u.zone z).active with
    | none => exact ⟨⟨_, _, rfl⟩, fun e => (if_neg fun h => nomatch h.2).symm⟩
    | some x =>
      refine ⟨observe_absent_eq _ u, fun e => ?_⟩
      show ((observe (wakeFailedRef x) false u).fault (wakeFailedRef e)).lastPresent = _
      rw [observe_fault]
      by_cases same : e = x
      · subst same
        rw [if_pos rfl]
        by_cases off : u.policy[1].mode = .disabled
        · rw [if_neg fun h => h.1 off]
          unfold State.observed
          rw [if_pos (show u.policy[policyIndex (wakeFailedRef e)].mode = .disabled from off)]
        · rw [if_pos ⟨off, rfl⟩]
          exact observed_lastPresent (show u.policy[policyIndex (wakeFailedRef e)].mode ≠ .disabled from off) false
      · have ne : wakeFailedRef e ≠ wakeFailedRef x := fun h => by injection h with h _; exact same h
        rw [if_neg ne, if_neg fun h => same (Option.some.inj h.2).symm]
  induction l generalizing s with
  | nil => exact ⟨⟨s.faults, s.alert, rfl⟩, fun e => (if_neg fun h => by simp at h).symm⟩
  | cons a l ih =>
    obtain ⟨⟨fs₀, al₀, first⟩, seen₀⟩ := one a s
    obtain ⟨⟨fs, al, rest⟩, seen⟩ := ih (observeWake a false s)
    refine ⟨⟨fs, al, by rw [forEach_cons, rest, first]⟩, fun e => ?_⟩
    have policy : (observeWake a false s).policy = s.policy := by rw [first]
    have zone : (observeWake a false s).zone = s.zone := by rw [first]; rfl
    rw [forEach_cons, seen, seen₀, policy, zone]
    by_cases off : s.policy[1].mode = .disabled
    · simp [off]
    · by_cases here : (s.zone a).active = some e
      · simp [off, here]
      · simp [off, here]

theorem enterPlaying_spec (c : CallId) (s : State) :
    (∃ fs al, enterPlaying c s = { s with calls := s.calls.set c { s.call c with state := .playing }, faults := fs, alert := al }) ∧
    ∀ e, ((enterPlaying c s).fault (wakeFailedRef e)).lastPresent =
      if s.policy[1].mode ≠ .disabled ∧ ∃ z : ZoneId, (s.call c).delivered.getLsbD z.val = true ∧ (s.zone z).active = some e
      then false else (s.fault (wakeFailedRef e)).lastPresent := by
  have change : ∃ u, u = modCall c (fun r => { r with state := .playing }) s := ⟨_, rfl⟩
  obtain ⟨u, hu⟩ := change
  obtain ⟨⟨fs, al, eq⟩, seen⟩ := observeWakes_absent (zonesOf (s.call c).delivered) u
  have run : enterPlaying c s = forEach (zonesOf (s.call c).delivered) (fun z => observeWake z false) u := by rw [hu]; rfl
  refine ⟨⟨fs, al, by rw [run, eq, hu]; rfl⟩, fun e => ?_⟩
  rw [run, seen, hu]
  simp only [mem_zonesOf]
  rfl

/-! ### The test of one call -/

theorem allAwake_iff : s.allAwake c = true ↔ ∀ z : ZoneId, (s.call c).delivered.getLsbD z.val = true → s.awake z = true := by
  unfold State.allAwake
  simp only [List.all_eq_true, mem_zonesOf]

theorem wakingTest_of_examined (waking : (s.call c).state = .waking) (ht : t = forEach (zonesOf (s.call c).delivered) (examineWakeZone c) s)
    (still : (t.call c).state = .waking) : wakingTest c s =
      if (t.call c).delivered = 0 then completeCall c .notDelivered t else if t.allAwake c then enterPlaying c t else t := by
  unfold wakingTest
  rw [if_pos waking]
  simp only [← ht]
  exact if_pos still

theorem enterPlaying_workedOut (running : (s.call c).running = true) (worked : s.PowerWorkedOut z) :
    (enterPlaying c s).PowerWorkedOut z := by
  obtain ⟨⟨_, _, eq⟩, -⟩ := enterPlaying_spec c s
  rw [eq]
  refine worked.congr rfl rfl rfl rfl (congrArg Option.isSome (claimant_congr fun d => ?_))
  refine (congrArg (fun r : Call => r.claims z) (set_call c d _ s)).trans ?_
  split
  · next same =>
    subst same
    show (true && (s.call d).delivered.getLsbD z.val) = ((s.call d).running && (s.call d).delivered.getLsbD z.val)
    rw [running]
  · rfl

theorem examineWakeZone_early (h : (s.call c).delivered.getLsbD z.val = true → s.awake z = false →
    ∃ d, (s.call c).wake[z] = some d ∧ s.now < d) : examineWakeZone c z s = s := by
  unfold examineWakeZone
  split
  · next all =>
    obtain ⟨d, deadline, early⟩ := h all.2.1 all.2.2
    rw [deadline]
    exact if_neg (Nat.not_le.mpr early)
  · rfl

theorem examineWakeZones_early (h : ∀ z : ZoneId, (s.call c).delivered.getLsbD z.val = true → s.awake z = false →
    ∃ d, (s.call c).wake[z] = some d ∧ s.now < d) (l : List ZoneId) : forEach l (examineWakeZone c) s = s := by
  induction l with
  | nil => rfl
  | cons a l ih => rw [forEach_cons, examineWakeZone_early (h a), ih]

/-- An observation leaves the record of a call that claims no zone. -/
theorem observe_call_unclaiming {f : FaultRef} (free : ∀ y, (s.call c).claims y = false) (b : Bool) :
    (observe f b s).call c = s.call c := by
  have drop : ∀ v y, v.call c = s.call c → (dropZone y v).call c = s.call c := fun v y h => by
    rw [dropZone_call, if_neg, h]
    intro claimed
    have claims := claimant_claims claimed
    rw [h, free y] at claims
    exact nomatch claims
  have derive : ∀ v y, v.call c = s.call c → (deriveProtection y v).call c = s.call c := fun v y h => by
    unfold deriveProtection
    simp only
    split
    · exact h
    · split
      · refine drop _ y ?_
        obtain ⟨ls, eq, -⟩ := endCandidate_eq y (modZone y (fun r => { r with protection := v.protectionOf y }) v)
        rw [eq]
        exact h
      · exact h
  refine observe_induction (P := fun v => v.call c = s.call c) rfl (fun _ => rfl) (fun v flags st a n h => ?_)
    (fun v p st r y _ h => ?_) (fun v y _ h => derive v y h) b
  · unfold faultEvent
    rw [pushEvent_eq]
    exact h
  · refine derive _ y ?_
    have start : (swapStart y v).call c = s.call c := by
      obtain ⟨_, _, _, eq, -⟩ := swapStart_eq y v
      rw [eq]
      exact h
    have check : (checkDrop y (swapStart y v)).call c = s.call c := by
      rcases checkDrop_cases y (swapStart y v) with eq | eq
      · rw [eq, start]
      · rw [eq]; exact drop _ y start
    show (rewake y (checkDrop y (swapStart y v))).call c = s.call c
    rw [rewake_call, if_neg, check]
    rintro ⟨claimed, -⟩
    have claims := claimant_claims claimed
    rw [check, free y] at claims
    exact nomatch claims

end

section
variable {s t : State} {z : ZoneId} {c : CallId} {e : EndpointId}

/-- A call that waits for several zones, while WAKE_FAILED is calm. -/
theorem wakingTest_calm {late unset left : ZoneSet} {mid : Call} (waking : (s.call c).state = .waking) (calm : s.WakeCalm)
    (hlate : ∀ z : ZoneId, late.getLsbD z.val = true ↔ (s.call c).delivered.getLsbD z.val = true ∧ s.awake z = false ∧
      ∃ d, (s.call c).wake[z] = some d ∧ d ≤ s.now)
    (hunset : ∀ z : ZoneId, unset.getLsbD z.val = true ↔ (s.call c).delivered.getLsbD z.val = true ∧ s.awake z = false ∧
      (s.call c).wake[z] = none)
    (hleft : left = (s.call c).delivered &&& ~~~ late) (hmid : mid = (s.call c).awaited late unset (s.now + s.config.wakeTimeout))
    (ht : t = wakingTest c s) :
    t.call c = (if left = 0 then {}
      else if ∀ z : ZoneId, left.getLsbD z.val = true → s.awake z = true then { mid with state := .playing } else mid) ∧
    (∀ d, d ≠ c → t.call d = s.call d) ∧
    (∀ z : ZoneId, t.zone z = (if late.getLsbD z.val then (s.zone z).released s.now else s.zone z) ∧
      (late.getLsbD z.val = true → t.PowerWorkedOut z)) ∧ Sends s t ∧
    (∀ (z : ZoneId) e, s.policy[1].mode ≠ .disabled → late.getLsbD z.val = true → (s.zone z).active = some e →
      (t.fault (wakeFailedRef e)).lastPresent = true) := by
  obtain ⟨m, lates, unsets, examined⟩ := examined_all waking calm hlate hunset
  have run : ∃ u, u = forEach (zonesOf (s.call c).delivered) (examineWakeZone c) s := ⟨_, rfl⟩
  obtain ⟨u, hu⟩ := run
  rw [← hu] at examined
  obtain ⟨still, call, others, zone, worked, -, seen, sends⟩ := examined
  rw [lates, unsets, ← hmid] at call
  rw [lates] at zone worked seen
  have state : (u.call c).state = .waking := by rw [call, hmid]; exact waking
  have delivered : (u.call c).delivered = left := by rw [call, hmid, hleft]; rfl
  have active : ∀ z, (u.zone z).active = (s.zone z).active := fun z => by
    rw [zone]
    split
    · exact released_active _ _
    · rfl
  have awake : ∀ z, u.awake z = s.awake z := fun z => awake_of_still still (active z)
  have test := wakingTest_of_examined waking hu state
  rw [delivered, ← ht] at test
  by_cases empty : left = 0
  · rw [if_pos empty] at test ⊢
    have none_ : (u.call c).reportDelivered = 0 := by
      rw [reportDelivered_eq (by rw [state]; decide), delivered, empty]
    have free : ∀ z, (u.call c).claims z = false := fun z => by
      rw [← Bool.not_eq_true, claims_iff, delivered, empty]; simp
    rw [test]
    refine ⟨by rw [completeCall_call, if_pos rfl], fun d ne => ?_, fun z => ⟨?_, fun hz => ?_⟩, sends.trans (completeCall_sends u c _),
      fun z e watched hz act => ?_⟩
    · rw [completeCall_call, if_neg ne]; exact others d ne
    · rw [completeCall_zone, none_, if_neg (by simp)]; exact zone z
    · exact completeCall_workedOut u _ (worked z hz) (free z)
    · simp only [State.fault, completeCall_faults]
      exact seen z e watched hz act
  rw [if_neg empty] at test ⊢
  have all_iff : u.allAwake c = true ↔ ∀ z : ZoneId, left.getLsbD z.val = true → s.awake z = true := by
    rw [allAwake_iff, delivered]
    simp only [awake]
  by_cases all : ∀ z : ZoneId, left.getLsbD z.val = true → s.awake z = true
  · rw [if_pos (all_iff.mpr all)] at test
    rw [if_pos all]
    obtain ⟨⟨fs, al, eq⟩, absent⟩ := enterPlaying_spec c u
    rw [← test] at eq absent
    have calls : ∀ d, t.call d = if d = c then { mid with state := .playing } else u.call d := fun d => by
      rw [eq, ← call]; exact set_call _ _ _ _
    refine ⟨by rw [calls, if_pos rfl], fun d ne => by rw [calls, if_neg ne]; exact others d ne, fun z => ⟨?_, fun hz => ?_⟩,
      test ▸ sends.trans (enterPlaying_sends u c), fun z e watched hz act => ?_⟩
    · rw [← zone]; rw [eq]; rfl
    · rw [test]; exact enterPlaying_workedOut (running_iff.mpr (.inl state)) (worked z hz)
    · rw [absent, if_neg, seen z e watched hz act]
      rintro ⟨-, y, hy, same⟩
      rw [delivered] at hy
      have up := all y hy
      rw [awake_iff] at up
      obtain ⟨x, hx, present, reports⟩ := up
      rw [active, hx] at same
      cases same
      have down := ((hlate z).mp hz).2.1
      rw [← Bool.not_eq_true, awake_iff] at down
      exact down ⟨e, act, present, reports⟩
  · rw [if_neg fun h => all (all_iff.mp h)] at test
    rw [if_neg all, test]
    exact ⟨call, others, fun z => ⟨zone z, worked z⟩, sends, seen⟩

theorem twoPow_eq_zoneBit (z : ZoneId) : BitVec.twoPow 32 z.val = zoneBit z := zoneSet_ext fun y => by
  rw [zoneBit_getLsbD, BitVec.getLsbD_twoPow]
  simp [Fin.ext_iff, eq_comm]

theorem zonesOf_zoneBit (z : ZoneId) : zonesOf (zoneBit z) = [z] := by
  refine List.perm_singleton.mp ((List.perm_ext_iff_of_nodup (zonesOf_nodup _) (List.nodup_singleton z)).mpr fun y => ?_)
  rw [mem_zonesOf, zoneBit_getLsbD, decide_eq_true_iff, List.mem_singleton]

/-- A call whose only zone is not awake at its deadline. -/
theorem wakingTest_last {d : Nat} (waking : (s.call c).state = .waking) (one : (s.call c).delivered = zoneBit z) (asleep : s.awake z = false)
    (deadline : (s.call c).wake[z] = some d) (due : d ≤ s.now) (active : (s.zone z).active = some e) (ht : t = wakingTest c s) :
    (t.call c).state = .free ∧ t.PowerWorkedOut z ∧ (t.zone z).idleDeadline = ((s.zone z).released s.now).idleDeadline ∧ Sends s t ∧
    (s.policy[1].mode ≠ .disabled → (t.fault (wakeFailedRef e)).lastPresent = true) := by
  have lose : ∃ v, v = afterRelease z (modCall c (Call.loseZone z) s) := ⟨_, rfl⟩
  obtain ⟨v, hv⟩ := lose
  have look : ∃ w, w = observe (wakeFailedRef e) true v := ⟨_, rfl⟩
  obtain ⟨w, hw⟩ := look
  obtain ⟨es, ds, released⟩ := afterRelease_eq z (modCall c (Call.loseZone z) s)
  rw [← hv] at released
  have zone_v : v.zone z = (s.zone z).released s.now := by rw [released]; exact (vector_set_get _ _ _ _).trans (if_pos rfl)
  have call_v : v.call c = (s.call c).without z := by rw [released]; exact (modCall_call _ _ _ _).trans (if_pos rfl)
  have empty : ((s.call c).without z).delivered = 0 := by
    show (s.call c).delivered &&& ~~~ zoneBit z = 0
    rw [one]; simp
  have free : ∀ y, (v.call c).claims y = false := fun y => by rw [call_v, ← Bool.not_eq_true, claims_iff, empty]; simp
  have call_w : w.call c = (s.call c).without z := by rw [hw, observe_call_unclaiming free, call_v]
  have held : (s.call c).delivered.getLsbD z.val = true := by rw [one, zoneBit_getLsbD]; simp
  have run : forEach (zonesOf (s.call c).delivered) (examineWakeZone c) s = w := by
    rw [one, zonesOf_zoneBit]
    show examineWakeZone c z s = w
    refine (if_pos ⟨waking, held, asleep⟩).trans ?_
    rw [deadline]
    refine (if_pos due).trans ?_
    rw [← hv, hw]
    unfold observeWake
    rw [zone_v, released_active, active]
    rfl
  have test := wakingTest_of_examined waking run.symm (by rw [call_w]; exact waking)
  rw [call_w, if_pos empty, ← ht] at test
  have drops : Drops z v w := hw ▸ observe_drops v z _ _
  have none_ : (w.call c).reportDelivered = 0 := by
    rw [reportDelivered_eq (by rw [call_w]; exact fun h => nomatch waking.symm.trans h), call_w, empty]
  refine ⟨?_, ?_, ?_, ?_, fun watched => ?_⟩
  · rw [test, completeCall_call, if_pos rfl]
  · rw [test]
    exact completeCall_workedOut w _ (drops.worked (hv ▸ afterRelease_worksOut z _)) (by rw [call_w, ← call_v]; exact free z)
  · rw [test, completeCall_zone, none_, if_neg (by simp)]
    rcases drops.either with same | again
    · rw [same, zone_v]
    · rw [again, zone_v, released]
      exact congrArg Zone.idleDeadline (Zone.released_released _ _)
  · have first : Sends s v := hv ▸ (modCall_sends s c _).trans (afterRelease_sends _ z)
    rw [test]
    exact first.trans ((hw ▸ observe_sends v _ _).trans (completeCall_sends w c _))
  · rw [test]
    simp only [State.fault, completeCall_faults]
    show (w.fault (wakeFailedRef e)).lastPresent = true
    rw [hw, observe_fault, if_pos rfl]
    refine observed_lastPresent ?_ true
    rw [released]
    exact watched

end

/-- Settles O17: several zones while WAKE_FAILED is calm, one late zone, one that still waits, and all awake. -/
theorem wakingCallIsExamined : Obligations.WakingCallIsExamined := by
  intro c s serving waking
  have run : exec (.wakeDeadlineExpiry c) s = .next (wakingTest c s) := congrArg Host.Outcome.next (if_pos serving)
  refine ⟨fun late unset left mid calm hlate hunset hleft hmid => ?_, fun z d e one asleep deadline due active => ?_,
    fun z d one asleep deadline early => ?_, fun some_ all => ?_⟩
  · obtain ⟨call, others, zone, sends, seen⟩ := wakingTest_calm waking calm hlate hunset hleft (hmid.trans (by rw [hleft]; rfl)) rfl
    exact ⟨_, run, wakingTest_still s c, call, others, zone, sends.sent serving, seen⟩
  · rw [twoPow_eq_zoneBit] at one
    obtain ⟨free, worked, idle, sends, seen⟩ := wakingTest_last waking one asleep deadline due active rfl
    exact ⟨_, run, free, worked, idle, sends.sent serving, seen, wakingTest_still s c⟩
  · rw [twoPow_eq_zoneBit] at one
    have only : ∀ y : ZoneId, (s.call c).delivered.getLsbD y.val = true → y = z := fun y hy => by
      rw [one, zoneBit_getLsbD] at hy
      exact of_decide_eq_true hy
    have stays := examineWakeZones_early (c := c) (s := s) (fun y hy _ => ⟨d, only y hy ▸ deadline, early⟩) (zonesOf (s.call c).delivered)
    have held : (s.call c).delivered.getLsbD z.val = true := by rw [one, zoneBit_getLsbD]; simp
    rw [run, wakingTest_of_examined waking stays.symm waking, if_neg, if_neg]
    · rw [allAwake_iff]
      intro all
      rw [all z held] at asleep
      exact nomatch asleep
    · intro none_
      rw [none_] at held
      simp at held
  · have stays := examineWakeZones_early (c := c) (s := s) (fun y hy asleep => by rw [all y hy] at asleep; exact nomatch asleep)
      (zonesOf (s.call c).delivered)
    obtain ⟨⟨fs, al, eq⟩, -⟩ := enterPlaying_spec c s
    rw [wakingTest_of_examined waking stays.symm waking, if_neg some_, if_pos (allAwake_iff.mpr all)] at run
    refine ⟨_, run, ?_, enterPlaying_still s c, ?_, ?_, ?_, ?_, ?_⟩
    all_goals rw [eq]

end Sys2Proof.Machine
end

section
/-! RECONFIGURE (R156): the calls cancelled with their events, the gates at rest, the services stopped. -/

namespace Sys2Proof.Machine

section
variable {s t u : State} {c d : CallId} {g : GateId} {e : EndpointId} {q : Nat → State}

theorem eventsWith_congr (h : t.events = s.events) (n : Node) (r : Record) : t.eventsWith n r = s.eventsWith n r := by
  unfold State.eventsWith
  rw [h]

/-- The event queue after a completion (R100, R112). -/
theorem completeCall_reports (c : CallId) (why : Ending) (s : State) : (completeCall c why s).events = match (s.call c).origin with
    | .external n => s.eventsWith n (s.completionEvent n (s.call c).tag ((s.call c).finalOutcome why) (s.call c).reportDelivered
        (s.call c).reportMissed)
    | .gate g => s.eventsWith s.config.eventNode (s.admissionEvent g ((s.call c).finalOutcome why) (s.call c).reportDelivered
        (s.call c).reportMissed) := by
  obtain ⟨_, _, _, eq, -⟩ := completeCall_eq s c why
  rw [eq]
  cases origin : (s.call c).origin with
  | external n => rw [reportCompletion_external _ origin]; rfl
  | gate g => rw [reportCompletion_gate _ origin]; rfl

/-- The states that collect the events of the cancelled calls, in ascending index. -/
def State.Collects (s : State) (q : Nat → State) : Prop :=
  (q 0).events = s.events ∧ ∀ (c : CallId) (r : Call) (delivered missed : ZoneSet), r = s.call c →
    delivered = (if r.state = .pending then 0 else r.delivered) → missed = (if r.state = .pending then r.target else r.missed) →
    q (c.val + 1) = { q c.val with events := if r.state = .free then (q c.val).events else match r.origin with
      | .external n => (q c.val).eventsWith n (s.completionEvent n r.tag .cancelled delivered missed)
      | .gate g => (q c.val).eventsWith s.config.eventNode (s.admissionEvent g .cancelled delivered missed) }

/-- The endpoints that the zones of the cancelled calls name. -/
def State.Freed (s : State) (e : EndpointId) : Prop :=
  ∃ z c, (s.call c).state ≠ .free ∧ (s.call c).delivered.getLsbD z.val = true ∧ (s.zone z).names e

/-- What holds when the calls below number `k` have been cancelled. -/
structure CancelledBelow (s : State) (k : Nat) (u : State) : Prop where
  still : u.still = s.still
  done : ∀ d : CallId, d.val < k → (u.call d).state = .free
  left : ∀ d : CallId, k ≤ d.val → u.call d = s.call d
  unclaimed : u.unclaimed = s.unclaimed
  powers : PowersOnly s.Freed s u
  evolves : Evolves s u
  events : ∀ q, s.Collects q → u.events = (q k).events

theorem names_of_still (h : t.still = s.still) (z : ZoneId) : (t.zone z).names = (s.zone z).names := by
  have entry := still_zone h z
  have primary : (t.zone z).primary = (s.zone z).primary := (congrArg Zone.primary entry :)
  have standby : (t.zone z).standby = (s.zone z).standby := (congrArg Zone.standby entry :)
  unfold Zone.names
  rw [primary, standby]

theorem CancelledBelow.step (h : CancelledBelow s c.val u) : CancelledBelow s (c.val + 1) (cancelForReconfigure c u) := by
  have record := h.left c (Nat.le_refl _)
  have below : ∀ d : CallId, d.val < c.val + 1 → d ≠ c → d.val < c.val := fun d lt ne => by
    have : d.val ≠ c.val := fun same => ne (Fin.ext same)
    omega
  have above : ∀ d : CallId, c.val + 1 ≤ d.val → d ≠ c ∧ c.val ≤ d.val := fun d le => ⟨fun same => by subst same; omega, by omega⟩
  by_cases free : (u.call c).state = .free
  · have quiet : cancelForReconfigure c u = u := if_pos free
    rw [quiet]
    refine ⟨h.still, fun d lt => ?_, fun d le => h.left d (above d le).2, h.unclaimed, h.powers, h.evolves, fun q hq => ?_⟩
    · by_cases same : d = c
      · rw [same]; exact free
      · exact h.done d (below d lt same)
    · rw [hq.2 c (s.call c) _ _ rfl rfl rfl, if_pos (by rw [← record]; exact free)]
      exact h.events q hq
  · have cancels : cancelForReconfigure c u = completeCall c .reconfigured u := if_neg free
    rw [cancels]
    refine ⟨(completeCall_still u c _).trans h.still, fun d lt => ?_, fun d le => ?_, (completeCall_unclaimed u c _).trans h.unclaimed,
      h.powers.trans ((completeCall_powersOnly u c _).mono ?_), h.evolves.trans (completeCall_evolves u c _), fun q hq => ?_⟩
    · rw [completeCall_call]
      split
      · rfl
      · next ne => exact h.done d (below d lt ne)
    · rw [completeCall_call, if_neg (above d le).1]
      exact h.left d (above d le).2
    · rintro e ⟨z, held, named⟩
      rw [record] at free held
      refine ⟨z, c, free, ?_, (congrFun (names_of_still h.still z) e).mp named⟩
      by_cases pending : (s.call c).state = .pending
      · unfold Call.reportDelivered at held
        rw [if_pos pending] at held
        simp at held
      · rwa [reportDelivered_eq pending] at held
    · have node : u.node = s.node := (congrArg State.node h.still :)
      have config : u.config = s.config := (congrArg State.config h.still :)
      have whole := hq.2 c (s.call c) _ _ rfl rfl rfl
      rw [record] at free
      rw [completeCall_reports, record, whole, if_neg free]
      cases (s.call c).origin with
      | external n =>
        simp only
        rw [eventsWith_congr (h.events q hq)]
        unfold State.completionEvent ownRecord
        rw [node]
        rfl
      | gate g =>
        simp only
        rw [eventsWith_congr (h.events q hq), config]
        unfold State.admissionEvent ownRecord
        rw [node, config]
        rfl

/-- All calls cancelled. -/
theorem cancelled_all (s : State) : CancelledBelow s 16 (forEach allCalls cancelForReconfigure s) := by
  have upTo : ∀ k, k ≤ 16 → CancelledBelow s k (forEach (allCalls.take k) cancelForReconfigure s) := by
    intro k
    induction k with
    | zero => exact fun _ => ⟨rfl, fun d lt => absurd lt (Nat.not_lt_zero _), fun d _ => rfl, rfl, .refl s, .refl s, fun q hq => hq.1.symm⟩
    | succ k ih =>
      intro le
      have more : allCalls.take (k + 1) = allCalls.take k ++ [(⟨k, by omega⟩ : CallId)] := by
        rw [List.take_add_one]
        congr 1
        rw [allCalls, List.getElem?_eq_getElem (by simp; omega)]
        simp
      have last := CancelledBelow.step (c := ⟨k, by omega⟩) (ih (by omega))
      rw [more]
      unfold forEach at last ⊢
      rw [List.foldl_append]
      exact last
  have all := upTo 16 (Nat.le_refl _)
  rwa [List.take_of_length_le (by simp [allCalls])] at all

/-! ### The gates (R103, R110) -/

theorem atRest_of_still {r q : Gate} (h : r.still = q.still) : r.atRest = q.atRest := by
  have rest : ∀ r : Gate, r.atRest = r.still.atRest := fun _ => rfl
  rw [rest r, rest q, h]

theorem cancelAdmission_free (free : ∀ c, (s.call c).state = .free) (g : GateId) : cancelAdmission g s = s := by
  unfold cancelAdmission
  cases (s.gate g).admissionCall with
  | none => rfl
  | some c =>
    show cancelCall c s = s
    unfold cancelCall
    rw [free c]

/-- A gate at rest, while no call is in progress: its record, and LIGHT off to its lights where it was OPEN. -/
theorem reconfigureGate_eq (free : ∀ c, (s.call c).state = .free) (g : GateId) : reconfigureGate g s = { s with
    gates := s.gates.set g (s.gate g).atRest
    directives := if (s.gate g).state = .open_ then joinAll (s.lightsIssued g (fun _ _ => true) 0) s.directives else s.directives } := by
  by_cases opened : (s.gate g).state = .open_
  · have shut : ∃ v, v = modGate g (fun r => r.shut .closed s.now) s := ⟨_, rfl⟩
    obtain ⟨v, hv⟩ := shut
    have free_v : ∀ c, ((queueLightsOff g v).call c).state = .free := fun c => by
      rw [queueLightsOff_eq, hv]
      exact free c
    have run : reconfigureGate g s = modGate g Gate.atRest (queueLightsOff g v) := by
      unfold reconfigureGate
      rw [if_pos opened, ← hv, cancelAdmission_free free_v]
    have record : ((s.gate g).shut .closed s.now).atRest = (s.gate g).atRest := rfl
    rw [run, queueLightsOff_eq, hv, if_pos opened]
    unfold modGate
    simp only [Fin.getElem_fin, Vector.getElem_set_self, Vector.set_set]
    rfl
  · unfold reconfigureGate
    rw [if_neg opened, if_neg opened]
    rfl

/-- Both gates at rest, while no call is in progress. -/
theorem reconfigureGates_eq (free : ∀ c, (s.call c).state = .free) (ht : t = forEach [0, 1] reconfigureGate s) :
    (∃ gs ds, t = { s with gates := gs, directives := ds } ∧ ∀ g : GateId, gs[g] = (s.gate g).atRest) ∧
    s.directives.map Directive.key <+: t.directives.map Directive.key ∧
    (∀ d ∈ t.directives, d ∈ s.directives ∨ ∃ g e, (s.gate g).state = .open_ ∧ (s.endpoint e).ushers g = true ∧ d = s.lightDirective 0 e) ∧
    ∀ g e, (s.gate g).state = .open_ → (s.endpoint e).ushers g = true → s.lightDirective 0 e ∈ t.directives := by
  have first := reconfigureGate_eq free 0
  have mid : ∃ u, u = reconfigureGate 0 s := ⟨_, rfl⟩
  obtain ⟨u, hu⟩ := mid
  rw [← hu] at first
  have free_u : ∀ c, (u.call c).state = .free := by rw [first]; exact free
  have second := reconfigureGate_eq free_u 1
  have run : t = reconfigureGate 1 u := by rw [ht, hu]; rfl
  rw [← run] at second
  have gate : u.gate 1 = s.gate 1 := by rw [first]; exact (vector_set_get _ _ _ _).trans (if_neg (by decide))
  have lights : u.lightsIssued 1 (fun _ _ => true) 0 = s.lightsIssued 1 (fun _ _ => true) 0 := by rw [first]; rfl
  rw [gate, lights] at second
  have issued : ∀ g d, d ∈ s.lightsIssued g (fun _ _ => true) 0 ↔ ∃ e, (s.endpoint e).ushers g = true ∧ d = s.lightDirective 0 e := by
    intro g d
    unfold State.lightsIssued
    simp only [List.mem_filterMap, lightIssued_some, and_true]
    exact ⟨fun ⟨e, _, light, same⟩ => ⟨e, light, same.symm⟩, fun ⟨e, light, same⟩ => ⟨e, List.mem_finRange e, light, same.symm⟩⟩
  have first_ds : u.directives = if (s.gate 0).state = .open_ then joinAll (s.lightsIssued 0 (fun _ _ => true) 0) s.directives
      else s.directives := by rw [first]
  have second_ds : t.directives = if (s.gate 1).state = .open_ then joinAll (s.lightsIssued 1 (fun _ _ => true) 0) u.directives
      else u.directives := by rw [second]
  have keys : ∀ {p : Prop} [Decidable p] (l q : List Directive),
      q.map Directive.key <+: (if p then joinAll l q else q).map Directive.key := fun l q => by
    split
    · exact joinAll_keys l q
    · exact List.prefix_refl _
  refine ⟨⟨t.gates, t.directives, ?_, fun g => ?_⟩, ?_, fun d hd => ?_, fun g e opened light => ?_⟩
  · rw [second, first]
  · have entry : t.gates[g] = if g = 1 then (s.gate 1).atRest else (if g = 0 then (s.gate 0).atRest else s.gate g) := by
      have in_u : u.gates[g] = if g = 0 then (s.gate 0).atRest else s.gate g := by rw [first]; exact vector_set_get _ _ _ _
      rw [second, ← in_u]
      exact vector_set_get _ _ _ _
    rw [entry]
    match g with
    | 0 => rfl
    | 1 => rfl
  · rw [second_ds]
    exact (first_ds ▸ keys _ _ : s.directives.map Directive.key <+: u.directives.map Directive.key).trans (keys _ _)
  · have before : ∀ d ∈ u.directives, d ∈ s.directives ∨ ∃ g e, (s.gate g).state = .open_ ∧ (s.endpoint e).ushers g = true ∧
        d = s.lightDirective 0 e := fun d hd => by
      rw [first_ds] at hd
      split at hd
      · next opened => exact (mem_joinAll hd).imp_right fun new => let ⟨e, h⟩ := (issued 0 d).mp new; ⟨0, e, opened, h⟩
      · exact .inl hd
    rw [second_ds] at hd
    split at hd
    · next opened =>
      rcases mem_joinAll hd with old | new
      · exact before d old
      · obtain ⟨e, h⟩ := (issued 1 d).mp new
        exact .inr ⟨1, e, opened, h⟩
    · exact before d hd
  · have lit : ∀ {g : GateId} (q : List Directive), (s.endpoint e).ushers g = true →
        s.lightDirective 0 e ∈ joinAll (s.lightsIssued g (fun _ _ => true) 0) q := fun q light =>
      mem_joinAll_self (lightIssued_nodup s _ _ _) ((issued _ _).mpr ⟨e, light, rfl⟩) q
    rw [second_ds]
    match g with
    | 1 => rw [if_pos opened]; exact lit _ light
    | 0 =>
      have there : s.lightDirective 0 e ∈ u.directives := by rw [first_ds, if_pos opened]; exact lit _ light
      split
      · refine mem_joinAll_of_ne (fun d hd same => ?_) there
        obtain ⟨x, other, rfl⟩ := (issued 1 d).mp hd
        have twins : x = e := congrArg Prod.fst same
        subst twins
        have zero := (ushers_iff.mp light).2.2
        rw [(ushers_iff.mp other).2.2] at zero
        exact nomatch zero
      · exact there

/-! ### The services stopped (R33, R53, R71, R118) -/

theorem stopService_settled (s : State) : { (stopService s).settled with service := s.service } = s.settled := by
  have zones := vmap_map_same (f := fun r : Zone => { r with protection := .normal }) (g := Zone.settings) (fun _ => rfl) s.zones
  have endpoints := vmap_map_same (f := Endpoint.atReconfigure) (g := Endpoint.settings) (fun _ => rfl) s.endpoints
  have loops := vmap_map_same (f := fun l : LoopRecord => { l with candidate := none, accumulator := 0 }) (g := LoopRecord.settings)
    (fun _ => rfl) s.loops
  have descs := vmap_map_same (f := DescRecord.start) (g := DescRecord.settings) (fun _ => rfl) s.descs
  simp only [State.settled, stopService, zones, endpoints, loops, descs]
  rfl

theorem stopService_fault (f : FaultRef) (s : State) : (stopService s).fault f = (s.fault f).keepSticky := faultTable_get_map _ _ _

theorem anyActionable_quiet {table : FaultTable} (quiet : ∀ f, (table.get f).state.actionable = false) : table.anyActionable = false := by
  have none_ : ∀ l : List FaultRef, (l.any fun f => (table.get f).state.actionable) = false := fun l => by
    simp only [quiet, List.any_eq_false, Bool.false_eq_true, not_false_eq_true, implies_true]
  exact none_ _

theorem stopService_alert (s : State) : (stopService s).alert = false := by
  have pin : (stopService s).alert = (s.faults.mapAll fun _ r => r.keepSticky).anyActionable := by
    simp only [stopService, withFaults]
  rw [pin]
  exact anyActionable_quiet fun f => by rw [faultTable_get_map]; rfl

theorem atReconfigure_of_still {r q : Endpoint} (h : r.still = q.still) : r.atReconfigure = q.atReconfigure := by
  have rest : ∀ r : Endpoint, r.atReconfigure = r.still.atReconfigure := fun _ => rfl
  rw [rest r, rest q, h]

end

/-- Settles O35: the calls, the gates, then the services. -/
theorem reconfigureStopsTheServices : Obligations.ReconfigureStopsTheServices := by
  intro src req s ready
  have run : exec (.reconfigure src req) s = .next (placeReply src 0x02 req (reconfigureBody (leaveCommand s))) :=
    congrArg Host.Outcome.next (takeCommand_ready ready)
  refine ⟨fun config => ?_, fun serving => ?_⟩
  · rw [run, show reconfigureBody (leaveCommand s) = refuse .wrongState (leaveCommand s) from
      if_pos ((leaveCommand_service s).trans config), placeReply_refuse]
  obtain ⟨_, _, left⟩ := leaveCommand_eq s
  have start : ∃ a, a = leaveCommand s := ⟨_, rfl⟩
  obtain ⟨a, ha⟩ := start
  have cancel : ∃ v, v = forEach allCalls cancelForReconfigure a := ⟨_, rfl⟩
  obtain ⟨v, hv⟩ := cancel
  have rest : ∃ w, w = forEach [0, 1] reconfigureGate v := ⟨_, rfl⟩
  obtain ⟨w, hw⟩ := rest
  have service : a.service = .service := by rw [ha]; exact (leaveCommand_service s).trans serving
  have body : reconfigureBody (leaveCommand s) = (stopService w, .normal .ok []) := by
    rw [← ha, hw, hv]
    exact if_neg (notConfiguration service)
  obtain ⟨still, done, -, unclaimed, powers, evolves, events⟩ := cancelled_all a
  rw [← hv] at still done unclaimed powers evolves events
  have free : ∀ c, (v.call c).state = .free := fun c => done c c.isLt
  obtain ⟨⟨gs, ds, rested, gates⟩, keys, fresh, lights⟩ := reconfigureGates_eq free hw
  have same : ∀ e, (v.endpoint e).node = (s.endpoint e).node ∧ (v.endpoint e).ushers = (s.endpoint e).ushers := fun e => by
    have entry : (v.endpoint e).still = (s.endpoint e).still := (still_endpoint still e).trans (by rw [ha, left]; rfl)
    have node : (v.endpoint e).node = (s.endpoint e).node := (congrArg Endpoint.node entry :)
    have used : (v.endpoint e).inUse = (s.endpoint e).inUse := (congrArg Endpoint.inUse entry :)
    have role : (v.endpoint e).role = (s.endpoint e).role := (congrArg Endpoint.role entry :)
    have place : (v.endpoint e).place = (s.endpoint e).place := (congrArg Endpoint.place entry :)
    refine ⟨node, funext fun g => ?_⟩
    unfold Endpoint.ushers
    rw [used, role, place]
  have state : ∀ g, (v.gate g).state = (s.gate g).state := fun g => by
    have entry : (v.gate g).still = (s.gate g).still := (still_gate still g).trans (by rw [ha, left]; rfl)
    exact (congrArg Gate.state entry :)
  have fault : v.fault = s.fault := by
    have faults : v.faults = a.faults := congrArg Prod.fst unclaimed
    funext f
    rw [show v.fault f = a.fault f by simp only [State.fault, faults], ha, left]
    rfl
  have node : (stopService w).node = s.node := by
    have kept : v.node = a.node := (congrArg State.node still :)
    rw [rested]
    exact kept.trans (by rw [ha, leaveCommand_node])
  have replies : (stopService w).replies = s.replies := by
    have kept : v.replies = a.replies := (congrArg State.replies still :)
    rw [rested]
    exact kept.trans (by rw [ha, leaveCommand_replies])
  rw [body, placeReply_shared node replies] at run
  refine ⟨_, run, rfl, rfl, fun c => ?_, fun g => ?_, fun f => ?_, ?_, fun z => ?_, fun e => ?_, fun l => ?_, fun d => ?_, ?_,
    fun q start next => ?_, fun e g opened used role place => ?_, ?_, fun d hd => ?_⟩
  · have calls : w.call c = v.call c := by rw [rested]; rfl
    exact (congrArg Call.state calls).trans (free c)
  · have rest : w.gate g = gs[g] := by rw [rested]; rfl
    refine Eq.trans (b := w.gate g) rfl (rest.trans ?_)
    exact (gates g).trans (atRest_of_still ((still_gate still g).trans (by rw [ha, left]; rfl)))
  · refine (stopService_fault f w).trans ?_
    rw [rested]
    show (v.fault f).keepSticky = _
    rw [fault]
    rfl
  · simp only [stopService_alert]
  · have record := zone_of_still (still_zone still z)
    have side : (v.zone z).side = (a.zone z).side := (unclaimed_zone unclaimed z).1
    have zone : a.zone z = s.zone z := by rw [ha, leaveCommand_zone]
    rw [side, zone] at record
    have entry : (stopService w).zone z = { v.zone z with protection := .normal } := by rw [rested]; exact vmap_get _ _ z
    refine (congrArg (fun r : Zone => { r with idleDeadline := (s.zone z).idleDeadline }) entry).trans ?_
    rw [record]
  · show (stopService w).endpoint e = (s.endpoint e).atReconfigure
    have entry : (stopService w).endpoint e = (v.endpoint e).atReconfigure := by rw [rested]; exact vmap_get _ _ e
    rw [entry]
    exact atReconfigure_of_still ((still_endpoint still e).trans (by rw [ha, left]; rfl))
  · show (stopService w).loops[l] = (s.loops[l]).still
    have entry : (stopService w).loops[l] = (v.loops[l]).still := by rw [rested]; exact vmap_get _ _ l
    have loops : (v.loops.map LoopRecord.still)[l] = (a.loops.map LoopRecord.still)[l] :=
      congrArg (fun x : Vector LoopRecord 8 => x[l]) (congrArg State.loops still)
    simp only [Fin.getElem_fin, Vector.getElem_map] at loops
    refine entry.trans (loops.trans ?_)
    rw [ha, left]
    rfl
  · show (stopService w).descs[d] = (s.descs[d]).start
    have entry : (stopService w).descs[d] = (v.descs[d]).start := by rw [rested]; exact vmap_get _ _ d
    have descs : v.descs = a.descs := (congrArg State.descs still :)
    rw [entry, descs, ha, left]
  · have settled : w.settled = a.settled := by
      have gates_same : w.settled = v.settled := by
        have kept : gs.map Gate.settings = v.gates.map Gate.settings := by
          ext i hi : 1
          rw [Vector.getElem_map, Vector.getElem_map]
          have entry : gs[i] = (v.gate ⟨i, hi⟩).atRest := gates ⟨i, hi⟩
          rw [entry]
          rfl
        rw [rested]
        simp only [State.settled, kept]
      exact gates_same.trans (settled_of_still still)
    have serving_w : w.service = .service := by
      have kept : v.service = a.service := (congrArg State.service still :)
      rw [rested]
      exact kept.trans service
    have stopped := stopService_settled w
    rw [serving_w, settled, ha] at stopped
    exact stopped
  · have collects : a.Collects q := by
      rw [ha, left]
      exact ⟨by rw [start], next⟩
    show w.events = _
    rw [rested]
    exact events q collects
  · have off := lights g e ((state g).trans opened) (by rw [(same e).2]; exact ushers_iff.mpr ⟨used, role, place⟩)
    unfold State.lightDirective at off
    rw [(same e).1] at off
    exact off
  · have directives : a.directives = s.directives := by rw [ha, left]
    exact (directives ▸ evolves.keys).trans keys
  · have directives : a.directives = s.directives := by rw [ha, left]
    rcases fresh d hd with old | ⟨g, e, opened, light, rfl⟩
    · rcases powers.fresh d old with old | ⟨power, z, c, busy, held, named⟩
      · exact .inl (directives ▸ old)
      · rw [ha, left] at busy held named
        exact .inr (.inl ⟨power, z, c, busy, held, named⟩)
    · rw [(same e).2] at light
      obtain ⟨used, role, place⟩ := ushers_iff.mp light
      exact .inr (.inr ⟨rfl, rfl, (same e).1, used, role, g, (state g).symm.trans opened, place⟩)

end Sys2Proof.Machine
end

section
/-! Dispatch and preemption (R91, R92). -/

namespace Sys2Proof.Machine

/-! ### Preemption (R92) -/

/-- What preemption makes of a record. -/
def Call.preempted (r : Call) (now : Nat) : Call := if r.requeues then r.requeued now else {}

section
variable {s t u : State} {z y : ZoneId} {c x v : CallId} {p : PlayerId} {D waiting : ZoneSet} {n : Node}

theorem preempt_call (x y : CallId) (s : State) : (preempt x s).call y = if y = x then (s.call x).preempted s.now else s.call y := by
  unfold preempt Call.preempted
  simp only
  by_cases back : (s.call x).requeues = true
  · rw [if_pos back, if_pos back]
    obtain ⟨_, _, _, eq, -⟩ := releases_eq (zonesOf (s.call x).delivered) (modCall x (Call.requeued s.now) s)
    rw [eq]
    exact modCall_call _ _ _ _
  · rw [if_neg back, if_neg back]
    split
    · exact completeCall_call x y _ s
    · exact completeCall_call x y _ s

theorem running_reports {r : Call} (running : r.running = true) : r.reportDelivered = r.delivered :=
  reportDelivered_eq fun pending => by
    unfold Call.running at running
    rw [pending] at running
    exact nomatch running

theorem preempt_zone (running : (s.call x).running = true) (z : ZoneId) : (preempt x s).zone z =
    if (s.call x).delivered.getLsbD z.val then (s.zone z).released s.now else s.zone z := by
  have completes : ∀ why, (completeCall x why s).zone z = if (s.call x).delivered.getLsbD z.val then (s.zone z).released s.now else s.zone z :=
    fun why => by rw [completeCall_zone, running_reports running]
  unfold preempt
  simp only
  split
  · obtain ⟨_, _, _, eq, zone⟩ := releases_eq (zonesOf (s.call x).delivered) (modCall x (Call.requeued s.now) s)
    rw [eq]
    refine (zone z).trans ?_
    simp only [mem_zonesOf]
    rfl
  · split
    · exact completes _
    · exact completes _

theorem preempt_worksOut (running : (s.call x).running = true) (held : (s.call x).delivered.getLsbD z.val = true) :
    (preempt x s).PowerWorkedOut z := by
  have reported : (s.call x).reportDelivered.getLsbD z.val = true := by rw [running_reports running]; exact held
  unfold preempt
  simp only
  split
  · exact releases_workOut _ _ (.inl (mem_zonesOf.mpr held))
  · split
    · exact completeCall_worksOut s _ reported
    · exact completeCall_worksOut s _ reported

theorem preempted_claims (r : Call) (now : Nat) (z : ZoneId) : (r.preempted now).claims z = false := by
  unfold Call.preempted
  split
  · exact claims_of_free (.inr rfl)
  · exact claims_of_free (.inl rfl)

theorem State.PowerWorkedOut.preempt (worked : s.PowerWorkedOut z) (running : (s.call x).running = true) :
    (preempt x s).PowerWorkedOut z := by
  by_cases held : (s.call x).delivered.getLsbD z.val = true
  · exact preempt_worksOut running held
  have free : (s.call x).claims z = false := by
    rw [← Bool.not_eq_true, claims_iff]
    exact fun h => held h.2
  unfold Machine.preempt
  simp only
  split
  · refine releases_workOut _ _ (.inr ?_)
    refine worked.congr rfl rfl rfl rfl (congrArg Option.isSome (claimant_congr fun d => ?_))
    rw [modCall_call]
    split
    · next same => subst same; rw [free]; exact claims_of_free (.inr rfl)
    · rfl
  · split
    · exact completeCall_workedOut s _ worked free
    · exact completeCall_workedOut s _ worked free

/-- Several preemptions: of each call its own, and the zones of all of them released. -/
theorem preempts_spec (l : List CallId) (distinct : l.Nodup) (running : ∀ x ∈ l, (s.call x).running = true) (ht : t = forEach l preempt s) :
    t.still = s.still ∧ Sends s t ∧
    (∀ y, t.call y = if y ∈ l then (s.call y).preempted s.now else s.call y) ∧
    (∀ z, (∃ x ∈ l, (s.call x).delivered.getLsbD z.val = true) → t.zone z = (s.zone z).released s.now ∧ t.PowerWorkedOut z) ∧
    (∀ z, (∀ x ∈ l, (s.call x).delivered.getLsbD z.val = false) → t.zone z = s.zone z) ∧
    (∀ z, s.PowerWorkedOut z → t.PowerWorkedOut z) := by
  induction l generalizing s with
  | nil =>
    rw [show t = s from ht]
    exact ⟨rfl, .refl s, fun y => rfl, fun z ⟨x, hx, _⟩ => absurd hx List.not_mem_nil, fun z _ => rfl, fun z h => h⟩
  | cons a l ih =>
    obtain ⟨new, rest⟩ := List.nodup_cons.mp distinct
    have run_a := running a List.mem_cons_self
    have step : ∃ u, u = preempt a s := ⟨_, rfl⟩
    obtain ⟨u, hu⟩ := step
    have still : u.still = s.still := hu ▸ preempt_still s a
    have now : u.now = s.now := (congrArg State.now still :)
    have call : ∀ y, u.call y = if y = a then (s.call a).preempted s.now else s.call y := fun y => by rw [hu]; exact preempt_call a y s
    have others : ∀ y ∈ l, u.call y = s.call y := fun y hy => by
      rw [call, if_neg]
      rintro rfl
      exact new hy
    have zone : ∀ z, u.zone z = if (s.call a).delivered.getLsbD z.val then (s.zone z).released s.now else s.zone z :=
      fun z => hu ▸ preempt_zone run_a z
    obtain ⟨still', sends, calls, freed, kept, worked⟩ :=
      ih rest (fun x hx => by rw [others x hx]; exact running x (List.mem_cons_of_mem a hx)) (by rw [ht, hu]; rfl)
    refine ⟨still'.trans still, (hu ▸ preempt_sends s a : Sends s u).trans sends, fun y => ?_, fun z h => ?_, fun z h => ?_, fun z h => ?_⟩
    · rw [calls, call, now]
      by_cases same : y = a
      · subst same; simp [new]
      · by_cases here : y ∈ l <;> simp [same, here]
    · by_cases later : ∃ x ∈ l, (s.call x).delivered.getLsbD z.val = true
      · obtain ⟨x, hx, held⟩ := later
        obtain ⟨record, power⟩ := freed z ⟨x, hx, by rw [others x hx]; exact held⟩
        refine ⟨record.trans ?_, power⟩
        rw [zone, now]
        split
        · exact Zone.released_released _ _
        · rfl
      · obtain ⟨x, hx, held⟩ := h
        have same : x = a := (List.mem_cons.mp hx).resolve_right fun hx => later ⟨x, hx, held⟩
        subst same
        refine ⟨(kept z fun y hy => ?_).trans ?_, worked z (hu ▸ preempt_worksOut run_a held)⟩
        · rw [others y hy, ← Bool.not_eq_true]
          exact fun held => later ⟨y, hy, held⟩
        · rw [zone, if_pos held]
    · refine (kept z fun y hy => ?_).trans ?_
      · rw [others y hy]; exact h y (List.mem_cons_of_mem a hy)
      · rw [zone, h a List.mem_cons_self]; rfl
    · exact worked z (hu ▸ h.preempt run_a)

/-- A run over the calls that changes those that meet a condition on their own record. -/
theorem forEach_filter {f : CallId → State → State} {cond : Call → Bool} (others : ∀ a x u, x ≠ a → (f a u).call x = u.call x)
    (l : List CallId) (distinct : l.Nodup) (s : State) :
    forEach l (fun a u => if cond (u.call a) = true then f a u else u) s = forEach (l.filter fun a => cond (s.call a)) f s := by
  induction l generalizing s with
  | nil => rfl
  | cons a l ih =>
    obtain ⟨new, rest⟩ := List.nodup_cons.mp distinct
    rw [forEach_cons]
    by_cases here : cond (s.call a) = true
    · rw [if_pos here, ih rest, List.filter_cons_of_pos (by exact here), forEach_cons]
      congr 1
      refine List.filter_congr fun x hx => ?_
      rw [others a x s fun same => new (same ▸ hx)]
    · rw [if_neg here, ih rest, List.filter_cons_of_neg (by exact here)]

/-- Whether a call gives way to a higher one that claims zones of `D` (R91, step 4). -/
def Call.givesWay (priority : Nat) (D : ZoneSet) (r : Call) : Bool :=
  r.running && decide (r.priority < priority) && r.delivered &&& D != 0

theorem preemptByZone_eq (priority : Nat) (D : ZoneSet) (s : State) :
    preemptByZone priority D s = forEach (allCalls.filter fun x => (s.call x).givesWay priority D) preempt s :=
  forEach_filter (cond := Call.givesWay priority D) (fun a x u ne => by rw [preempt_call, if_neg ne]) allCalls (List.nodup_finRange 16) s

theorem givesWay_iff {r : Call} {priority : Nat} : r.givesWay priority D = true ↔
    r.running = true ∧ r.priority < priority ∧ r.delivered &&& D ≠ 0 := by
  simp [Call.givesWay, and_assoc]

theorem preempted_running (r : Call) (now : Nat) : (r.preempted now).running = false := by
  unfold Call.preempted
  split <;> rfl

/-- The calls preempted by a start: the one that gives up its player, and those that claim zones of `D`. -/
theorem preemptions_eq (victim : Option CallId) (running : ∀ v, victim = some v → (s.call v).running = true) (priority : Nat) (D : ZoneSet) :
    ∃ l : List CallId, l.Nodup ∧ (∀ x, x ∈ l ↔ victim = some x ∨ (s.call x).givesWay priority D = true) ∧
      (∀ x ∈ l, (s.call x).running = true) ∧ preemptByZone priority D (whenSome victim preempt s) = forEach l preempt s := by
  cases victim with
  | none =>
    refine ⟨_, (List.nodup_finRange 16).filter _, fun x => ?_, fun x hx => ?_, preemptByZone_eq priority D s⟩
    · simp
    · exact (givesWay_iff.mp (List.mem_filter.mp hx).2).1
  | some v =>
    have step : ∃ u, u = preempt v s := ⟨_, rfl⟩
    obtain ⟨u, hu⟩ := step
    have gives : ∀ x, (u.call x).givesWay priority D = true ↔ x ≠ v ∧ (s.call x).givesWay priority D = true := fun x => by
      rw [hu, preempt_call]
      by_cases same : x = v
      · subst same
        rw [if_pos rfl, givesWay_iff, preempted_running]
        simp
      · rw [if_neg same]; simp [same]
    refine ⟨v :: allCalls.filter fun x => (u.call x).givesWay priority D, ?_, fun x => ?_, fun x hx => ?_, ?_⟩
    · refine List.nodup_cons.mpr ⟨fun h => ?_, (List.nodup_finRange 16).filter _⟩
      exact ((gives v).mp (List.mem_filter.mp h).2).1 rfl
    · rw [List.mem_cons, List.mem_filter, gives]
      constructor
      · rintro (rfl | ⟨-, -, h⟩)
        · exact .inl rfl
        · exact .inr h
      · rintro (h | h)
        · exact .inl (Option.some.inj h).symm
        · by_cases same : x = v
          · exact .inl same
          · exact .inr ⟨List.mem_finRange x, same, h⟩
    · rcases List.mem_cons.mp hx with rfl | hx
      · exact running _ rfl
      · exact (givesWay_iff.mp ((gives x).mp (List.mem_filter.mp hx).2).2).1
    · show preemptByZone priority D (preempt v s) = _
      rw [← hu, preemptByZone_eq, forEach_cons, hu]

/-! ### The start of a call (R91, steps 5 and 6) -/

theorem recommandZones_eq (l : List ZoneId) (s : State) : ∃ es ds, forEach l recommandZone s = { s with endpoints := es, directives := ds } := by
  induction l generalizing s with
  | nil => exact ⟨s.endpoints, s.directives, rfl⟩
  | cons a l ih =>
    obtain ⟨_, _, first⟩ := recommandZone_eq a s
    obtain ⟨es, ds, rest⟩ := ih (recommandZone a s)
    exact ⟨es, ds, by rw [forEach_cons, rest, first]⟩

theorem claimant_of_only (claims : (s.call c).claims z = true) (only : ∀ x, x ≠ c → (s.call x).claims z = false) :
    s.claimant z = some c :=
  find_finRange.mpr ⟨claims, fun d lt => only d (ne_of_lt lt)⟩

/-- The claim of a call that starts: its commanded power, and PLAYING where all its zones are awake. -/
def claimStart (c : CallId) (D : ZoneSet) (p : PlayerId) (s : State) : State :=
  let s := forEach (zonesOf D) recommandZone (countStart (modCall c (s.claimRecord D p) s))
  if s.allAwake c then enterPlaying c s else s

theorem startCall_eq (c : CallId) (D : ZoneSet) (p : PlayerId) (s : State) :
    startCall c D p s = claimStart c D p (preemptByZone (s.call c).priority D s) := rfl

theorem claimStart_spec (pending : (s.call c).state = .pending) (free : ∀ z : ZoneId, D.getLsbD z.val = true → ∀ x, (s.call x).claims z = false)
    (ht : t = claimStart c D p s) :
    t.startCounter = s.startCounter + 1 ∧ { t with startCounter := s.startCounter }.still = s.still ∧
    t.call c = { s.claimRecord D p (s.call c) with
      state := if ∀ z : ZoneId, D.getLsbD z.val = true → s.awake z = true then .playing else .waking } ∧
    (∀ x, x ≠ c → t.call x = s.call x) ∧ (∀ z, t.zone z = s.zone z) ∧
    (∀ z : ZoneId, D.getLsbD z.val = true → t.claimant z = some c ∧ t.PowerWorkedOut z) ∧
    (∀ z, s.PowerWorkedOut z → t.PowerWorkedOut z) ∧
    (∀ (z : ZoneId) e, s.policy[1].mode ≠ .disabled → (∀ y : ZoneId, D.getLsbD y.val = true → s.awake y = true) →
      D.getLsbD z.val = true → (s.zone z).active = some e → (t.fault (wakeFailedRef e)).lastPresent = false) := by
  have claim : ∃ a, a = countStart (modCall c (s.claimRecord D p) s) := ⟨_, rfl⟩
  obtain ⟨a, ha⟩ := claim
  have power : ∃ b, b = forEach (zonesOf D) recommandZone a := ⟨_, rfl⟩
  obtain ⟨b, hb⟩ := power
  obtain ⟨es, ds, powered⟩ := recommandZones_eq (zonesOf D) a
  rw [← hb] at powered
  have run : t = if b.allAwake c then enterPlaying c b else b := by rw [ht, hb, ha]; rfl
  have call_a : ∀ x, a.call x = if x = c then s.claimRecord D p (s.call c) else s.call x := fun x => by
    rw [ha]; exact modCall_call _ _ _ _
  have call_b : ∀ x, b.call x = a.call x := fun x => by rw [powered]; rfl
  have zone_b : ∀ z, b.zone z = s.zone z := fun z => by rw [powered, ha]; rfl
  have still_b : b.still = a.still := by rw [hb]; exact forEach_keeps _ State.still (fun z u => recommandZone_still u z) _
  have still_a : { a with startCounter := s.startCounter }.still = s.still := by rw [ha]; exact modCall_still s c _
  have counted : { b with startCounter := s.startCounter }.still = s.still := by
    have same : { b with startCounter := s.startCounter }.still = { a with startCounter := s.startCounter }.still :=
      congrArg (fun v : State => { v with startCounter := s.startCounter }) still_b
    exact same.trans still_a
  have awake : ∀ z, b.awake z = s.awake z := fun z =>
    awake_of_still (t := { b with startCounter := s.startCounter }) counted (congrArg Zone.active (zone_b z))
  have claimant_a : ∀ z : ZoneId, D.getLsbD z.val = true → a.claimant z = some c := fun z hz => by
    refine claimant_of_only ?_ fun x ne => ?_
    · rw [call_a, if_pos rfl]
      exact claims_iff.mpr ⟨.inl rfl, hz⟩
    · rw [call_a, if_neg ne]; exact free z hz x
  have claimant_b : ∀ z, b.claimant z = a.claimant z := fun z => claimant_congr fun x => by rw [call_b]
  have worked_b : ∀ z : ZoneId, D.getLsbD z.val = true → b.PowerWorkedOut z := fun z hz => by
    rw [hb]
    exact forEach_gives (P := fun v => v.PowerWorkedOut z) (fun y v h => h.recommandZone y) (mem_zonesOf.mpr hz)
      (fun v => recommandZone_worksOut z v) a
  have kept_b : ∀ z, s.PowerWorkedOut z → b.PowerWorkedOut z := fun z h => by
    by_cases hz : D.getLsbD z.val = true
    · exact worked_b z hz
    have kept_a : a.PowerWorkedOut z := by
      refine h.congr (by rw [ha]; rfl) (by rw [ha]; rfl) (by rw [ha]; rfl) (by rw [ha]; rfl)
        (congrArg Option.isSome (claimant_congr fun x => ?_))
      rw [call_a]
      split
      · next same =>
        subst same
        rw [claims_of_free (.inr pending), ← Bool.not_eq_true, claims_iff]
        exact fun claims => hz claims.2
      · rfl
    rw [hb]
    exact forEach_invariant (P := fun v => v.PowerWorkedOut z) a (fun y v h => h.recommandZone y) _ kept_a
  have record_b : b.call c = s.claimRecord D p (s.call c) := by rw [call_b, call_a, if_pos rfl]
  have all_iff : b.allAwake c = true ↔ ∀ z : ZoneId, D.getLsbD z.val = true → s.awake z = true := by
    rw [allAwake_iff, record_b]
    simp only [awake]
    exact Iff.rfl
  have counter_b : b.startCounter = s.startCounter + 1 := by rw [powered, ha]; rfl
  by_cases all : ∀ z : ZoneId, D.getLsbD z.val = true → s.awake z = true
  · rw [if_pos (all_iff.mpr all)] at run
    obtain ⟨⟨fs, al, eq⟩, absent⟩ := enterPlaying_spec c b
    rw [← run] at eq absent
    have calls : ∀ x, t.call x = if x = c then { b.call c with state := .playing } else b.call x := fun x => by
      rw [eq]; exact set_call _ _ _ _
    have running : (b.call c).running = true := by rw [record_b]; rfl
    have policy : b.policy = s.policy := by rw [powered, ha]; rfl
    refine ⟨by rw [eq]; exact counter_b, ?_, ?_, fun x ne => ?_, fun z => ?_, fun z hz => ⟨?_, ?_⟩, fun z h => ?_, fun z e watched _ hz act => ?_⟩
    · have same : { t with startCounter := s.startCounter }.still = { b with startCounter := s.startCounter }.still :=
        congrArg (fun v : State => { v with startCounter := s.startCounter }) (by rw [run]; exact enterPlaying_still b c : t.still = b.still)
      exact same.trans counted
    · rw [calls, if_pos rfl, record_b, if_pos all]
    · rw [calls, if_neg ne, call_b, call_a, if_neg ne]
    · rw [← zone_b z, eq]; rfl
    · refine (claimant_congr fun x => ?_).trans ((claimant_b z).trans (claimant_a z hz))
      rw [calls]
      split
      · next same => subst same; rw [record_b]; rfl
      · rfl
    · rw [run]; exact enterPlaying_workedOut running (worked_b z hz)
    · rw [run]; exact enterPlaying_workedOut running (kept_b z h)
    · rw [absent, if_pos]
      refine ⟨by rw [policy]; exact watched, z, ?_, by rw [zone_b]; exact act⟩
      rw [record_b]; exact hz
  · rw [if_neg fun h => all (all_iff.mp h)] at run
    rw [run]
    refine ⟨counter_b, counted, ?_, fun x ne => ?_, zone_b, fun z hz => ⟨(claimant_b z).trans (claimant_a z hz), worked_b z hz⟩, kept_b,
      fun z e _ up _ _ => absurd up all⟩
    · rw [record_b, if_neg all]; rfl
    · rw [call_b, call_a, if_neg ne]

/-! ### The walk for one call (R91, steps 1 to 3) -/

theorem maskOf_getLsbD (f : ZoneId → Bool) (z : ZoneId) : (maskOf f).getLsbD z.val = f z := by
  have fold : ∀ (l : List ZoneId) (m : ZoneSet), (l.foldl (fun m z => if f z then m ||| zoneBit z else m) m).getLsbD z.val =
      (m.getLsbD z.val || (f z && decide (z ∈ l))) := by
    intro l
    induction l with
    | nil => intro m; simp
    | cons a l ih =>
      intro m
      rw [List.foldl_cons, ih]
      by_cases same : z = a
      · subst same
        cases h : f z
        · simp
        · rw [if_pos rfl, BitVec.getLsbD_or, zoneBit_getLsbD]
          simp
      · have bit : (if f a = true then m ||| zoneBit a else m).getLsbD z.val = m.getLsbD z.val := by
          split
          · rw [BitVec.getLsbD_or, zoneBit_getLsbD, decide_eq_false same, Bool.or_false]
          · rfl
        rw [bit]
        simp [same]
  unfold maskOf
  rw [fold]
  simp

theorem deliverableSet_eq (h : ∀ z : ZoneId, D.getLsbD z.val = true ↔ (s.call c).target.getLsbD z.val = true ∧ s.deliverable z = true) :
    s.deliverableSet c = D := zoneSet_ext fun z => by
  unfold State.deliverableSet
  rw [maskOf_getLsbD, Bool.eq_iff_iff, h, Bool.and_eq_true]

theorem blocked_iff {priority : Nat} : s.blocked priority waiting z = true ↔
    waiting.getLsbD z.val = true ∨ ∃ x, s.claimant z = some x ∧ priority ≤ (s.call x).priority := by
  unfold State.blocked
  cases s.claimant z <;> simp

/-- A player is held by a running call. -/
def State.Held (s : State) (p : PlayerId) : Prop := ∃ x, (s.call x).running = true ∧ (s.call x).player = some p

theorem not_held_iff : (allCalls.all fun c => !((s.call c).running && (s.call c).player == some p)) = true ↔ ¬ s.Held p := by
  have each : ∀ r : Call, (!(r.running && r.player == some p)) = true ↔ ¬ (r.running = true ∧ r.player = some p) := fun r => by
    cases r.running <;> simp
  unfold State.Held
  simp only [List.all_eq_true, allCalls, List.mem_finRange, forall_true_left, each, not_exists]

theorem freePlayer_none (h : ∀ p, s.Held p) : s.freePlayer = none := find_finRange_none.mpr fun p => by
  rw [← Bool.not_eq_true, not_held_iff, not_not]
  exact h p

theorem freePlayer_some (free : ¬ s.Held p) (lowest : ∀ q, q < p → s.Held q) : s.freePlayer = some p :=
  find_finRange.mpr ⟨not_held_iff.mpr free, fun q lt => by rw [← Bool.not_eq_true, not_held_iff, not_not]; exact lowest q lt⟩

/-- The choice of the first by a rule among those that meet a condition. -/
theorem choice_none {P : CallId → Bool} {R : CallId → CallId → Bool} (l : List CallId) (none_ : ∀ x ∈ l, P x = false) (best : Option CallId) :
    l.foldl (fun best c => if P c then match best with
      | none => some c
      | some b => if R c b then some c else some b
    else best) best = best := by
  induction l with
  | nil => rfl
  | cons a l ih =>
    rw [List.foldl_cons, if_neg (by rw [none_ a List.mem_cons_self]; decide)]
    exact ih fun x hx => none_ x (List.mem_cons_of_mem a hx)

theorem choice_some {P : CallId → Bool} {R : CallId → CallId → Bool} {v : CallId} (holds : P v = true)
    (first : ∀ x, x ≠ v → P x = true → R v x = true ∧ R x v = false) (l : List CallId) (best : Option CallId)
    (start : best = some v ∨ v ∈ l ∧ ∀ b, best = some b → b ≠ v ∧ P b = true) :
    l.foldl (fun best c => if P c then match best with
      | none => some c
      | some b => if R c b then some c else some b
    else best) best = some v := by
  induction l generalizing best with
  | nil => exact start.resolve_right fun h => nomatch h.1
  | cons a l ih =>
    rw [List.foldl_cons]
    apply ih
    by_cases here : a = v
    · subst here
      rw [if_pos holds]
      rcases start with rfl | ⟨-, other⟩
      · simp
      · cases best with
        | none => exact .inl rfl
        | some b =>
          obtain ⟨ne, pb⟩ := other b rfl
          refine .inl ?_
          simp only
          rw [if_pos (first b ne pb).1]
    · rcases start with rfl | ⟨there, other⟩
      · refine .inl ?_
        split
        · next pa => simp only; rw [if_neg (by rw [(first a here pa).2]; decide)]
        · rfl
      · refine .inr ⟨(List.mem_cons.mp there).resolve_left (Ne.symm here), fun b hb => ?_⟩
        split at hb
        · next pa =>
          cases best with
          | none => cases hb; exact ⟨here, pa⟩
          | some d =>
            simp only at hb
            split at hb
            · cases hb; exact ⟨here, pa⟩
            · exact other b hb
        · exact other b hb

theorem earlier_iff {a b : BitVec 32} : earlier a b = true ↔ 0 < (b - a).toNat ∧ (b - a).toNat < 2 ^ 31 := by
  unfold earlier
  rw [Bool.and_eq_true, decide_eq_true_iff, decide_eq_true_iff]
  omega

theorem earlier_asymm {a b : BitVec 32} (h : earlier a b = true) : earlier b a = false := by
  rw [← Bool.not_eq_true, earlier_iff]
  rw [earlier_iff] at h
  bv_omega

theorem playerVictim_none {priority : Nat} (h : ∀ x, (s.call x).running = true → priority ≤ (s.call x).priority) :
    s.playerVictim priority = none :=
  choice_none allCalls (fun x _ => by
    rw [← Bool.not_eq_true, Bool.and_eq_true, decide_eq_true_iff]
    exact fun low => absurd (h x low.1) (Nat.not_le.mpr low.2)) none

theorem playerVictim_some {priority : Nat} (running : (s.call v).running = true) (low : (s.call v).priority < priority)
    (first : ∀ x, x ≠ v → (s.call x).running = true → (s.call x).priority < priority →
      (s.call v).priority < (s.call x).priority ∨ (s.call v).priority = (s.call x).priority ∧
        0 < ((s.call v).startOrder.getD 0 - (s.call x).startOrder.getD 0).toNat ∧
        ((s.call v).startOrder.getD 0 - (s.call x).startOrder.getD 0).toNat < 2 ^ 31) : s.playerVictim priority = some v := by
  refine choice_some (R := fun a b => (s.call a).yieldsBefore (s.call b)) (by rw [running, decide_eq_true low]; rfl) (fun x ne below => ?_)
    allCalls none (.inr ⟨List.mem_finRange v, fun b h => nomatch h⟩)
  rw [Bool.and_eq_true, decide_eq_true_iff] at below
  unfold Call.yieldsBefore
  rcases first x ne below.1 below.2 with lower | ⟨equal, later⟩
  · have not_equal : ((s.call x).priority == (s.call v).priority) = false := by simp; omega
    refine ⟨by rw [decide_eq_true lower]; rfl, ?_⟩
    rw [decide_eq_false (by omega), not_equal]
    rfl
  · have yields := earlier_iff.mpr later
    refine ⟨?_, ?_⟩
    · rw [yields, equal]; simp
    · rw [earlier_asymm yields, equal]; simp

theorem dispatchCall_none (h : s.deliverableSet c = 0) : dispatchCall c waiting s = (completeCall c .notDelivered s, waiting) := if_pos h

theorem dispatchCall_blocked (hD : s.deliverableSet c = D) (here : D.getLsbD z.val = true)
    (blocked : s.blocked (s.call c).priority waiting z = true) : dispatchCall c waiting s = (s, waiting ||| (s.call c).target) := by
  unfold dispatchCall
  simp only [hD]
  rw [if_neg, if_pos (List.any_eq_true.mpr ⟨z, mem_zonesOf.mpr here, blocked⟩)]
  intro empty
  rw [empty] at here
  simp at here

theorem dispatchCall_open (hD : s.deliverableSet c = D) (some_ : D ≠ 0)
    (clear : ∀ z : ZoneId, D.getLsbD z.val = true → s.blocked (s.call c).priority waiting z = false) : dispatchCall c waiting s =
      match s.freePlayer with
      | some p => (startCall c D p s, waiting)
      | none =>
        match s.playerVictim (s.call c).priority with
        | none => (s, waiting ||| (s.call c).target)
        | some v =>
          match (s.call v).player with
          | some p => (startCall c D p (preempt v s), waiting)
          | none => (s, waiting ||| (s.call c).target) := by
  unfold dispatchCall
  simp only [hD]
  refine (if_neg some_).trans ((if_neg ?_).trans rfl)
  rw [Bool.not_eq_true, List.any_eq_false]
  intro z hz
  rw [clear z (mem_zonesOf.mp hz)]
  exact Bool.false_ne_true

/-- A call whose zones are blocked or for which no player is to be had stays PENDING. -/
theorem dispatchCall_noPlayer (hD : s.deliverableSet c = D) (some_ : D ≠ 0) (held : ∀ p, s.Held p)
    (high : ∀ x, (s.call x).running = true → (s.call c).priority ≤ (s.call x).priority) :
    dispatchCall c waiting s = (s, waiting ||| (s.call c).target) := by
  by_cases clear : ∀ z : ZoneId, D.getLsbD z.val = true → s.blocked (s.call c).priority waiting z = false
  · rw [dispatchCall_open hD some_ clear, freePlayer_none held, playerVictim_none high]
  · simp only [not_forall, Bool.not_eq_false] at clear
    obtain ⟨z, here, blocked⟩ := clear
    exact dispatchCall_blocked hD here blocked

end

section
variable {s t : State} {c : CallId} {p : PlayerId} {D waiting : ZoneSet} {r : Call}

/-- A call that starts: what it preempts, what it claims. -/
theorem startCall_spec {victim : Option CallId} (serving : s.service = .service) (sound : s.CallsSound) (hr : r = s.call c) (pending : r.state = .pending)
    (runs : ∀ v, victim = some v → (s.call v).running = true)
    (lower : ∀ z : ZoneId, D.getLsbD z.val = true → ∀ x, s.claimant z = some x → (s.call x).priority < r.priority)
    (ht : t = startCall c D p (whenSome victim preempt s)) :
    t.startCounter = s.startCounter + 1 ∧ { t with startCounter := s.startCounter }.still = s.still ∧
    t.call c = { r with
      state := if ∀ z : ZoneId, D.getLsbD z.val = true → s.awake z = true then .playing else .waking
      delivered := D, missed := r.target &&& ~~~ D, startOrder := some s.startCounter, player := some p
      wake := Vector.ofFn fun z => if D.getLsbD z.val && !s.awake z then some (s.now + s.config.wakeTimeout) else none
      plays := 0, position := 0, offset := 0, liveElapsed := 0, liveBegun := false } ∧
    (∀ z : ZoneId, D.getLsbD z.val = true → t.claimant z = some c ∧ t.PowerWorkedOut z) ∧ s.PowerSent t ∧
    (∀ (z : ZoneId) e, s.policy[1].mode ≠ .disabled → (∀ y : ZoneId, D.getLsbD y.val = true → s.awake y = true) →
      D.getLsbD z.val = true → (s.zone z).active = some e → (t.fault (wakeFailedRef e)).lastPresent = false) ∧
    ∀ out : CallId → Prop, (∀ x, out x ↔ x ≠ c ∧ (victim = some x ∨ (s.call x).running = true ∧
        (s.call x).priority < r.priority ∧ (s.call x).delivered &&& D ≠ 0)) →
      (∀ x, x ≠ c → (out x → t.call x = (preempt x s).call x) ∧ (¬ out x → t.call x = s.call x)) ∧
      ∀ z : ZoneId, ((∃ x, out x ∧ (s.call x).delivered.getLsbD z.val = true) →
          t.zone z = (s.zone z).released s.now ∧ t.PowerWorkedOut z) ∧
        ((∀ x, out x → (s.call x).delivered.getLsbD z.val = false) → t.zone z = s.zone z) := by
  obtain ⟨l, distinct, member, running, preempts⟩ := preemptions_eq victim runs r.priority D
  have idle : (s.call c).running = false := by rw [← hr]; unfold Call.running; rw [pending]
  have not_victim : ∀ v, victim = some v → v ≠ c := fun v hv same => by
    have on := runs v hv
    rw [same, idle] at on
    exact nomatch on
  have spared : c ∉ l := fun h => by
    have on := running c h
    rw [idle] at on
    exact nomatch on
  have first : ∃ u, u = forEach l preempt s := ⟨_, rfl⟩
  obtain ⟨u, hu⟩ := first
  obtain ⟨still, -, calls, freed, kept, worked⟩ := preempts_spec l distinct running hu
  have record : u.call c = r := by rw [calls, if_neg spared, hr]
  have now : u.now = s.now := (congrArg State.now still :)
  have config : u.config = s.config := (congrArg State.config still :)
  have policy : u.policy = s.policy := (congrArg State.policy still :)
  have counter : u.startCounter = s.startCounter := (congrArg State.startCounter still :)
  have active : ∀ z, (u.zone z).active = (s.zone z).active := fun z => by
    by_cases hit : ∃ x ∈ l, (s.call x).delivered.getLsbD z.val = true
    · rw [(freed z hit).1, released_active]
    · rw [kept z fun x hx => by rw [← Bool.not_eq_true]; exact fun h => hit ⟨x, hx, h⟩]
  have awake : ∀ z, u.awake z = s.awake z := fun z => awake_of_still still (active z)
  have start : t = claimStart c D p u := by
    have same : (whenSome victim preempt s).call c = s.call c := by
      cases hv : victim with
      | none => rfl
      | some v => exact (preempt_call v c s).trans (if_neg (not_victim v hv).symm)
    rw [ht, startCall_eq, same, ← hr, preempts, hu]
  have free : ∀ z : ZoneId, D.getLsbD z.val = true → ∀ x, (u.call x).claims z = false := fun z hz x => by
    rw [calls]
    split
    · exact preempted_claims _ _ _
    · next away =>
      rw [← Bool.not_eq_true]
      intro claims
      have below := lower z hz x ((claimant_eq_some sound).mpr claims)
      obtain ⟨on, held⟩ := claims_iff.mp claims
      refine away ((member x).mpr (.inr (givesWay_iff.mpr ⟨running_iff.mpr on, below, fun apart => ?_⟩)))
      have bit := zoneSet_eq_zero.mp apart z
      rw [BitVec.getLsbD_and, held, hz] at bit
      exact nomatch bit
  obtain ⟨count, frame, call, others, zone, claim, power, faults⟩ := claimStart_spec (p := p) (by rw [record]; exact pending) free start
  rw [counter] at count frame
  rw [record] at call
  refine ⟨count, frame.trans still, ?_, claim, ?_, fun z e watched all hz act => ?_, fun out hout => ?_⟩
  · rw [call]
    simp only [awake]
    unfold State.claimRecord
    simp only [awake, now, config, counter]
  · have sends : Sends s t := by
      have chain : Sends s (whenSome victim preempt s) := .whenSome (fun v w => preempt_sends w v) victim s
      rw [ht]
      exact chain.trans (startCall_sends _ c D p)
    exact sends.sent serving
  · exact faults z e (by rw [policy]; exact watched) (fun y hy => by rw [awake]; exact all y hy) hz (by rw [active]; exact act)
  · have in_l : ∀ x, x ∈ l ↔ out x := fun x => by
      rw [member, hout, givesWay_iff]
      refine ⟨fun h => ⟨?_, h⟩, fun h => h.2⟩
      rintro rfl
      exact spared ((member x).mpr (h.imp_right givesWay_iff.mpr))
    refine ⟨fun x ne => ⟨fun h => ?_, fun h => ?_⟩, fun z => ⟨fun ⟨x, h, held⟩ => ?_, fun h => ?_⟩⟩
    · rw [others x ne, calls, if_pos ((in_l x).mpr h), preempt_call, if_pos rfl]
    · rw [others x ne, calls, if_neg fun hx => h ((in_l x).mp hx)]
    · obtain ⟨released, worked_out⟩ := freed z ⟨x, (in_l x).mpr h, held⟩
      exact ⟨(zone z).trans released, power z worked_out⟩
    · exact (zone z).trans (kept z fun x hx => h x ((in_l x).mp hx))

end

/-- Settles O31: the walk's outcomes for one call in the order of R91, then the two ways of a preempted call. -/
theorem dispatchClaimsAndPreemptionReleases : Obligations.DispatchClaimsAndPreemptionReleases := by
  refine ⟨fun c waiting D s r held sound hr pending hD hheld => ?_, fun c s active => ?_⟩
  · have set_D : s.deliverableSet c = D := deliverableSet_eq (by rw [← hr]; exact hD)
    have held_eq : held = s.Held := hheld
    subst held_eq
    refine ⟨fun n none_ origin => ?_, fun z here why => ?_, fun some_ full high => ?_, fun some_ clear p victim choice => ?_⟩
    · rw [dispatchCall_none (set_D.trans none_), completeCall_pending (hr ▸ pending) (hr ▸ origin), ← hr]
      rfl
    · rw [dispatchCall_blocked set_D here (blocked_iff.mpr (hr ▸ why)), hr]
    · rw [dispatchCall_noPlayer set_D some_ full (hr ▸ high), hr]
    · have open_ := dispatchCall_open (waiting := waiting) set_D some_ fun z hz => by
        rw [← Bool.not_eq_true, blocked_iff, ← hr]
        rintro (wanted | ⟨x, claimed, high⟩)
        · rw [(clear z hz).1] at wanted; exact nomatch wanted
        · exact absurd ((clear z hz).2 x claimed) (Nat.not_lt.mpr high)
      have runs : ∀ v, victim = some v → (s.call v).running = true := fun v hv => by
        rcases choice with ⟨none_, -⟩ | ⟨w, hw, -, running, -⟩
        · rw [none_] at hv; exact nomatch hv
        · rw [hw] at hv; cases hv; exact running
      have start : dispatchCall c waiting s = (startCall c D p (whenSome victim preempt s), waiting) := by
        rcases choice with ⟨rfl, free, lowest⟩ | ⟨v, rfl, full, running, player, low, first⟩
        · rw [open_, freePlayer_some free lowest]; rfl
        · rw [open_, freePlayer_none full, playerVictim_some running (hr ▸ low) (hr ▸ first)]
          simp only [player]
          rfl
      have serving : s.service = .service := by
        by_contra off
        refine some_ (zoneSet_eq_zero.mpr fun z => ?_)
        rw [← Bool.not_eq_true, hD, deliverable_iff]
        exact fun h => off h.2.2.1
      obtain ⟨counter, still, call, claim, sent, faults, out⟩ :=
        startCall_spec (p := p) serving sound hr pending runs (fun z hz => (clear z hz).2) rfl
      refine ⟨_, start, counter, ?_, ?_, ?_, ?_, ?_, ?_, ?_, ?_, fun z hz => ⟨(claim z hz).1, ?_⟩, out, fun z hz => (claim z hz).2, sent, faults, still⟩
      all_goals rw [call]
      rw [Fin.getElem_fin, Vector.getElem_ofFn, hz]
      cases s.awake z <;> rfl
  · have running := running_iff.mpr active
    have not_pending : (s.call c).state ≠ .pending := fun h => by rcases active with a | a | a <;> rw [h] at a <;> exact nomatch a
    refine ⟨fun z => ⟨preempt_zone running z, preempt_worksOut running⟩, preempt_still s c, fun on stored retain few => ?_, fun n origin last => ?_⟩
    · have back : (s.call c).requeues = true := by
        unfold Call.requeues
        rw [stored, retain, decide_eq_true few]
        rcases active with a | a | a
        · rw [a]; rfl
        · rw [a]; rfl
        · exact absurd a on
      refine ⟨?_, ?_⟩
      · rw [preempt_call, if_pos rfl, Call.preempted, if_pos back]
        rfl
      · have run : preempt c s = forEach (zonesOf (s.call c).delivered) afterRelease (modCall c (Call.requeued s.now) s) := if_pos back
        obtain ⟨_, _, _, eq, -⟩ := releases_eq (zonesOf (s.call c).delivered) (modCall c (Call.requeued s.now) s)
        rw [run, eq]
        rfl
    · have stays : (s.call c).requeues = false := by
        rw [← Bool.not_eq_true]
        unfold Call.requeues
        simp only [Bool.and_eq_true, Bool.or_eq_true, beq_iff_eq, decide_eq_true_eq]
        rintro ⟨⟨⟨on, stored⟩, retain⟩, few⟩
        rcases last with tail | live | once | many
        · rw [tail] at on; exact on.elim (fun h => nomatch h) fun h => nomatch h
        · rw [stored] at live; exact nomatch live
        · rw [retain] at once; exact nomatch once
        · omega
      refine ⟨?_, ?_⟩
      · rw [preempt_call, if_pos rfl, Call.preempted, if_neg (by rw [stays]; decide)]
      · have run : preempt c s = if (s.call c).state = .tail then completeCall c .computed s else completeCall c .preempted s :=
          if_neg (by rw [stays]; decide)
        rw [run]
        by_cases tail : (s.call c).state = .tail
        · rw [if_pos tail, if_pos tail, completeCall_events origin, finalOutcome_computed not_pending, running_reports running,
            reportMissed_eq not_pending]
        · rw [if_neg tail, if_neg tail, completeCall_events origin, running_reports running, reportMissed_eq not_pending]
          rfl

end Sys2Proof.Machine
end

section
/-! TELEMETRY (R35, R36, R38, R41, R98): what a report makes of its endpoint, of its zone and of the directives it waits for. -/

namespace Sys2Proof.Machine

/-! ### Runs of commanded power -/

/-- From `s` to `t` endpoint records and directives change by commanded power worked out anew, and by nothing else. -/
inductive PowerRun : State → State → Prop
  | refl (s : State) : PowerRun s s
  | quiet {s t u : State} (run : PowerRun s t) (endpoints : u.endpoints = t.endpoints) (directives : u.directives = t.directives)
      (service : u.service = t.service) (now : u.now = t.now) : PowerRun s u
  | recommand {s t : State} (run : PowerRun s t) (e : EndpointId) : PowerRun s (recommand e t)

namespace PowerRun
variable {s t u : State}

theorem of_same (endpoints : t.endpoints = s.endpoints) (directives : t.directives = s.directives) (service : t.service = s.service)
    (now : t.now = s.now) : PowerRun s t := .quiet (.refl s) endpoints directives service now

theorem trans (h : PowerRun s t) (g : PowerRun t u) : PowerRun s u := by
  induction g with
  | refl => exact h
  | quiet _ endpoints directives service now ih => exact .quiet ih endpoints directives service now
  | recommand _ e ih => exact .recommand ih e

theorem forEach {α : Type} {f : α → State → State} (h : ∀ a s, PowerRun s (f a s)) (l : List α) (s : State) : PowerRun s (forEach l f s) :=
  forEach_invariant (P := PowerRun s) s (fun a _ g => g.trans (h a _)) l (.refl s)

theorem whenSome {α : Type} {f : α → State → State} (h : ∀ a s, PowerRun s (f a s)) (o : Option α) (s : State) :
    PowerRun s (whenSome o f s) := by
  cases o with
  | none => exact .refl s
  | some a => exact h a s

theorem ite {p : Prop} [Decidable p] (h : PowerRun s t) (g : PowerRun s u) : PowerRun s (if p then t else u) := by
  split
  · exact h
  · exact g

theorem sends (run : PowerRun s t) : Sends s t := by
  induction run with
  | refl => exact .refl s
  | quiet _ endpoints directives service now ih => exact ih.trans (.of_same now service endpoints directives)
  | recommand _ e ih => exact ih.trans (recommand_step _ e)

end PowerRun

section
variable (s : State)

theorem recommandZone_powerRun (z : ZoneId) : PowerRun s (recommandZone z s) :=
  (PowerRun.whenSome (fun e u => .recommand (.refl u) e) _ s).trans (.whenSome (fun e u => .recommand (.refl u) e) _ _)

theorem modZone_powerRun (z : ZoneId) (f : Zone → Zone) : PowerRun s (modZone z f s) := .of_same rfl rfl rfl rfl
theorem modCall_powerRun (c : CallId) (f : Call → Call) : PowerRun s (modCall c f s) := .of_same rfl rfl rfl rfl
theorem modLoop_powerRun (l : ParamId) (f : LoopRecord → LoopRecord) : PowerRun s (modLoop l f s) := .of_same rfl rfl rfl rfl
theorem setFault_powerRun (f : FaultRef) (r : FaultRecord) : PowerRun s (setFault f r s) := .of_same rfl rfl rfl rfl

theorem faultEvent_powerRun (f : FaultRef) (flags : Byte) (st : FaultState) (a : PolicyAction) (n : Nat) :
    PowerRun s (faultEvent f flags st a n s) := by
  unfold faultEvent
  rw [pushEvent_eq]
  exact .of_same rfl rfl rfl rfl

theorem endCandidate_powerRun (z : ZoneId) : PowerRun s (endCandidate z s) := .whenSome (fun l u => modLoop_powerRun u l _) _ s

theorem afterRelease_powerRun (z : ZoneId) : PowerRun s (afterRelease z s) := by
  rw [afterRelease_def]
  exact (modZone_powerRun s z _).trans (recommandZone_powerRun _ z)

theorem completeCall_powerRun (c : CallId) (why : Ending) : PowerRun s (completeCall c why s) := by
  have reported : ∀ u : State, PowerRun u (reportCompletion (s.call c) c ((s.call c).finalOutcome why) (s.call c).reportDelivered
      (s.call c).reportMissed u) := fun u => by
    obtain ⟨_, _, eq⟩ := reportCompletion_eq u (s.call c) c ((s.call c).finalOutcome why) (s.call c).reportDelivered (s.call c).reportMissed
    rw [eq]
    exact .of_same rfl rfl rfl rfl
  exact (modCall_powerRun s c _).trans ((PowerRun.forEach (fun z u => afterRelease_powerRun u z) _ _).trans (reported _))

theorem dropZone_powerRun (z : ZoneId) : PowerRun s (dropZone z s) := by
  cases h : s.claimant z with
  | none => rw [dropZone_none h]; exact .refl s
  | some c =>
    have lost : PowerRun s (loseAndRelease z c s) := (modCall_powerRun s c _).trans (afterRelease_powerRun _ z)
    rw [dropZone_some h]
    exact .ite (lost.trans (completeCall_powerRun _ c _)) lost

theorem checkDrop_powerRun (z : ZoneId) : PowerRun s (checkDrop z s) := by
  rcases checkDrop_cases z s with eq | eq
  · rw [eq]; exact .refl s
  · rw [eq]; exact dropZone_powerRun s z

theorem rewake_powerRun (z : ZoneId) : PowerRun s (rewake z s) := by
  obtain ⟨_, eq⟩ := rewake_eq z s
  rw [eq]
  exact .of_same rfl rfl rfl rfl

theorem deriveProtection_powerRun (z : ZoneId) : PowerRun s (deriveProtection z s) :=
  .ite (.refl s) <| (modZone_powerRun s z _).trans <| .ite ((endCandidate_powerRun _ z).trans (dropZone_powerRun _ z)) (.refl _)

theorem swapZone_powerRun (z : ZoneId) : PowerRun s (swapZone z s) :=
  (modZone_powerRun s z _).trans <| (endCandidate_powerRun _ z).trans <| (recommandZone_powerRun _ z).trans <|
    (checkDrop_powerRun _ z).trans <| (rewake_powerRun _ z).trans (deriveProtection_powerRun _ z)

theorem observe_powerRun (f : FaultRef) (b : Bool) : PowerRun s (observe f b s) :=
  observe_induction (P := PowerRun s) (.refl s) (fun r => setFault_powerRun s f r)
    (fun v flags st a n h => h.trans (faultEvent_powerRun v f flags st a n)) (fun v _ _ _ y _ h => h.trans (swapZone_powerRun v y))
    (fun v y _ h => h.trans (deriveProtection_powerRun v y)) b

end

/-! ### The directives of one endpoint -/

/-- The waiting directives of an endpoint. -/
def State.mail (s : State) (e : EndpointId) : List Directive := s.directives.filter fun d => decide (d.endpoint = e)

section
variable {s t u : State} {e x : EndpointId} {pre post : List Directive}

theorem joinDirective_mail (d : Directive) (e : EndpointId) (l : List Directive) :
    (joinDirective d l).filter (fun x => decide (x.endpoint = e)) =
      if d.endpoint = e then joinDirective d (l.filter fun x => decide (x.endpoint = e)) else l.filter fun x => decide (x.endpoint = e) := by
  induction l with
  | nil =>
    by_cases own : d.endpoint = e
    · rw [if_pos own]; simp [joinDirective, own]
    · rw [if_neg own]; simp [joinDirective, own]
  | cons y l ih =>
    by_cases same : y.endpoint = d.endpoint ∧ y.code = d.code
    · rw [show joinDirective d (y :: l) = d :: l from if_pos same]
      by_cases own : d.endpoint = e
      · have mine : y.endpoint = e := same.1.trans own
        rw [if_pos own, List.filter_cons_of_pos (by simp [own]), List.filter_cons_of_pos (by simp [mine])]
        exact (if_pos same).symm
      · have mine : y.endpoint ≠ e := fun h => own (same.1.symm.trans h)
        rw [if_neg own, List.filter_cons_of_neg (by simp [own]), List.filter_cons_of_neg (by simp [mine])]
    · rw [show joinDirective d (y :: l) = y :: joinDirective d l from if_neg same]
      by_cases mine : y.endpoint = e
      · rw [List.filter_cons_of_pos (by simp [mine]), List.filter_cons_of_pos (by simp [mine]), ih]
        split
        · exact (if_neg same).symm
        · rfl
      · rw [List.filter_cons_of_neg (by simp [mine]), List.filter_cons_of_neg (by simp [mine]), ih]

theorem mem_mail {d : Directive} (h : d ∈ s.mail e) : d ∈ s.directives := (List.mem_filter.mp h).1

theorem mail_endpoint {d : Directive} (h : d ∈ s.mail e) : d.endpoint = e := of_decide_eq_true (List.mem_filter.mp h).2

/-- A POWER directive that waits gives way, in its place, to the one with the new commanded state; all else of the endpoint's mail stays. -/
theorem PowerRun.mail (run : PowerRun s t) (serving : s.service = .service) (present : (s.endpoint e).presence = .present)
    (other : ∀ d ∈ pre, d.code ≠ .power) (h : s.mail e = pre ++ s.powerDirective e :: post) :
    t.mail e = pre ++ t.powerDirective e :: post := by
  induction run with
  | refl => exact h
  | quiet _ endpoints directives _ _ ih =>
    have before := ih
    unfold State.mail State.powerDirective State.endpoint at before ⊢
    rw [endpoints, directives]
    exact before
  | @recommand b run x ih =>
    have before := ih
    have sends := run.sends
    by_cases same : (b.endpoint x).inUse = false ∨ b.commandedPower x = (b.endpoint x).commanded
    · rw [recommand_same same]; exact before
    rw [not_or, Bool.not_eq_false] at same
    by_cases quiet : b.service = .configuration ∨ (b.endpoint x).presence ≠ .present
    · rw [recommand_quiet same.1 same.2 quiet]
      have away : e ≠ x := by
        rintro rfl
        rcases quiet with config | absent
        · rw [sends.service, serving] at config; exact nomatch config
        · exact absent ((sends.presence e).trans present)
      unfold State.mail State.powerDirective State.endpoint at before ⊢
      rw [vector_set_get, if_neg away]
      exact before
    · rw [not_or, not_not] at quiet
      have sent := recommand_sends same.1 same.2 (sends.service.trans serving) quiet.2
      generalize Machine.recommand x b = c at sent ⊢
      have record : c.endpoint e = if e = x then { b.endpoint x with commanded := b.commandedPower x, lastPower := some b.now } else b.endpoint e := by
        rw [sent]; exact vector_set_get _ _ _ _
      have directives : c.directives = joinDirective
        { endpoint := x, code := .power, dest := (b.endpoint x).node, value := powerCode (b.commandedPower x) } b.directives := by rw [sent]
      have mail : c.mail e = if x = e then joinDirective
          { endpoint := x, code := .power, dest := (b.endpoint x).node, value := powerCode (b.commandedPower x) } (b.mail e) else b.mail e := by
        unfold State.mail
        rw [directives, joinDirective_mail]
      by_cases own : x = e
      · subst own
        rw [if_pos rfl] at mail record
        rw [mail, before]
        have key : (b.powerDirective x).key = ({ endpoint := x, code := .power, dest := (b.endpoint x).node,
                                                 value := powerCode (b.commandedPower x) } : Directive).key := rfl
        rw [joinDirective_replaces key]
        · unfold State.powerDirective
          rw [record]
        · intro d hd key
          exact other d hd (congrArg Prod.snd key)
      · rw [if_neg own] at mail
        rw [if_neg (Ne.symm own)] at record
        rw [mail, before]
        unfold State.powerDirective
        rw [record]

theorem recommand_endpoint_other (ne : e ≠ x) : (recommand x s).endpoint e = s.endpoint e := by
  by_cases same : (s.endpoint x).inUse = false ∨ s.commandedPower x = (s.endpoint x).commanded
  · rw [recommand_same same]
  rw [not_or, Bool.not_eq_false] at same
  by_cases quiet : s.service = .configuration ∨ (s.endpoint x).presence ≠ .present
  · rw [recommand_quiet same.1 same.2 quiet]
    exact (vector_set_get _ _ _ _).trans (if_neg ne)
  · rw [not_or, not_not] at quiet
    have serving : s.service = .service := by
      cases h : s.service with
      | configuration => exact absurd h quiet.1
      | service => rfl
    rw [recommand_sends same.1 same.2 serving quiet.2]
    exact (vector_set_get _ _ _ _).trans (if_neg ne)

/-- A commanded state that was sent or has stayed. -/
theorem PowerRun.power (run : PowerRun s t) (serving : s.service = .service) (present : (s.endpoint e).presence = .present) :
    (t.endpoint e).commanded = (s.endpoint e).commanded ∧ (t.endpoint e).lastPower = (s.endpoint e).lastPower ∨
    (t.endpoint e).lastPower = some s.now ∧ t.powerDirective e ∈ t.directives := by
  induction run with
  | refl => exact .inl ⟨rfl, rfl⟩
  | quiet _ endpoints directives _ _ ih =>
    have before := ih
    unfold State.powerDirective State.endpoint at *
    rw [endpoints, directives]
    exact before
  | @recommand b run x ih =>
    have sends := run.sends
    have step := recommand_step b x
    have serving' := sends.service.trans serving
    have present' := (sends.presence e).trans present
    by_cases same : (b.endpoint x).inUse = false ∨ b.commandedPower x = (b.endpoint x).commanded
    · rw [recommand_same same]; exact ih
    rw [not_or, Bool.not_eq_false] at same
    by_cases own : x = e
    · subst own
      obtain ⟨last, waits⟩ := step.sent serving' x (by rw [recommand_commanded same.1]; exact same.2) present'
      refine .inr ⟨last.trans (congrArg some sends.now), ?_⟩
      unfold State.powerDirective
      rw [step.node x]
      exact waits
    · have kept := recommand_endpoint_other (s := b) (Ne.symm own)
      rcases ih with ⟨commanded, last⟩ | ⟨last, here⟩
      · exact .inl ⟨by rw [kept]; exact commanded, by rw [kept]; exact last⟩
      · exact .inr ⟨by rw [kept]; exact last, (step.kept serving' e present' (by rw [kept])).2 here⟩

end

end Sys2Proof.Machine
end

section
/-! One TELEMETRY record (R35, R36, R38, R41, R98). -/

namespace Sys2Proof.Machine

section
variable {s t u : State} {z y : ZoneId} {c : CallId} {e x : EndpointId} {p : Power} {bytes : List Byte}

/-! ### Directives to a PRESENT endpoint (R38, R41, R42) -/

theorem issuePower_issues (serving : s.service = .service) (present : (s.endpoint e).presence = .present) : issuePower e s = { s with
    endpoints := s.endpoints.set e { s.endpoint e with lastPower := some s.now }
    directives := joinDirective (s.powerDirective e) s.directives } := if_pos ⟨serving, present⟩

theorem issuePower_endpoint (serving : s.service = .service) (present : (s.endpoint e).presence = .present) (x : EndpointId) :
    (issuePower e s).endpoint x = if x = e then { s.endpoint e with lastPower := some s.now } else s.endpoint x := by
  rw [issuePower_issues serving present]
  exact vector_set_get _ _ _ _

theorem issuePower_mail (serving : s.service = .service) (present : (s.endpoint e).presence = .present) :
    (issuePower e s).mail e = joinDirective (s.powerDirective e) (s.mail e) := by
  unfold State.mail
  rw [issuePower_issues serving present]
  exact (joinDirective_mail _ e _).trans (if_pos rfl)

theorem issuePower_powerDirective (serving : s.service = .service) (present : (s.endpoint e).presence = .present) :
    (issuePower e s).powerDirective e = s.powerDirective e := by
  unfold State.powerDirective
  rw [issuePower_endpoint serving present, if_pos rfl]

theorem issue_mail (serving : s.service = .service) (present : (s.endpoint e).presence = .present) (code : DirectiveCode) (value : Byte) :
    (issue e code value s).mail e = joinDirective { endpoint := e, code := code, dest := (s.endpoint e).node, value := value } (s.mail e) := by
  rw [issue_eq serving present]
  exact (joinDirective_mail _ e _).trans (if_pos rfl)

theorem issue_directives (e : EndpointId) (code : DirectiveCode) (value : Byte) (s : State) :
    ∃ ds, issue e code value s = { s with directives := ds } := by
  rcases issue_cases e code value s with ⟨_, _, eq⟩ | ⟨_, eq⟩
  · rw [eq]; exact ⟨_, rfl⟩
  · rw [eq]; exact ⟨_, rfl⟩

theorem whenSome_directives {α : Type} {f : α → State → State} (h : ∀ a s, ∃ ds, f a s = { s with directives := ds }) (o : Option α) (s : State) :
    ∃ ds, whenSome o f s = { s with directives := ds } := by
  cases o with
  | none => exact ⟨s.directives, rfl⟩
  | some a => exact h a s

/-- What the directives of R38 touch beside the queue. -/
theorem welcome_eq (serving : s.service = .service) (present : (s.endpoint e).presence = .present) : ∃ ds, welcome e s = { s with
    endpoints := s.endpoints.set e { s.endpoint e with lastPower := some s.now }, directives := ds } := by
  have powered : ∀ v : State, (∃ ds, v = { s with directives := ds }) → ∃ ds, issuePower e v = { s with
      endpoints := s.endpoints.set e { s.endpoint e with lastPower := some s.now }, directives := ds } := by
    rintro _ ⟨ds, rfl⟩
    exact ⟨_, issuePower_issues (s := { s with directives := ds }) serving present⟩
  have followed : ∀ {v w : State}, (∃ ds, w = { v with directives := ds }) → (∃ ds, v = { s with
      endpoints := s.endpoints.set e { s.endpoint e with lastPower := some s.now }, directives := ds }) → ∃ ds, w = { s with
      endpoints := s.endpoints.set e { s.endpoint e with lastPower := some s.now }, directives := ds } := by
    rintro _ _ ⟨ds, rfl⟩ ⟨_, rfl⟩
    exact ⟨ds, rfl⟩
  unfold welcome
  split
  · simp only
    split
    · exact followed (issue_directives e .light _ _) (powered s ⟨s.directives, rfl⟩)
    · exact powered s ⟨s.directives, rfl⟩
  · simp only
    have first := powered _ (issue_directives e .listen (optIndexByte (s.listenSlot (s.endpoint e).place)) s)
    split
    · exact followed (whenSome_directives (fun ch v => issue_directives e .channel (BitVec.ofNat 8 ch) v) _ _) first
    · exact first

theorem welcome_still (e : EndpointId) (s : State) : (welcome e s).still = s.still := by
  unfold welcome
  split
  · simp only
    split
    · rw [issue_still, issuePower_still]
    · rw [issuePower_still]
  · simp only
    split
    · rw [whenSome_keeps _ State.still (fun ch u => issue_still u e .channel _), issuePower_still, issue_still]
    · rw [issuePower_still, issue_still]

/-- The directive of an endpoint with a code and a value. -/
def State.order (s : State) (e : EndpointId) (code : DirectiveCode) (value : Byte) : Directive :=
  { endpoint := e, code := code, dest := (s.endpoint e).node, value := value }

/-- The mail of an endpoint, which had none, after the directives of R38. -/
theorem welcome_mail (serving : s.service = .service) (present : (s.endpoint e).presence = .present) (none_ : s.mail e = []) :
    ((s.endpoint e).role ≠ .usherLight → ∃ post, (welcome e s).mail e =
      s.order e .listen (optIndexByte (s.listenSlot (s.endpoint e).place)) :: s.powerDirective e :: post ∧
      ∀ d, (s.endpoint e).role = .descTx → s.descOf (s.endpoint e).place = some d →
        s.order e .channel (BitVec.ofNat 8 s.descs[d].channel) ∈ post) ∧
    ∀ g : GateId, (s.endpoint e).role = .usherLight → g.val = (s.endpoint e).place.val → (welcome e s).mail e =
      [s.powerDirective e, s.order e .light (if (s.gate g).state = .open_ then 1 else 0)] := by
  refine ⟨fun role => ?_, fun g role place => ?_⟩
  · have listen : ∃ v, v = issue e .listen (optIndexByte (s.listenSlot (s.endpoint e).place)) s := ⟨_, rfl⟩
    obtain ⟨v, hv⟩ := listen
    obtain ⟨ds, eq⟩ := issue_directives e .listen (optIndexByte (s.listenSlot (s.endpoint e).place)) s
    rw [← hv] at eq
    have serving_v : v.service = .service := by rw [eq]; exact serving
    have present_v : (v.endpoint e).presence = .present := by rw [eq]; exact present
    have power_v : v.powerDirective e = s.powerDirective e := by rw [eq]; rfl
    have mail_v : v.mail e = [s.order e .listen (optIndexByte (s.listenSlot (s.endpoint e).place))] := by
      rw [hv, issue_mail serving present, none_]
      rfl
    have mail_w : (issuePower e v).mail e =
        [s.order e .listen (optIndexByte (s.listenSlot (s.endpoint e).place)), s.powerDirective e] := by
      rw [issuePower_mail serving_v present_v, mail_v, power_v]
      exact joinDirective_new _ _ fun x hx same => by
        rw [List.mem_singleton.mp hx] at same
        exact nomatch same.2
    by_cases desc : (s.endpoint e).role = .descTx
    · have run : welcome e s = whenSome (s.channelOf (s.endpoint e).place) (fun ch => issue e .channel (BitVec.ofNat 8 ch)) (issuePower e v) := by
        have zone : (issuePower e v).channelOf = s.channelOf := by
          obtain ⟨_, _, powered⟩ := issuePower_eq e v
          rw [powered, eq]; rfl
        have record : ((issuePower e v).endpoint e).role = (s.endpoint e).role ∧
            ((issuePower e v).endpoint e).place = (s.endpoint e).place := by
          rw [issuePower_endpoint serving_v present_v, if_pos rfl, eq]
          exact ⟨rfl, rfl⟩
        unfold welcome
        rw [if_neg role, ← hv]
        simp only [record, zone]
        exact if_pos desc
      cases bound : s.descOf (s.endpoint e).place with
      | none =>
        have no_channel : s.channelOf (s.endpoint e).place = none := by unfold State.channelOf; rw [bound]; rfl
        rw [run, no_channel]
        exact ⟨[], mail_w, fun d _ h => nomatch h⟩
      | some d =>
        have channel : s.channelOf (s.endpoint e).place = some s.descs[d].channel := by unfold State.channelOf; rw [bound]; rfl
        refine ⟨[s.order e .channel (BitVec.ofNat 8 s.descs[d].channel)], ?_, fun d' _ h => ?_⟩
        · have present_w : ((issuePower e v).endpoint e).presence = .present := by
            rw [issuePower_endpoint serving_v present_v, if_pos rfl]; exact present_v
          have node_w : ((issuePower e v).endpoint e).node = (s.endpoint e).node := by
            rw [issuePower_endpoint serving_v present_v, if_pos rfl, eq]; rfl
          have serving_w : (issuePower e v).service = .service := by rw [issuePower_issues serving_v present_v]; exact serving_v
          rw [run, channel]
          show (issue e .channel (BitVec.ofNat 8 s.descs[d].channel) (issuePower e v)).mail e = _
          rw [issue_mail serving_w present_w, mail_w, node_w]
          refine joinDirective_new _ _ fun x hx same => ?_
          rcases List.mem_cons.mp hx with rfl | hx
          · exact nomatch same.2
          · rw [List.mem_singleton.mp hx] at same
            exact nomatch same.2
        · cases h
          exact List.mem_singleton.mpr rfl
    · have run : welcome e s = issuePower e v := by
        have record : ((issuePower e v).endpoint e).role = (s.endpoint e).role := by
          rw [issuePower_endpoint serving_v present_v, if_pos rfl, eq]
          rfl
        unfold welcome
        rw [if_neg role, ← hv]
        simp only [record]
        exact if_neg desc
      rw [run]
      exact ⟨[], mail_w, fun d h => absurd h desc⟩
  · have run : welcome e s = issue e .light (flagByte ((s.gate g).state == .open_)) (issuePower e s) := by
      have record : ((issuePower e s).endpoint e).place = (s.endpoint e).place := by
        rw [issuePower_endpoint serving present, if_pos rfl]
      have gate : (issuePower e s).gate = s.gate := by rw [issuePower_issues serving present]; rfl
      have index : indexOf 2 (s.endpoint e).place.val = some g := by rw [← place, indexOf_val]
      unfold welcome
      rw [if_pos role]
      simp only [record, gate, index]
    have light : flagByte ((s.gate g).state == .open_) = if (s.gate g).state = .open_ then 1 else 0 := by
      cases (s.gate g).state <;> rfl
    have present_w : ((issuePower e s).endpoint e).presence = .present := by
      rw [issuePower_endpoint serving present, if_pos rfl]; exact present
    have node_w : ((issuePower e s).endpoint e).node = (s.endpoint e).node := by
      rw [issuePower_endpoint serving present, if_pos rfl]
    have serving_w : (issuePower e s).service = .service := by rw [issuePower_issues serving present]; exact serving
    rw [run, issue_mail serving_w present_w, issuePower_mail serving present, none_, node_w, light]
    exact joinDirective_new _ _ fun x hx same => by
      rw [List.mem_singleton.mp hx] at same
      exact nomatch same.2

/-! ### The zone of a report (R40, R98) -/

/-- Endpoint records that keep what decides commanded power, and the commanded state. -/
theorem State.PowerWorkedOut.of_endpoints (worked : s.PowerWorkedOut z) (zones : t.zones = s.zones) (calls : t.calls = s.calls)
    (service : t.service = s.service) (now : t.now = s.now)
    (endpoint : ∀ x, (t.endpoint x).inUse = (s.endpoint x).inUse ∧ (t.endpoint x).role = (s.endpoint x).role ∧
      (t.endpoint x).place = (s.endpoint x).place ∧ (t.endpoint x).commanded = (s.endpoint x).commanded) : t.PowerWorkedOut z := by
  intro x named used place
  obtain ⟨inUse, role, place_eq, commanded⟩ := endpoint x
  have zone : t.zone z = s.zone z := by simp only [State.zone, zones]
  rw [zone] at named
  rw [commanded, worked x named (inUse ▸ used) (place_eq ▸ place)]
  exact (commandedPower_congr role place_eq service now zones calls).symm

theorem Drops.of_endpoints (zones : t.zones = s.zones) (calls : t.calls = s.calls) (service : t.service = s.service) (now : t.now = s.now)
    (endpoint : ∀ x, (t.endpoint x).inUse = (s.endpoint x).inUse ∧ (t.endpoint x).role = (s.endpoint x).role ∧
      (t.endpoint x).place = (s.endpoint x).place ∧ (t.endpoint x).commanded = (s.endpoint x).commanded) : Drops z s t := by
  have zone : t.zone z = s.zone z := by simp only [State.zone, zones]
  exact .of_claims now (by rw [zone]) (by rw [zone]) (fun y c => by simp only [State.call, calls])
    fun worked => worked.of_endpoints zones calls service now endpoint

theorem issuePower_drops (z : ZoneId) (e : EndpointId) (s : State) : Drops z s (issuePower e s) := by
  unfold issuePower
  split
  · refine .of_endpoints rfl rfl rfl rfl fun x => ?_
    rw [modEndpoint_endpoint]
    split
    · next same => subst same; exact ⟨rfl, rfl, rfl, rfl⟩
    · exact ⟨rfl, rfl, rfl, rfl⟩
  · exact .refl z s

theorem reissueTest_drops (z : ZoneId) (e : EndpointId) (s : State) : Drops z s (reissueTest e s) :=
  .ite (issuePower_drops z e s) (.refl z s)

theorem welcome_drops (serving : s.service = .service) (present : (s.endpoint e).presence = .present) (z : ZoneId) :
    Drops z s (welcome e s) := by
  obtain ⟨_, eq⟩ := welcome_eq serving present
  rw [eq]
  refine .of_endpoints rfl rfl rfl rfl fun x => ?_
  unfold State.endpoint
  rw [vector_set_get]
  split
  · next same => subst same; exact ⟨rfl, rfl, rfl, rfl⟩
  · exact ⟨rfl, rfl, rfl, rfl⟩

theorem observeIf_drops (z : ZoneId) (f : FaultRef) (o : Option Bool) (s : State) : Drops z s (observeIf f o s) :=
  .whenSome (fun b u => observe_drops u z f b) o s

/-- The loop processor's part of a report touches the loop records alone. -/
theorem loopReport_eq (e : EndpointId) (z : ZoneId) (s : State) : ∃ ls, (loopReport e z s).1 = { s with loops := ls } := by
  unfold loopReport
  simp only
  split
  · exact ⟨s.loops, rfl⟩
  · split
    · exact ⟨s.loops, rfl⟩
    · split
      · exact ⟨s.loops, rfl⟩
      · split
        · exact ⟨_, rfl⟩
        · split
          · exact ⟨_, rfl⟩
          · exact ⟨_, rfl⟩

/-- The observations of a report: the loop records, then observations of kinds 3 to 6 of the endpoint. -/
theorem reportObservations_eq (e : EndpointId) (s : State) : ∃ ls a b c d, reportObservations e s =
    observe (supplyLowRef e) a (observe (ampThermalRef e) b (observeIf (openLoopRef e) c (observeIf (overcurrentRef e) d
      { s with loops := ls }))) := by
  unfold reportObservations
  simp only
  split
  · next z _ _ =>
    obtain ⟨ls, eq⟩ := loopReport_eq e z s
    rw [eq]
    exact ⟨ls, _, _, _, _, rfl⟩
  all_goals exact ⟨s.loops, _, _, _, _, rfl⟩

/-- What every observation of the endpoint's faults of kinds 3 to 6 keeps or gives on, a report does. -/
theorem reportObservations_induction {P : State → Prop} (start : ∀ ls, P { s with loops := ls })
    (look : ∀ (k : Fin 6) b v, 2 ≤ k.val → P v → P (observe (.endpoint e k) b v)) : P (reportObservations e s) := by
  have lookIf : ∀ (k : Fin 6) o v, 2 ≤ k.val → P v → P (observeIf (.endpoint e k) o v) := fun k o v le h => by
    cases o with
    | none => exact h
    | some b => exact look k b v le h
  obtain ⟨ls, a, b, c, d, eq⟩ := reportObservations_eq e s
  rw [eq]
  exact look 5 a _ (by decide) (look 4 b _ (by decide) (lookIf 3 c _ (by decide) (lookIf 2 d _ (by decide) (start ls))))

theorem reportObservations_drops (z : ZoneId) (e : EndpointId) (s : State) : Drops z s (reportObservations e s) :=
  reportObservations_induction (fun _ => .of_same rfl rfl rfl rfl rfl) fun _ b v _ h => h.trans (observe_drops v z _ b)

theorem reportObservations_powerRun (e : EndpointId) (s : State) : PowerRun s (reportObservations e s) :=
  reportObservations_induction (fun _ => .of_same rfl rfl rfl rfl) fun _ b v _ h => h.trans (observe_powerRun v _ b)

theorem reportObservations_lost (e : EndpointId) (s : State) :
    (reportObservations e s).fault (endpointLostRef e) = s.fault (endpointLostRef e) := by
  refine reportObservations_induction (P := fun v => v.fault (endpointLostRef e) = s.fault (endpointLostRef e)) (fun _ => rfl)
    fun k b v le h => ?_
  rw [observe_fault, if_neg, h]
  intro same
  injection same with _ zero
  rw [← zero] at le
  exact absurd le (by decide)

/-- A fault of an endpoint of an unclaimed zone changes no call. -/
theorem observe_calls_unclaimed {k : Fin 6} (concerned : s.zoneOfEndpoint e = some z) (free : s.claimant z = none) (b : Bool) :
    (observe (.endpoint e k) b s).calls = s.calls := by
  have unclaimed : ∀ v : State, v.calls = s.calls → v.claimant z = none := fun v h =>
    (claimant_congr fun c => by simp only [State.call, h]).trans free
  have derive : ∀ v : State, v.calls = s.calls → (deriveProtection z v).calls = s.calls := fun v h => by
    unfold deriveProtection
    simp only
    split
    · exact h
    · split
      · obtain ⟨ls, eq, -⟩ := endCandidate_eq z (modZone z (fun r => { r with protection := v.protectionOf z }) v)
        have calls : (endCandidate z (modZone z (fun r => { r with protection := v.protectionOf z }) v)).calls = s.calls := by rw [eq]; exact h
        rw [dropZone_none (unclaimed _ calls)]
        exact calls
      · exact h
  have goal := observe_induction (P := fun v => v.still = s.still ∧ v.calls = s.calls) (f := .endpoint e k) ⟨rfl, rfl⟩ (fun _ => ⟨rfl, rfl⟩)
    (fun v flags st a n h => ⟨(faultEvent_still _ _ _ _ _ _).trans h.1, ?_⟩) (fun v p st r y target h => ⟨(swapZone_still _ _).trans h.1, ?_⟩)
    (fun v y hy h => ⟨(deriveProtection_still _ _).trans h.1, ?_⟩) b
  · exact goal.2
  · unfold faultEvent
    rw [pushEvent_eq]
    exact h.2
  · have same : y = z := by
      unfold State.swapTarget at target
      have zone : (setFault (.endpoint e k) r s).zoneConcerned (.endpoint e k) = some z := concerned
      rw [zone] at target
      simp only at target
      split at target
      · exact (Option.some.inj target).symm
      · exact nomatch target
    subst same
    have start : (swapStart y v).calls = s.calls := by
      obtain ⟨_, _, _, eq, -⟩ := swapStart_eq y v
      rw [eq]; exact h.2
    have check : checkDrop y (swapStart y v) = swapStart y v :=
      checkDrop_keeps fun c claimed => by rw [unclaimed _ start] at claimed; exact nomatch claimed
    have wait : rewake y (swapStart y v) = swapStart y v := by unfold rewake; rw [unclaimed _ start]
    show (deriveProtection y (rewake y (checkDrop y (swapStart y v)))).calls = s.calls
    rw [check, wait]
    exact derive _ start
  · have same : y = z := Option.some.inj (hy.symm.trans ((zoneOfEndpoint_of_still h.1 e).trans concerned))
    subst same
    exact derive v h.2

theorem reportObservations_calls (concerned : s.zoneOfEndpoint e = some z) (free : s.claimant z = none) :
    (reportObservations e s).calls = s.calls := by
  refine (reportObservations_induction (s := s) (e := e) (P := fun v => v.zoneOfEndpoint e = some z ∧ v.calls = s.calls)
    (fun ls => ⟨concerned, rfl⟩) fun k b v _ h => ⟨(zoneOfEndpoint_of_still (observe_still v _ b) e).trans h.1, ?_⟩).2
  exact (observe_calls_unclaimed h.1 ((claimant_congr fun c => by simp only [State.call, h.2]).trans free) b).trans h.2

/-! ### One report -/

/-- The drop that a report makes (R98). -/
def reportDrop (e : EndpointId) (s : State) : State :=
  match s.zoneOfEndpoint e with
  | some z => if (s.zone z).active = some e then checkDrop z s else s
  | none => s

/-- A report after its drop: what an endpoint that becomes PRESENT is sent, the observations, the re-issue. -/
def reportRest (was : Presence) (e : EndpointId) (s : State) : State :=
  if (s.endpoint e).presence = .present then
    reissueTest e (reportObservations e (if was = .present then s else becomePresent e s))
  else s

theorem telemetryFor_eq (e : EndpointId) (p : Power) (bytes : List Byte) (s : State) : telemetryFor e p bytes s =
    reportRest (s.endpoint e).presence e (reportDrop e (modEndpoint e (fun r => r.afterTelemetry s.config.debounce s.now p bytes) s)) := rfl

theorem reportDrop_cases (e : EndpointId) (s : State) : reportDrop e s = s ∨
    ∃ z, s.zoneOfEndpoint e = some z ∧ (s.zone z).active = some e ∧ reportDrop e s = checkDrop z s := by
  unfold reportDrop
  cases concerned : s.zoneOfEndpoint e with
  | none => exact .inl rfl
  | some z =>
    by_cases active : (s.zone z).active = some e
    · exact .inr ⟨z, rfl, active, if_pos active⟩
    · exact .inl (if_neg active)

theorem reportDrop_still (e : EndpointId) (s : State) : (reportDrop e s).still = s.still := by
  rcases reportDrop_cases e s with eq | ⟨z, -, -, eq⟩
  · rw [eq]
  · rw [eq, checkDrop_still]

theorem reportDrop_drops (z : ZoneId) (e : EndpointId) (s : State) : Drops z s (reportDrop e s) := by
  rcases reportDrop_cases e s with eq | ⟨y, -, -, eq⟩
  · rw [eq]; exact .refl z s
  · rw [eq]; exact checkDrop_drops_zone s z y

theorem reportDrop_powerRun (e : EndpointId) (s : State) : PowerRun s (reportDrop e s) := by
  rcases reportDrop_cases e s with eq | ⟨y, -, -, eq⟩
  · rw [eq]; exact .refl s
  · rw [eq]; exact checkDrop_powerRun s y

theorem reportDrop_fault (e : EndpointId) (s : State) : (reportDrop e s).fault = s.fault := by
  rcases reportDrop_cases e s with eq | ⟨y, -, -, eq⟩
  · rw [eq]
  · rw [eq]; funext f; simp only [State.fault, checkDrop_faults]

theorem becomePresent_still (e : EndpointId) (s : State) : (becomePresent e s).still = s.still :=
  (welcome_still e _).trans (observe_still s _ false)

theorem reportRest_still (was : Presence) (e : EndpointId) (s : State) : (reportRest was e s).still = s.still := by
  unfold reportRest
  split
  · rw [reissueTest_still, reportObservations_still]
    split
    · rfl
    · exact becomePresent_still e s
  · rfl

theorem becomePresent_drops (serving : s.service = .service) (present : (s.endpoint e).presence = .present) (z : ZoneId) :
    Drops z s (becomePresent e s) := by
  have look := observe_still s (endpointLostRef e) false
  refine (observe_drops s z _ _).trans (welcome_drops ?_ ?_ z)
  · exact (congrArg State.service look :).trans serving
  · exact (still_reports look e).1.trans present

theorem reportRest_drops (serving : s.service = .service) (was : Presence) (e : EndpointId) (z : ZoneId) : Drops z s (reportRest was e s) := by
  unfold reportRest
  split
  · next present =>
    refine .trans ?_ ((reportObservations_drops z e _).trans (reissueTest_drops z e _))
    exact .ite (.refl z s) (becomePresent_drops serving present z)
  · exact .refl z s

theorem becomePresent_calls (serving : s.service = .service) (present : (s.endpoint e).presence = .present) :
    (becomePresent e s).calls = s.calls := by
  obtain ⟨_, _, look⟩ := observe_absent_eq (endpointLostRef e) s
  obtain ⟨_, eq⟩ := welcome_eq (s := observe (endpointLostRef e) false s) (e := e) (by rw [look]; exact serving) (by rw [look]; exact present)
  unfold becomePresent
  rw [eq, look]

theorem reissueTest_cases (e : EndpointId) (s : State) : reissueTest e s = s ∨ reissueTest e s = issuePower e s :=
  (ite_eq_or_eq _ _ _).symm

theorem reissueTest_due (present : (s.endpoint e).presence = .present) (differs : (s.endpoint e).reported ≠ (s.endpoint e).commanded)
    (due : (s.endpoint e).lastPower = none ∨ ∃ q, (s.endpoint e).lastPower = some q ∧ 100 ≤ s.now - q) :
    reissueTest e s = issuePower e s := by
  refine if_pos ⟨present, differs, ?_⟩
  rcases due with none_ | ⟨q, last, long⟩
  · rw [none_]
  · rw [last]
    exact decide_eq_true long

theorem reissueTest_recent (recent : (s.endpoint e).lastPower = some s.now) : reissueTest e s = s := by
  refine if_neg fun h => ?_
  obtain ⟨-, -, due⟩ := h
  rw [recent] at due
  have long : Config.powerReissueTime ≤ s.now - s.now := of_decide_eq_true due
  rw [Nat.sub_self] at long
  exact absurd long (by decide)

theorem reissueTest_calls (e : EndpointId) (s : State) : (reissueTest e s).calls = s.calls := by
  rcases reissueTest_cases e s with eq | eq
  · rw [eq]
  · obtain ⟨_, _, issued⟩ := issuePower_eq e s
    rw [eq, issued]

theorem reportRest_calls (serving : s.service = .service) (was : Presence) (concerned : s.zoneOfEndpoint e = some z)
    (free : s.claimant z = none) : (reportRest was e s).calls = s.calls := by
  unfold reportRest
  split
  · next present =>
    have first : ∃ v, v = (if was = .present then s else becomePresent e s) := ⟨_, rfl⟩
    obtain ⟨v, hv⟩ := first
    have still : v.still = s.still := by
      rw [hv]; split
      · rfl
      · exact becomePresent_still e s
    have calls : v.calls = s.calls := by
      rw [hv]; split
      · rfl
      · exact becomePresent_calls serving present
    rw [← hv, reissueTest_calls, reportObservations_calls ((zoneOfEndpoint_of_still still e).trans concerned)
      ((claimant_congr fun c => by simp only [State.call, calls]).trans free), calls]
  · rfl

theorem reissueTest_fault (e : EndpointId) (s : State) : (reissueTest e s).fault = s.fault := by
  rcases reissueTest_cases e s with eq | eq
  · rw [eq]
  · obtain ⟨_, _, issued⟩ := issuePower_eq e s
    rw [eq, issued]
    rfl

/-- ENDPOINT_LOST is observed absent for exactly an endpoint that becomes PRESENT (R38). -/
theorem reportRest_lost (serving : s.service = .service) (was : Presence) (e : EndpointId) :
    (reportRest was e s).fault (endpointLostRef e) =
      if was ≠ .present ∧ (s.endpoint e).presence = .present then s.observed (endpointLostRef e) false else s.fault (endpointLostRef e) := by
  unfold reportRest
  by_cases present : (s.endpoint e).presence = .present
  · rw [if_pos present, reissueTest_fault, reportObservations_lost]
    by_cases old : was = .present
    · rw [if_pos old, if_neg fun h => h.1 old]
    · rw [if_neg old, if_pos ⟨old, present⟩]
      obtain ⟨_, _, look⟩ := observe_absent_eq (endpointLostRef e) s
      obtain ⟨_, eq⟩ := welcome_eq (s := observe (endpointLostRef e) false s) (e := e) (by rw [look]; exact serving) (by rw [look]; exact present)
      unfold becomePresent
      rw [eq]
      show (observe (endpointLostRef e) false s).fault (endpointLostRef e) = _
      rw [observe_fault, if_pos rfl]
  · rw [if_neg present, if_neg fun h => present h.2]

theorem reportDrop_keeps (h : ∀ z, s.zoneOfEndpoint e = some z → (s.zone z).active = some e → s.claimant z = none) : reportDrop e s = s := by
  rcases reportDrop_cases e s with eq | ⟨z, concerned, active, eq⟩
  · exact eq
  · rw [eq]
    exact checkDrop_keeps fun c claimed => by rw [h z concerned active] at claimed; exact nomatch claimed

theorem reportDrop_drops_claimed (concerned : s.zoneOfEndpoint e = some z) (active : (s.zone z).active = some e) (claimed : s.claimant z = some c)
    (must : s.mustDrop z c) : reportDrop e s = dropZone z s := by
  have run : reportDrop e s = checkDrop z s := by
    unfold reportDrop
    rw [concerned]
    exact if_pos active
  rw [run, checkDrop_drops claimed must]

/-- Why a report drops a zone: what its active endpoint shows. -/
theorem mustDrop_of_report (active : (s.zone z).active = some e) (bad : (s.endpoint e).presence ≠ .present ∨
    (s.endpoint e).reported = .suspended ∨ (s.endpoint e).reported = .off ∨
    (s.endpoint e).reported = .standby ∧ (s.call c).state = .playing) : s.mustDrop z c := by
  have asleep : (s.endpoint e).reported ≠ .active → s.awake z = false := fun down => by
    rw [← Bool.not_eq_true, awake_iff]
    rintro ⟨x, hx, -, up⟩
    rw [active] at hx
    cases hx
    exact down up
  have off : (s.endpoint e).presence ≠ .present ∨ (s.endpoint e).reported ≠ .active ∧ (s.endpoint e).reported ≠ .standby →
      s.deliverable z = false := fun gone => by
    rw [← Bool.not_eq_true, deliverable_iff]
    rintro ⟨-, -, -, -, -, x, hx, present, reports⟩
    rw [active] at hx
    cases hx
    rcases gone with absent | ⟨down, out⟩
    · exact absent present
    · exact reports.elim down out
  rcases bad with absent | suspended | out | ⟨standby, playing⟩
  · exact .inl (off (.inl absent))
  · exact .inl (off (.inr (by rw [suspended]; exact ⟨by decide, by decide⟩)))
  · exact .inl (off (.inr (by rw [out]; exact ⟨by decide, by decide⟩)))
  · exact .inr ⟨playing, asleep (by rw [standby]; decide)⟩

/-- What an endpoint that becomes PRESENT is sent, through the observations that follow (R38). -/
theorem reportRest_welcomes {was : Presence} (serving : s.service = .service) (present : (s.endpoint e).presence = .present)
    (away : was ≠ .present) (ht : t = reportRest was e s) :
    (t.endpoint e).lastPower = some s.now ∧ (s.mail e = [] →
      ((s.endpoint e).role ≠ .usherLight → ∃ post, t.mail e =
        s.order e .listen (optIndexByte (s.listenSlot (s.endpoint e).place)) :: t.powerDirective e :: post ∧
        ∀ d, (s.endpoint e).role = .descTx → s.descOf (s.endpoint e).place = some d →
          s.order e .channel (BitVec.ofNat 8 s.descs[d].channel) ∈ post) ∧
      ∀ g : GateId, (s.endpoint e).role = .usherLight → g.val = (s.endpoint e).place.val → t.mail e =
        [t.powerDirective e, s.order e .light (if (s.gate g).state = .open_ then 1 else 0)]) := by
  have look : ∃ v, v = observe (endpointLostRef e) false s := ⟨_, rfl⟩
  obtain ⟨v, hv⟩ := look
  obtain ⟨faults, alert, eq⟩ := observe_absent_eq (endpointLostRef e) s
  rw [← hv] at eq
  have serving_v : v.service = .service := by rw [eq]; exact serving
  have present_v : (v.endpoint e).presence = .present := by rw [eq]; exact present
  have greet : ∃ w, w = welcome e v := ⟨_, rfl⟩
  obtain ⟨w, hw⟩ := greet
  obtain ⟨ds, welcomed⟩ := welcome_eq serving_v present_v
  rw [← hw] at welcomed
  have record : w.endpoint e = { v.endpoint e with lastPower := some v.now } := by
    rw [welcomed]; exact (vector_set_get _ _ _ _).trans (if_pos rfl)
  have serving_w : w.service = .service := by rw [welcomed]; exact serving_v
  have present_w : (w.endpoint e).presence = .present := by rw [record]; exact present_v
  have now_w : w.now = s.now := by rw [welcomed, eq]
  have run := reportObservations_powerRun e w
  have last : ((reportObservations e w).endpoint e).lastPower = some w.now := by
    rcases run.power serving_w present_w with ⟨-, kept⟩ | ⟨last, -⟩
    · rw [kept, record, welcomed]
    · exact last
  have done : t = reportObservations e w := by
    have same : becomePresent e s = w := by rw [hw, hv]; rfl
    have now : (reportObservations e w).now = w.now := run.sends.now
    have rest : t = reissueTest e (reportObservations e w) := by
      rw [ht]
      unfold reportRest
      rw [if_pos present, if_neg away, same]
    rw [rest, reissueTest_recent (by rw [last, now])]
  rw [← done] at last run
  refine ⟨last.trans (congrArg some now_w), fun none_ => ?_⟩
  have mail := welcome_mail serving_v present_v (by rw [eq]; exact none_ : v.mail e = [])
  rw [← hw] at mail
  have power : w.powerDirective e = v.powerDirective e := by unfold State.powerDirective; rw [record]
  rw [← power, eq] at mail
  obtain ⟨listens, lights⟩ := mail
  refine ⟨fun role => ?_, fun g role place => ?_⟩
  · obtain ⟨post, first, channel⟩ := listens role
    refine ⟨post, ?_, channel⟩
    exact run.mail (pre := [_]) serving_w present_w (fun d hd => by rw [List.mem_singleton.mp hd]; exact fun h => nomatch h) first
  · exact run.mail (pre := []) serving_w present_w (fun d hd => absurd hd List.not_mem_nil) (lights g role place)

/-- The re-issue of POWER to an endpoint that was PRESENT (R41). -/
theorem reportRest_reissues (serving : s.service = .service) (run : PowerRun s u) (present : (s.endpoint e).presence = .present)
    (ht : t = reportRest .present e u) (differs : (s.endpoint e).reported ≠ (t.endpoint e).commanded)
    (due : (s.endpoint e).lastPower = none ∨ ∃ q, (s.endpoint e).lastPower = some q ∧ 100 ≤ s.now - q) :
    (t.endpoint e).lastPower = some s.now ∧ t.powerDirective e ∈ t.directives := by
  have report : ∃ d, d = reportObservations e u := ⟨_, rfl⟩
  obtain ⟨d, hd⟩ := report
  have run_d : PowerRun s d := hd ▸ run.trans (reportObservations_powerRun e u)
  have present_u : (u.endpoint e).presence = .present := (run.sends.presence e).trans present
  have last : t = reissueTest e d := by
    rw [ht, hd]
    unfold reportRest
    rw [if_pos present_u, if_pos rfl]
  have serving_d : d.service = .service := run_d.sends.service.trans serving
  have present_d : (d.endpoint e).presence = .present := (run_d.sends.presence e).trans present
  have reported : (d.endpoint e).reported = (s.endpoint e).reported := (congrArg Endpoint.reported (run_d.sends.endpoint e) :)
  rcases run_d.power serving present with ⟨-, kept⟩ | ⟨recent, waits⟩
  · have commanded : (t.endpoint e).commanded = (d.endpoint e).commanded := by
      rcases reissueTest_cases e d with eq | eq
      · rw [last, eq]
      · rw [last, eq, issuePower_commanded]
    have issued := reissueTest_due present_d (by rw [reported, ← commanded]; exact differs)
      (by rw [kept, run_d.sends.now]; exact due)
    rw [last, issued, issuePower_endpoint serving_d present_d, if_pos rfl, issuePower_powerDirective serving_d present_d]
    refine ⟨congrArg some run_d.sends.now, ?_⟩
    rw [issuePower_issues serving_d present_d]
    exact mem_joinDirective_self _ _
  · rw [last, reissueTest_recent (by rw [recent, run_d.sends.now])]
    exact ⟨recent, waits⟩

end

end Sys2Proof.Machine
end

section
/-! Return frames that bring TELEMETRY (R35, R137, R139). -/

namespace Sys2Proof.Machine

section
variable {s t u : State} {z : ZoneId} {c : CallId} {e : EndpointId} {p : Power} {bytes : List Byte} {r : Record}

/-! ### What a record leaves of the link -/

theorem telemetryFor_still (e : EndpointId) (p : Power) (bytes : List Byte) (s : State) : (telemetryFor e p bytes s).still =
    (modEndpoint e (fun r => r.afterTelemetry s.config.debounce s.now p bytes) s).still := by
  rw [telemetryFor_eq, reportRest_still, reportDrop_still]

theorem telemetry_cases (r : Record) (s : State) : telemetry r s = s ∨
    ∃ e p, s.service = .service ∧ s.endpointAt (recordSource r) = some e ∧ powerOf (byteAt r.payload 0) = some p ∧
      telemetry r s = telemetryFor e p r.payload s := by
  unfold telemetry
  split
  · next serving =>
    cases s.endpointAt (recordSource r) with
    | none => exact .inl rfl
    | some e =>
      cases powerOf (byteAt r.payload 0) with
      | none => exact .inl rfl
      | some p => exact .inr ⟨e, p, serving, rfl, rfl, rfl⟩
  · exact .inl rfl

/-- What a TELEMETRY record leaves. -/
theorem telemetry_link (r : Record) (s : State) : (telemetry r s).node = s.node ∧ (telemetry r s).portB = s.portB ∧
    (telemetry r s).cmdQueue = s.cmdQueue ∧ (telemetry r s).cueQueue = s.cueQueue := by
  rcases telemetry_cases r s with eq | ⟨e, p, -, -, -, eq⟩
  · rw [eq]; exact ⟨rfl, rfl, rfl, rfl⟩
  · have still := telemetryFor_still e p r.payload s
    rw [eq]
    exact ⟨(congrArg State.node still :), (congrArg State.portB still :), (congrArg State.cmdQueue still :), (congrArg State.cueQueue still :)⟩

theorem telemetry_config (h : s.service = .configuration) : telemetry r s = s :=
  if_neg fun serving => by rw [h] at serving; exact nomatch serving

theorem endpointAt_none (h : ∀ x, (s.endpoint x).inUse = true → (s.endpoint x).node ≠ recordSource r) :
    s.endpointAt (recordSource r) = none := find_finRange_none.mpr fun x => by
  cases used : (s.endpoint x).inUse
  · rfl
  · simpa using h x used

theorem endpointAt_some (used : (s.endpoint e).inUse = true) (node : (s.endpoint e).node = recordSource r)
    (only : ∀ x, (s.endpoint x).inUse = true → (s.endpoint x).node = recordSource r → x = e) :
    s.endpointAt (recordSource r) = some e := by
  refine find_finRange.mpr ⟨by rw [used, node]; simp, fun x lt => ?_⟩
  rw [← Bool.not_eq_true, Bool.and_eq_true]
  rintro ⟨held, at_⟩
  exact absurd (only x held (eq_of_beq at_)) (ne_of_lt lt)

theorem telemetry_unknown (h : s.endpointAt (recordSource r) = none ∨ powerOf (byteAt r.payload 0) = none) : telemetry r s = s := by
  rcases telemetry_cases r s with eq | ⟨e, p, -, at_, power, -⟩
  · exact eq
  · rcases h with none_ | none_
    · rw [none_] at at_; exact nomatch at_
    · rw [none_] at power; exact nomatch power

theorem telemetry_taken (serving : s.service = .service) (at_ : s.endpointAt (recordSource r) = some e)
    (power : powerOf (byteAt r.payload 0) = some p) : telemetry r s = telemetryFor e p r.payload s := by
  unfold telemetry
  rw [if_pos serving, at_, power]

/-! ### Intake (R139) -/

theorem intakeB_cons (r : Record) (rs : List Record) (s : State) :
    intakeB (r :: rs) s = intakeB rs (if recordFor s.node r ∧ recordKind r = 5 then telemetry r s else s) := rfl

theorem intakeB_none : ∀ (rs : List Record) (s : State), (∀ r ∈ rs, recordFor s.node r = false) → intakeB rs s = s
  | [], _, _ => rfl
  | r :: rs, s, h => by
    rw [intakeB_cons, if_neg (by rw [h r List.mem_cons_self]; simp)]
    exact intakeB_none rs s fun x hx => h x (List.mem_cons_of_mem _ hx)

/-- A frame whose only record for the part is `r`. -/
theorem intakeB_one {before after : List Record} (others : ∀ x ∈ before ++ after, recordFor s.node x = false) :
    intakeB (before ++ r :: after) s = if recordFor s.node r ∧ recordKind r = 5 then telemetry r s else s := by
  induction before with
  | nil =>
    rw [List.nil_append, intakeB_cons]
    refine intakeB_none after _ fun x hx => ?_
    have node : (if recordFor s.node r ∧ recordKind r = 5 then telemetry r s else s).node = s.node := by
      split
      · exact (telemetry_link r s).1
      · rfl
    rw [node]
    exact others x hx
  | cons a before ih =>
    rw [List.cons_append, intakeB_cons, if_neg (by rw [others a List.mem_cons_self]; simp)]
    exact ih fun x hx => others x (List.mem_cons_of_mem _ hx)

theorem lockB_eq (s : State) : ∃ faults alert, lockB s = { s with portB := .locked, faults := faults, alert := alert } := by
  unfold lockB
  split
  · obtain ⟨faults, alert, eq⟩ := observe_absent_eq houseLinkLostRef { s with portB := .locked }
    exact ⟨faults, alert, eq⟩
  · exact ⟨_, _, rfl⟩

theorem lockB_fault (e : EndpointId) (k : Fin 6) (s : State) : (lockB s).fault (.endpoint e k) = s.fault (.endpoint e k) := by
  unfold lockB
  split
  · exact (observe_fault houseLinkLostRef (.endpoint e k) false { s with portB := .locked }).trans
      (if_neg fun h => FaultRef.noConfusion h)
  · rfl

theorem emptyRecord_for (n : Node) : recordFor n emptyRecord = false := by
  have empty : recordEmpty emptyRecord = true := by decide
  unfold recordFor
  rw [empty]
  rfl

theorem freed_freed_record {n : Node} {before after : List Record} (hr : recordFor n r = true) :
    freed n (before ++ r :: after) = freed n (before ++ emptyRecord :: after) := by
  unfold freed
  rw [List.map_append, List.map_append, List.map_cons, List.map_cons, if_pos hr, if_neg (by rw [emptyRecord_for]; decide)]

/-- A return frame while the queues are empty. -/
theorem returnFrame_eq (f : RetFrame) (commands : s.cmdQueue = []) (cues : s.cueQueue = [])
    (kept : (intakeB f.records (lockB s)).cmdQueue = s.cmdQueue ∧ (intakeB f.records (lockB s)).cueQueue = s.cueQueue) :
    exec (.returnFrameArrival f) s = .next (sendReturn f.header (freed s.node f.records) (intakeB f.records (lockB s))) :=
  congrArg Host.Outcome.next (serve_empty (kept.1.trans commands) (kept.2.trans cues))

end

/-- The first part of O15: a record that is discarded. -/
theorem returnFrame_discards {f : RetFrame} {s : State} {before after : List Record} {r : Record}
    (records : f.records = before ++ r :: after) (others : ∀ x ∈ before ++ after, recordFor s.node x = false) (hr : recordFor s.node r = true)
    (lost : recordKind r ≠ 5 ∨ s.service = .configuration ∨ powerOf (byteAt r.payload 0) = none ∨
      (∀ x, (s.endpoint x).inUse = true → (s.endpoint x).node ≠ recordSource r)) :
    exec (.returnFrameArrival f) s = exec (.returnFrameArrival { f with records := before ++ emptyRecord :: after }) s := by
  obtain ⟨faults, alert, locked⟩ := lockB_eq s
  have node : (lockB s).node = s.node := by rw [locked]
  have others' : ∀ x ∈ before ++ after, recordFor (lockB s).node x = false := by rw [node]; exact others
  have nothing : (if recordFor (lockB s).node r ∧ recordKind r = 5 then telemetry r (lockB s) else lockB s) = lockB s := by
    split
    · next taken =>
      rcases lost with kind | config | power | unknown
      · exact absurd taken.2 kind
      · exact telemetry_config (by rw [locked]; exact config)
      · exact telemetry_unknown (.inr power)
      · exact telemetry_unknown (.inl (endpointAt_none (by rw [locked]; exact unknown)))
    · rfl
  show Host.Outcome.next (serve (sendReturn f.header (freed s.node f.records) (intakeB f.records (lockB s)))) =
    .next (serve (sendReturn f.header (freed s.node (before ++ emptyRecord :: after)) (intakeB (before ++ emptyRecord :: after) (lockB s))))
  rw [records, intakeB_one others', intakeB_one others', nothing, freed_freed_record hr,
    if_neg (show ¬ (recordFor (lockB s).node emptyRecord = true ∧ recordKind emptyRecord = 5) by rw [emptyRecord_for]; simp)]

/-- The last part of O15: several records are taken in place order. -/
theorem returnFrame_several {f : RetFrame} {s : State} {u : Nat → State} (start : u 0 = lockB s)
    (step : ∀ (i : Nat) (r : Record), f.records[i]? = some r →
      u (i + 1) = if recordFor s.node r = true ∧ recordKind r = 5 then telemetry r (u i) else u i) :
    exec (.returnFrameArrival f) s =
      exec (.returnFrameArrival { f with records := f.records.map fun r => if recordFor s.node r then emptyRecord else r })
        (u f.records.length) := by
  have run : ∀ (rs : List Record) (v : Nat → State), (v 0).node = s.node → (v 0).portB = .locked →
      (∀ i r, rs[i]? = some r → v (i + 1) = if recordFor s.node r = true ∧ recordKind r = 5 then telemetry r (v i) else v i) →
      intakeB rs (v 0) = v rs.length ∧ (v rs.length).node = s.node ∧ (v rs.length).portB = .locked := by
    intro rs
    induction rs with
    | nil => exact fun v node port _ => ⟨rfl, node, port⟩
    | cons a rs ih =>
      intro v node port step
      have first := step 0 a rfl
      have kept : (v 1).node = s.node ∧ (v 1).portB = .locked := by
        rw [first]
        split
        · exact ⟨(telemetry_link a (v 0)).1.trans node, (telemetry_link a (v 0)).2.1.trans port⟩
        · exact ⟨node, port⟩
      have rest := ih (fun i => v (i + 1)) kept.1 kept.2 fun i r h => step (i + 1) r h
      refine ⟨?_, rest.2⟩
      rw [intakeB_cons, node, ← first]
      exact rest.1
  obtain ⟨faults, alert, locked⟩ := lockB_eq s
  obtain ⟨taken, node, port⟩ := run f.records u (by rw [start, locked]) (by rw [start, locked]) step
  rw [start] at taken
  have again : lockB (u f.records.length) = u f.records.length := by
    unfold lockB
    rw [if_neg (by rw [port]; decide)]
    exact congrArg (fun port => { u f.records.length with portB := port }) port.symm
  have clean : ∀ r ∈ freed s.node f.records, recordFor s.node r = false := fun r hr => by
    obtain ⟨x, -, rfl⟩ := List.mem_map.mp hr
    split
    · exact emptyRecord_for _
    · next other => rwa [Bool.not_eq_true] at other
  have nothing : intakeB (freed s.node f.records) (u f.records.length) = u f.records.length :=
    intakeB_none _ _ (by rw [node]; exact clean)
  show Host.Outcome.next (serve (sendReturn f.header (freed s.node f.records) (intakeB f.records (lockB s)))) =
    .next (serve (sendReturn f.header (freed (u f.records.length).node (freed s.node f.records))
      (intakeB (freed s.node f.records) (lockB (u f.records.length)))))
  rw [taken, again, nothing, node, freed_none clean]

section
variable {s t u : State} {z : ZoneId} {c : CallId} {e : EndpointId} {p : Power} {bytes : List Byte}

/-- One report, all at once, on the state of a LOCKED port B. -/
theorem telemetryFor_spec {new : Endpoint} (serving : s.service = .service)
    (hnew : new = (s.endpoint e).afterTelemetry s.config.debounce s.now p bytes) (ht : t = telemetryFor e p bytes s) :
    t.still = { s with endpoints := s.endpoints.set e new }.still ∧
    t.fault (endpointLostRef e) = (if (s.endpoint e).presence ≠ .present ∧ new.presence = .present
      then s.observed (endpointLostRef e) false else s.fault (endpointLostRef e)) ∧
    (∀ z c, s.ClaimsUnique → s.zoneOfEndpoint e = some z → (s.zone z).active = some e → s.claimant z = some c →
      new.presence ≠ .present ∨ p = .suspended ∨ p = .off ∨ p = .standby ∧ (s.call c).state = .playing →
      t.claimant z = none ∧ t.PowerWorkedOut z ∧ (t.zone z).idleDeadline = ((s.zone z).released s.now).idleDeadline ∧
      ∀ d, t.call d = if s.claimant z = some d then (s.call d).dropped z else s.call d) ∧
    ((s.endpoint e).presence ≠ .present → new.presence = .present → (t.endpoint e).lastPower = some s.now ∧
      (s.mail e = [] →
        ((s.endpoint e).role ≠ .usherLight →
          (∀ z, s.zoneOfEndpoint e = some z → (s.zone z).active = some e → s.claimant z = none) → ∃ post, t.mail e =
            s.order e .listen (optIndexByte (s.listenSlot (s.endpoint e).place)) :: t.powerDirective e :: post ∧
            ∀ d, (s.endpoint e).role = .descTx → s.descOf (s.endpoint e).place = some d →
              s.order e .channel (BitVec.ofNat 8 s.descs[d].channel) ∈ post) ∧
        ∀ g : GateId, (s.endpoint e).role = .usherLight → g.val = (s.endpoint e).place.val → t.mail e =
          [t.powerDirective e, s.order e .light (if (s.gate g).state = .open_ then 1 else 0)])) ∧
    ((s.endpoint e).presence = .present → p ≠ (t.endpoint e).commanded →
      ((s.endpoint e).lastPower = none ∨ ∃ q, (s.endpoint e).lastPower = some q ∧ 100 ≤ s.now - q) →
      (t.endpoint e).lastPower = some s.now ∧ t.powerDirective e ∈ t.directives) := by
  have report : ∃ a, a = modEndpoint e (fun r => r.afterTelemetry s.config.debounce s.now p bytes) s := ⟨_, rfl⟩
  obtain ⟨a, ha⟩ := report
  have drop : ∃ b, b = reportDrop e a := ⟨_, rfl⟩
  obtain ⟨b, hb⟩ := drop
  have run : t = reportRest (s.endpoint e).presence e b := by rw [ht, telemetryFor_eq, hb, ha]
  have record : a.endpoint e = new := by rw [ha, modEndpoint_endpoint, if_pos rfl, hnew]
  have role : new.role = (s.endpoint e).role := by rw [hnew]; rfl
  have place : new.place = (s.endpoint e).place := by rw [hnew]; rfl
  have node : new.node = (s.endpoint e).node := by rw [hnew]; rfl
  have reported : new.reported = p := by rw [hnew]; rfl
  have serving_a : a.service = .service := by rw [ha]; exact serving
  have concerned : a.zoneOfEndpoint e = s.zoneOfEndpoint e := by
    unfold State.zoneOfEndpoint
    rw [record, role, place, show new.inUse = (s.endpoint e).inUse by rw [hnew]; rfl]
  have zone_a : a.zone = s.zone := by rw [ha]; rfl
  have call_a : a.call = s.call := by rw [ha]; rfl
  have claimant_a : a.claimant = s.claimant := by rw [ha]; rfl
  have fault_a : a.fault = s.fault := by rw [ha]; rfl
  have still_b : b.still = a.still := hb ▸ reportDrop_still e a
  have serving_b : b.service = .service := (congrArg State.service still_b :).trans serving_a
  have now_b : b.now = s.now := (congrArg State.now still_b :).trans (by rw [ha]; rfl)
  have policy_b : b.policy = s.policy := (congrArg State.policy still_b :).trans (by rw [ha]; rfl)
  have fault_b : b.fault = s.fault := by rw [hb, reportDrop_fault, fault_a]
  have present_b : (b.endpoint e).presence = new.presence := by rw [(still_reports still_b e).1, record]
  refine ⟨?_, ?_, fun z c unique zone active claimed bad => ?_, fun away present => ?_, fun present differs due => ?_⟩
  · rw [run, reportRest_still, still_b, ha, hnew]
    rfl
  · have observed : b.observed (endpointLostRef e) false = s.observed (endpointLostRef e) false := by
      unfold State.observed
      rw [policy_b, fault_b, now_b]
    rw [run, reportRest_lost serving_b, present_b, observed, fault_b]
  · have must : a.mustDrop z c := by
      refine mustDrop_of_report (by rw [zone_a]; exact active) ?_
      rw [record, reported, call_a]
      exact bad
    have unique_a : a.ClaimsUnique := fun y c d => by rw [call_a]; exact unique y c d
    have dropped : b = dropZone z a := by
      rw [hb]
      exact reportDrop_drops_claimed (concerned.trans zone) (by rw [zone_a]; exact active) (by rw [claimant_a]; exact claimed) must
    have free_b : b.claimant z = none := dropped ▸ dropZone_unclaims unique_a z
    have calls : t.calls = b.calls := by
      rw [run]
      exact reportRest_calls serving_b _ ((zoneOfEndpoint_of_still still_b e).trans (concerned.trans zone)) free_b
    have call_t : ∀ d, t.call d = b.call d := fun d => by simp only [State.call, calls]
    have free : t.claimant z = none := (claimant_congr fun d => by rw [call_t]).trans free_b
    have chain : Drops z a t := (hb ▸ reportDrop_drops z e a : Drops z a b).trans (run ▸ reportRest_drops serving_b _ e z)
    obtain ⟨worked, idle⟩ := chain.released unique_a (by rw [claimant_a, claimed]; rfl) free
    refine ⟨free, worked, ?_, fun d => ?_⟩
    · rw [idle, zone_a, show a.now = s.now by rw [ha]; rfl]
    · rw [call_t, dropped, dropZone_call, claimant_a, call_a]
  · have greeted := reportRest_welcomes serving_b (present_b.trans present) away run
    refine ⟨greeted.1.trans (congrArg some now_b), fun none_ => ?_⟩
    have of_same : b = a → b.mail e = [] ∧ (b.endpoint e).role = (s.endpoint e).role ∧ (b.endpoint e).place = (s.endpoint e).place ∧
        b.order e = s.order e ∧ b.listenSlot = s.listenSlot ∧ b.descOf = s.descOf ∧ b.descs = s.descs ∧ b.gate = s.gate := fun same => by
      have order : a.order e = s.order e := by
        funext code value
        unfold State.order
        rw [record, node]
      rw [same, record]
      exact ⟨by rw [ha]; exact none_, role, place, order, by rw [ha]; rfl, by rw [ha]; rfl, by rw [ha]; rfl, by rw [ha]; rfl⟩
    refine ⟨fun heard unclaimed => ?_, fun g usher gate => ?_⟩
    · obtain ⟨mail, role_b, place_b, order, slot, desc, descs, -⟩ := of_same (by
        rw [hb]
        exact reportDrop_keeps fun z hz active => by rw [claimant_a]; exact unclaimed z (concerned ▸ hz) (by rw [← zone_a]; exact active))
      have first := (greeted.2 mail).1 (by rw [role_b]; exact heard)
      simp only [role_b, place_b, order, slot, desc, descs] at first
      exact first
    · obtain ⟨mail, role_b, place_b, order, -, -, -, gates⟩ := of_same (by
        rw [hb]
        refine reportDrop_keeps fun z hz _ => ?_
        have light := (zoneOfEndpoint_eq_some.mp (concerned ▸ hz)).2.1
        exact absurd usher light)
      have first := (greeted.2 mail).2 g (by rw [role_b]; exact usher) (by rw [place_b]; exact gate)
      rw [order, gates] at first
      exact first
  · have present_a : (a.endpoint e).presence = .present := by
      rw [record, hnew]
      unfold Endpoint.afterTelemetry Endpoint.presenceAfter
      rw [present]
    have again := reportRest_reissues (s := a) (e := e) (u := b) (t := t) serving_a (hb ▸ reportDrop_powerRun e a) present_a
      (by rw [run, present]) (by rw [record, reported]; exact differs)
      (by rw [record, hnew, show a.now = s.now by rw [ha]; rfl]; exact due)
    rw [show a.now = s.now by rw [ha]; rfl] at again
    exact again

end

/-- Settles O15: a discarded record, one report, then several records. -/
theorem telemetrySetsTheEndpoint : Obligations.TelemetrySetsTheEndpoint := by
  refine ⟨fun f s before after r commands cues records others hr => ⟨returnFrame_discards records others hr,
    fun e p kind serving used node only power new hnew => ?_⟩, fun f s u commands cues start step => ?_⟩
  · obtain ⟨faults, alert, locked⟩ := lockB_eq s
    have lock : ∃ v, v = lockB s := ⟨_, rfl⟩
    obtain ⟨v, hv⟩ := lock
    have lost_v : v.fault (endpointLostRef e) = s.fault (endpointLostRef e) := hv ▸ lockB_fault e 0 s
    rw [← hv] at locked
    have serving_v : v.service = .service := by rw [locked]; exact serving
    have node_v : v.node = s.node := by rw [locked]
    have endpoint_v : v.endpoint = s.endpoint := by rw [locked]; rfl
    have taken : intakeB f.records v = telemetryFor e p r.payload v := by
      rw [records, intakeB_one (by rw [node_v]; exact others), if_pos ⟨by rw [node_v]; exact hr, kind⟩]
      exact telemetry_taken serving_v (endpointAt_some (by rw [endpoint_v]; exact used) (by rw [endpoint_v]; exact node)
        (by rw [endpoint_v]; exact only)) power
    have report : ∃ w, w = telemetryFor e p r.payload v := ⟨_, rfl⟩
    obtain ⟨w, hw⟩ := report
    have new_v : new = (v.endpoint e).afterTelemetry v.config.debounce v.now p r.payload := by
      rw [hnew, locked]
      show _ = (s.endpoint e).afterTelemetry s.config.debounce s.now p r.payload
      unfold Endpoint.afterTelemetry Endpoint.presenceAfter telemetryCurrent
      cases (s.endpoint e).presence <;> cases (s.endpoint e).debounceStart <;> rfl
    obtain ⟨still, lost, drops, greets, reissues⟩ := telemetryFor_spec serving_v new_v hw
    have run := returnFrame_eq f commands cues (by
      rw [← hv, taken, ← hw]
      have commands_w : w.cmdQueue = v.cmdQueue := (congrArg State.cmdQueue still :)
      have cues_w : w.cueQueue = v.cueQueue := (congrArg State.cueQueue still :)
      rw [commands_w, cues_w, locked]
      exact ⟨rfl, rfl⟩)
    rw [← hv, taken, ← hw] at run
    rw [endpoint_v] at lost greets reissues
    have now_v : v.now = s.now := by rw [locked]
    rw [now_v] at drops greets reissues
    have sent : ∃ t, t = sendReturn f.header (freed s.node f.records) w := ⟨_, rfl⟩
    obtain ⟨t, ht⟩ := sent
    rw [← ht] at run
    have endpoint_t : t.endpoint = w.endpoint := by rw [ht]; rfl
    have directives_t : t.directives = w.directives := by rw [ht]; rfl
    have mail_t : t.mail e = w.mail e := by rw [ht]; rfl
    have node_w : (w.endpoint e).node = (s.endpoint e).node := by
      have kept : (w.endpoint e).still = new.still := by
        refine (still_endpoint still e).trans ?_
        show ((v.endpoints.set e new)[e]).still = new.still
        rw [vector_set_get, if_pos rfl]
      have same : (w.endpoint e).node = new.node := (congrArg Endpoint.node kept :)
      rw [same, hnew]
    have power_w : w.powerDirective e = { endpoint := e, code := .power, dest := (s.endpoint e).node
                                          value := powerCode (t.endpoint e).commanded } := by
      unfold State.powerDirective
      rw [node_w, endpoint_t]
    refine ⟨t, run, ?_, ?_, fun z c sound zone active claimed bad => ?_, fun away present none_ order horder => ?_, fun present differs due => ?_⟩
    · have link := congrArg (fun x : State => { x with txA := t.txA, holdFlag := t.holdFlag, replies := t.replies }) still
      have left : t.still = { w.still with txA := t.txA, holdFlag := t.holdFlag, replies := t.replies } := by rw [ht]; rfl
      rw [left]
      refine link.trans ?_
      rw [locked]
      rfl
    · have fault_t : t.fault = w.fault := by rw [ht]; rfl
      have observed : v.observed (endpointLostRef e) false = s.observed (endpointLostRef e) false := by
        unfold State.observed
        rw [lost_v, locked]
      rw [fault_t, lost, lost_v, observed, observe_fault, if_pos rfl]
    · have zone_t : t.zone = w.zone := by rw [ht]; rfl
      have call_t : t.call = w.call := by rw [ht]; rfl
      have claimant_v : v.claimant = s.claimant := by rw [locked]; rfl
      have call_v : v.call = s.call := by rw [locked]; rfl
      have zone_v : v.zone = s.zone := by rw [locked]; rfl
      rw [claimant_v, call_v, zone_v] at drops
      obtain ⟨free, worked, idle, calls⟩ := drops z c (fun y c d => by rw [call_v]; exact sound.unique y c d)
        (by rw [locked]; exact zone) active claimed bad
      refine ⟨(by rw [ht]; exact free), worked.congr (by rw [ht]; rfl) (by rw [ht]; rfl) (by rw [ht]; rfl) (by rw [zone_t]) (by rw [ht]; rfl),
        by rw [zone_t]; exact idle, fun d ne => ?_, ?_⟩
      · rw [call_t, calls, claimed, if_neg fun h => ne (Option.some.inj h).symm]
      · rw [call_t, calls, if_pos claimed]
        rfl
    · have mail_v : v.mail e = [] := by
        refine List.filter_eq_nil_iff.mpr fun d hd => ?_
        rw [locked] at hd
        simpa using none_ d hd
      obtain ⟨last, mails⟩ := greets away present
      obtain ⟨heard, lights⟩ := mails mail_v
      have order_v : v.order e = order := by rw [horder, locked]; rfl
      have power_order : w.powerDirective e = order .power (powerCode (t.endpoint e).commanded) := by rw [power_w, horder]
      have within : (w.mail e).Sublist t.directives := by
        rw [directives_t]
        exact List.filter_sublist
      have slot : v.listenSlot = s.listenSlot := by rw [locked]; rfl
      have desc : v.descOf = s.descOf := by rw [locked]; rfl
      have descs : v.descs = s.descs := by rw [locked]
      have gates : v.gate = s.gate := by rw [locked]; rfl
      rw [order_v, slot, desc, power_order] at heard
      rw [order_v, gates, power_order] at lights
      have unclaimed : ((s.zone (s.endpoint e).place).active = some e → s.claimant (s.endpoint e).place = none) →
          ∀ z, v.zoneOfEndpoint e = some z → (v.zone z).active = some e → v.claimant z = none := fun h z hz active => by
        rw [locked] at hz active ⊢
        have at_ : z = (s.endpoint e).place := (zoneOfEndpoint_eq_some.mp hz).2.2.symm
        subst at_
        exact h active
      refine ⟨by rw [endpoint_t]; exact last, fun role free => ?_, fun d role free bound => ?_, fun g role place => ?_⟩
      · obtain ⟨post, mail, -⟩ := heard role (unclaimed free)
        rw [mail] at within
        exact (List.Sublist.cons_cons _ (List.Sublist.cons_cons _ (List.nil_sublist _))).trans within
      · obtain ⟨post, mail, channel⟩ := heard (by rw [role]; decide) (unclaimed free)
        have here := channel d role bound
        rw [mail] at within
        rw [descs] at here
        exact ((List.Sublist.cons_cons _ (List.singleton_sublist.mpr here)).cons _).trans within
      · rw [lights g role place] at within
        exact within
    · obtain ⟨last, waits⟩ := reissues present (by rw [← endpoint_t]; exact differs) due
      refine ⟨by rw [endpoint_t]; exact last, ?_⟩
      rw [directives_t, ← power_w]
      exact waits
  · exact returnFrame_several start step

end Sys2Proof.Machine
end

section
/-! What the operations of a millisecond may do to an idle deadline, a fault record and a call record (R40, R90, R97 to R101, R119 to R123),
whatever order the blocks take it in: `Ages` relates the states before and after, and each operation but a timer's own keeps it. -/

namespace Sys2Proof.Machine

/-! ### Runs (R133) -/

theorem forEach_related {α : Type} {R : State → State → Prop} (refl : ∀ s, R s s) (trans : ∀ {s t u}, R s t → R t u → R s u)
    {f : α → State → State} (h : ∀ a s, R s (f a s)) (l : List α) (s : State) : R s (forEach l f s) := by
  induction l generalizing s with
  | nil => exact refl s
  | cons a l ih =>
    rw [forEach_cons]
    exact trans (h a s) (ih (f a s))

/-- A run in which each subject has its turn once: `Pre` stands until the turn of `a`, which makes it `Post`, and `Post` stands after. -/
theorem forEach_once {α : Type} {l : List α} (distinct : l.Nodup) {a : α} (here : a ∈ l) {f : α → State → State} {Pre Post : State → Prop}
    (before : ∀ x s, x ≠ a → Pre s → Pre (f x s)) (turn : ∀ s, Pre s → Post (f a s)) (after : ∀ x s, x ≠ a → Post s → Post (f x s))
    {s : State} (start : Pre s) : Post (forEach l f s) := by
  have kept : ∀ l (s : State), a ∉ l → Post s → Post (forEach l f s) := by
    intro l
    induction l with
    | nil => exact fun s _ h => h
    | cons x l ih =>
      intro s out h
      rw [List.mem_cons, not_or] at out
      exact ih _ out.2 (after x s (Ne.symm out.1) h)
  induction l generalizing s with
  | nil => exact absurd here List.not_mem_nil
  | cons x l ih =>
    obtain ⟨new, rest⟩ := List.nodup_cons.mp distinct
    rw [forEach_cons]
    by_cases own : x = a
    · subst own
      exact kept l _ new (turn s start)
    · exact ih rest ((List.mem_cons.mp here).resolve_left (Ne.symm own)) (before x s own start)

/-! ### Idle deadlines (R40) -/

theorem released_idleDeadline (r : Zone) (now : Nat) : (r.released now).idleDeadline =
    if r.idlePolicy = .callsOnly then some (now + r.idleTime * 1000) else r.idleDeadline := by
  unfold Zone.released
  split <;> rfl

/-- From `s` to `t`, at one moment, a zone keeps its idle deadline or is released, and keeps it where no call is in progress. -/
structure Idles (s t : State) : Prop where
  now : t.now = s.now
  zone : ∀ z, (t.zone z).settings = (s.zone z).settings
  deadline : ∀ z, (t.zone z).idleDeadline = (s.zone z).idleDeadline ∨
    (t.zone z).idleDeadline = ((s.zone z).released s.now).idleDeadline
  free : ∀ x, (s.call x).state = .free → (t.call x).state = .free
  idle : (∀ x, (s.call x).state = .free) → ∀ z, (t.zone z).idleDeadline = (s.zone z).idleDeadline

namespace Idles
variable {s t u : State}

theorem refl (s : State) : Idles s s := ⟨rfl, fun _ => rfl, fun _ => .inl rfl, fun _ h => h, fun _ _ => rfl⟩

theorem trans (h : Idles s t) (g : Idles t u) : Idles s u where
  now := g.now.trans h.now
  zone z := (g.zone z).trans (h.zone z)
  deadline z := by
    have policy : (t.zone z).idlePolicy = (s.zone z).idlePolicy := (congrArg Zone.idlePolicy (h.zone z) :)
    have time : (t.zone z).idleTime = (s.zone z).idleTime := (congrArg Zone.idleTime (h.zone z) :)
    rcases g.deadline z with same | new
    · rw [same]
      exact h.deadline z
    · have first := h.deadline z
      rw [released_idleDeadline] at new first ⊢
      rw [policy, time, h.now] at new
      rw [new]
      split
      · exact .inr rfl
      · next off =>
        rw [if_neg off] at first
        exact first
  free x hx := g.free x (h.free x hx)
  idle none_ z := (g.idle (fun x => h.free x (none_ x)) z).trans (h.idle none_ z)

theorem forEach {α : Type} {f : α → State → State} (h : ∀ a s, Idles s (f a s)) (l : List α) (s : State) : Idles s (forEach l f s) :=
  forEach_related Idles.refl Idles.trans h l s

/-- What leaves the calls and every idle deadline. -/
theorem of_deadlines (now : t.now = s.now) (zone : ∀ z, (t.zone z).settings = (s.zone z).settings)
    (deadline : ∀ z, (t.zone z).idleDeadline = (s.zone z).idleDeadline) (calls : ∀ x, (s.call x).state = .free → (t.call x).state = .free) :
    Idles s t := ⟨now, zone, fun z => .inl (deadline z), calls, fun _ => deadline⟩

theorem of_same (now : t.now = s.now) (zones : t.zones = s.zones) (calls : t.calls = s.calls) : Idles s t :=
  have zone : ∀ z, t.zone z = s.zone z := fun z => congrArg (fun v : Vector Zone 32 => v[z]) zones
  .of_deadlines now (fun z => congrArg Zone.settings (zone z)) (fun z => congrArg Zone.idleDeadline (zone z)) fun x hx =>
    (congrArg (fun v : Vector Call 16 => v[x].state) calls).trans hx

/-- What releases zones while a call is in progress. -/
theorem of_busy {c : CallId} (busy : (s.call c).state ≠ .free) (still : t.still = s.still)
    (zone : ∀ z, t.zone z = s.zone z ∨ t.zone z = (s.zone z).released s.now) (free : ∀ x, (s.call x).state = .free → (t.call x).state = .free) :
    Idles s t :=
  ⟨still_now still, fun z => zone_settings_of_still (still_zone still z), fun z => (zone z).imp (congrArg _) (congrArg _), free,
    fun none_ => absurd (none_ c) busy⟩

end Idles

/-! ### Fault records (R119 to R123) -/

/-- What observations do to a record: one that is raised keeps all but its last observation; else it keeps its last recovery until raised. -/
structure FaultRecord.Looks (r q : FaultRecord) : Prop where
  raised : r.state.raised = true → q = { r with lastPresent := q.lastPresent }
  recovery : q.state.raised = false → q.lastRecovery = r.lastRecovery

namespace FaultRecord.Looks
variable {r q p : FaultRecord}

theorem refl (r : FaultRecord) : r.Looks r := ⟨fun _ => rfl, fun _ => rfl⟩

theorem state (h : r.Looks q) (up : r.state.raised = true) : q.state = r.state := by rw [h.raised up]

theorem trans (h : r.Looks q) (g : q.Looks p) : r.Looks p where
  raised up := by
    have first := h.raised up
    have second := g.raised ((h.state up).symm ▸ up)
    rw [first] at second
    exact second
  recovery down := by
    have before : q.state.raised = false := by
      rw [← Bool.not_eq_true]
      intro up
      rw [g.state up, up] at down
      exact nomatch down
    exact (g.recovery down).trans (h.recovery before)

end FaultRecord.Looks

/-- From `s` to `t` the fault records take observations, those of a silence and of a failed wake alone among an endpoint's. -/
structure Looks (s t : State) : Prop where
  record : ∀ f, (s.fault f).Looks (t.fault f)
  other : ∀ e (k : Fin 6), 2 ≤ k.val → t.fault (.endpoint e k) = s.fault (.endpoint e k)

namespace Looks
variable {s t u : State}

theorem refl (s : State) : Looks s s := ⟨fun _ => .refl _, fun _ _ _ => rfl⟩

theorem trans (h : Looks s t) (g : Looks t u) : Looks s u :=
  ⟨fun f => (h.record f).trans (g.record f), fun e k hk => (g.other e k hk).trans (h.other e k hk)⟩

theorem of_same (faults : t.faults = s.faults) : Looks s t :=
  have same : ∀ f, t.fault f = s.fault f := fun f => congrArg (fun v : FaultTable => v.get f) faults
  ⟨fun f => by rw [same]; exact .refl _, fun e k _ => same _⟩

theorem forEach {α : Type} {f : α → State → State} (h : ∀ a s, Looks s (f a s)) (l : List α) (s : State) : Looks s (forEach l f s) :=
  forEach_related Looks.refl Looks.trans h l s

end Looks

theorem raisedBy_raised (r : FaultRecord) (p : Policy) (now : Nat) : (r.raisedBy p now).state.raised = true := by
  show (raisedState p (r.escalates now)).raised = true
  unfold raisedState
  split
  · rfl
  · cases p.mode <;> rfl

theorem observed_looks (f : FaultRef) (b : Bool) (s : State) : (s.fault f).Looks (s.observed f b) := by
  unfold State.observed
  split
  · exact .refl _
  · split
    · exact ⟨fun _ => rfl, fun _ => rfl⟩
    · next down =>
      split
      · split
        · refine ⟨fun up => absurd up down, fun no => ?_⟩
          rw [raisedBy_raised] at no
          exact nomatch no
        · exact ⟨fun up => absurd up down, fun _ => rfl⟩
      · exact ⟨fun up => absurd up down, fun _ => rfl⟩

theorem observe_looks {f : FaultRef} (kind : ∀ e k, f = .endpoint e k → k.val < 2) (b : Bool) (s : State) : Looks s (observe f b s) where
  record x := by
    rw [observe_fault]
    split
    · next same => rw [same]; exact observed_looks f b s
    · exact .refl _
  other e k hk := by
    rw [observe_fault, if_neg]
    exact fun same => Nat.not_lt.mpr hk (kind e k same.symm)

/-! ### Call records (R90, R97 to R101) -/

/-- What the operations of a millisecond other than the hand-off do to a call record: one that is FREE stays as it is, one in TAIL stays so
or completes; and, but for the dispatch walk, a PENDING one stays or completes, a PLAYING one plays on, enters TAIL or completes. -/
structure Call.Ages (walks : Bool) (tailTime : Nat) (r q : Call) : Prop where
  free : r.state = .free → q = r
  tail : r.state = .tail → q = {} ∨ q.state = .tail ∧ q.tailRemaining = r.tailRemaining ∧ q.outcome = r.outcome
  pending : walks = false → r.state = .pending → q = {} ∨ q = r
  playing : walks = false → r.state = .playing → q = {} ∨ q.state = .tail ∧ q.tailRemaining = tailTime ∨
    q.state = .playing ∧ q.source = r.source ∧ q.plays = r.plays

namespace Call.Ages
variable {walks : Bool} {n : Nat} {r q p : Call}

theorem refl (r : Call) : Call.Ages walks n r r :=
  ⟨fun _ => rfl, fun h => .inr ⟨h, rfl, rfl⟩, fun _ _ => .inr rfl, fun _ h => .inr (.inr ⟨h, rfl, rfl⟩)⟩

theorem blank (h : Call.Ages walks n {} q) : q = {} := h.free rfl

theorem trans (h : Call.Ages walks n r q) (g : Call.Ages walks n q p) : Call.Ages walks n r p where
  free hr := (g.free (by rw [h.free hr]; exact hr)).trans (h.free hr)
  tail hr := by
    rcases h.tail hr with rfl | ⟨state, left, outcome⟩
    · exact .inl g.blank
    · rw [← left, ← outcome]
      exact g.tail state
  pending calm hr := by
    rcases h.pending calm hr with rfl | rfl
    · exact .inl g.blank
    · exact g.pending calm hr
  playing calm hr := by
    rcases h.playing calm hr with rfl | ⟨state, left⟩ | ⟨state, source, plays⟩
    · exact .inl g.blank
    · rcases g.tail state with gone | ⟨state', left', -⟩
      · exact .inl gone
      · exact .inr (.inl ⟨state', left'.trans left⟩)
    · rw [← source, ← plays]
      exact g.playing calm state

theorem completes (busy : r.state ≠ .free) : Call.Ages walks n r {} :=
  ⟨fun h => absurd h busy, fun _ => .inl rfl, fun _ _ => .inl rfl, fun _ _ => .inl rfl⟩

/-- A record in which only what a drop or a new wake deadline touches has changed. -/
theorem of_running (running : r.running = true) (state : q.state = r.state) (left : q.tailRemaining = r.tailRemaining)
    (outcome : q.outcome = r.outcome) (source : q.source = r.source) (plays : q.plays = r.plays) : Call.Ages walks n r q where
  free h := by rw [Call.running, h] at running; exact nomatch running
  tail h := .inr ⟨state.trans h, left, outcome⟩
  pending _ h := by rw [Call.running, h] at running; exact nomatch running
  playing _ h := .inr (.inr ⟨state.trans h, source, plays⟩)

/-- A WAKING record may become any. -/
theorem of_waking (waking : r.state = .waking) (q : Call) : Call.Ages walks n r q := by
  constructor <;> simp [waking]

/-- In the walk a PENDING one may, too. -/
theorem of_pending (pending : r.state = .pending) (q : Call) : Call.Ages true n r q := by
  constructor <;> simp [pending]

theorem inTail (state : r.state = .waking ∨ r.state = .playing) (fixed : Option CallOutcome) : Call.Ages walks n r (r.inTail n fixed) := by
  rcases state with waking | playing
  · exact of_waking waking _
  · constructor
    · simp [playing]
    · simp [playing]
    · simp [playing]
    · exact fun _ _ => .inr (.inl ⟨rfl, rfl⟩)

end Call.Ages

/-- From `s` to `t` every call record ages. -/
structure CallsAge (walks : Bool) (s t : State) : Prop where
  config : t.config = s.config
  call : ∀ c, Call.Ages walks s.config.tailTime (s.call c) (t.call c)

namespace CallsAge
variable {walks : Bool} {s t u : State}

theorem refl (s : State) : CallsAge walks s s := ⟨rfl, fun _ => .refl _⟩

theorem trans (h : CallsAge walks s t) (g : CallsAge walks t u) : CallsAge walks s u :=
  ⟨g.config.trans h.config, fun c => (h.call c).trans (h.config ▸ g.call c)⟩

theorem of_same (config : t.config = s.config) (calls : t.calls = s.calls) : CallsAge walks s t :=
  ⟨config, fun c => by rw [show t.call c = s.call c from congrArg (fun v : Vector Call 16 => v[c]) calls]; exact .refl _⟩

theorem forEach {α : Type} {f : α → State → State} (h : ∀ a s, CallsAge walks s (f a s)) (l : List α) (s : State) :
    CallsAge walks s (forEach l f s) := forEach_related CallsAge.refl CallsAge.trans h l s

theorem free (h : CallsAge walks s t) (x : CallId) (hx : (s.call x).state = .free) : (t.call x).state = .free := by
  rw [(h.call x).free hx]
  exact hx

/-- What changes the record of one call. -/
theorem of_one {c : CallId} (config : t.config = s.config) (others : ∀ x, x ≠ c → t.call x = s.call x)
    (own : Call.Ages walks s.config.tailTime (s.call c) (t.call c)) : CallsAge walks s t where
  config := config
  call x := by
    by_cases same : x = c
    · rw [same]; exact own
    · rw [others x same]; exact .refl _

end CallsAge

/-! ### The three together -/

/-- What an operation of a millisecond does that is no timer's own. -/
structure Ages (walks : Bool) (s t : State) : Prop where
  idles : Idles s t
  looks : Looks s t
  calls : CallsAge walks s t

namespace Ages
variable {walks : Bool} {s t u : State} {c : CallId}

theorem refl (s : State) : Ages walks s s := ⟨.refl s, .refl s, .refl s⟩

theorem trans (h : Ages walks s t) (g : Ages walks t u) : Ages walks s u :=
  ⟨h.idles.trans g.idles, h.looks.trans g.looks, h.calls.trans g.calls⟩

theorem forEach {α : Type} {f : α → State → State} (h : ∀ a s, Ages walks s (f a s)) (l : List α) (s : State) :
    Ages walks s (forEach l f s) := forEach_related Ages.refl Ages.trans h l s

theorem whenSome {α : Type} {f : α → State → State} (h : ∀ a s, Ages walks s (f a s)) (o : Option α) (s : State) :
    Ages walks s (whenSome o f s) := by
  cases o with
  | none => exact .refl s
  | some a => exact h a s

theorem ite {p : Prop} [Decidable p] (h : Ages walks s t) (g : Ages walks s u) : Ages walks s (if p then t else u) := by
  split <;> assumption

theorem of_same (now : t.now = s.now) (config : t.config = s.config) (zones : t.zones = s.zones) (calls : t.calls = s.calls)
    (faults : t.faults = s.faults) : Ages walks s t := ⟨.of_same now zones calls, .of_same faults, .of_same config calls⟩

/-- What changes no idle deadline and the record of one call. -/
theorem of_one (still : t.still = s.still) (zones : t.zones = s.zones) (faults : t.faults = s.faults)
    (others : ∀ x, x ≠ c → t.call x = s.call x) (own : Call.Ages walks s.config.tailTime (s.call c) (t.call c)) : Ages walks s t :=
  have calls : CallsAge walks s t := .of_one (congrArg State.config still :) others own
  ⟨.of_deadlines (still_now still) (fun z => zone_settings_of_still (still_zone still z))
    (fun z => congrArg (fun v : Vector Zone 32 => v[z].idleDeadline) zones) calls.free, .of_same faults, calls⟩

/-- What changes the record of one call in progress and may release zones. -/
theorem of_release (busy : (s.call c).state ≠ .free) (still : t.still = s.still) (faults : t.faults = s.faults)
    (zone : ∀ z, t.zone z = s.zone z ∨ t.zone z = (s.zone z).released s.now) (others : ∀ x, x ≠ c → t.call x = s.call x)
    (own : Call.Ages walks s.config.tailTime (s.call c) (t.call c)) : Ages walks s t :=
  have calls : CallsAge walks s t := .of_one (congrArg State.config still :) others own
  ⟨.of_busy busy still zone calls.free, .of_same faults, calls⟩

/-- What changes neither a call nor an idle deadline nor a fault record. -/
theorem of_zone (still : t.still = s.still) (deadline : ∀ z, (t.zone z).idleDeadline = (s.zone z).idleDeadline) (calls : t.calls = s.calls)
    (faults : t.faults = s.faults) : Ages walks s t :=
  have same : CallsAge walks s t := .of_same (congrArg State.config still :) calls
  ⟨.of_deadlines (still_now still) (fun z => zone_settings_of_still (still_zone still z)) deadline same.free, .of_same faults, same⟩

end Ages

end Sys2Proof.Machine
end

section
/-! The operations of a millisecond keep `Ages`: releases, drops, swaps and observations (R40, R46, R98, R119 to R126). -/

namespace Sys2Proof.Machine

section
variable {walks : Bool} {s t : State} {c : CallId} {z : ZoneId}

/-! ### Records that no call, zone or fault holds -/

theorem recommandZone_ages (z : ZoneId) (s : State) : Ages walks s (recommandZone z s) := by
  obtain ⟨_, _, eq⟩ := recommandZone_eq z s
  rw [eq]
  exact .of_same rfl rfl rfl rfl rfl

theorem faultEvent_ages (f : FaultRef) (flags : Byte) (st : FaultState) (a : PolicyAction) (n : Nat) (s : State) :
    Ages walks s (faultEvent f flags st a n s) := by
  unfold faultEvent
  rw [pushEvent_eq]
  exact .of_same rfl rfl rfl rfl rfl

theorem endCandidate_ages (z : ZoneId) (s : State) : Ages walks s (endCandidate z s) := by
  obtain ⟨_, eq, -⟩ := endCandidate_eq z s
  rw [eq]
  exact .of_same rfl rfl rfl rfl rfl

theorem issueLights_ages (g : GateId) (on : Bool) (s : State) : Ages walks s (issueLights g on s) := by
  rw [issueLights_eq]
  exact .of_same rfl rfl rfl rfl rfl

/-! ### Calls (R92, R97, R98, R100) -/

theorem claimant_running (h : s.claimant z = some c) : (s.call c).running = true :=
  running_iff.mpr (claims_iff.mp (claimant_claims h)).1

theorem running_busy {r : Call} (running : r.running = true) : r.state ≠ .free := fun free => by
  rw [Call.running, free] at running
  exact nomatch running

theorem completeCall_ages (busy : (s.call c).state ≠ .free) (why : Ending) : Ages walks s (completeCall c why s) :=
  .of_release busy (completeCall_still s c why) (completeCall_faults c why s) (fun z => by
    rw [completeCall_zone]
    split
    · exact .inr rfl
    · exact .inl rfl) (fun x ne => by rw [completeCall_call, if_neg ne]) (by
    rw [completeCall_call, if_pos rfl]
    exact .completes busy)

theorem enterTail_ages (state : (s.call c).state = .waking ∨ (s.call c).state = .playing) (fixed : Option CallOutcome) :
    Ages walks s (enterTail c fixed s) := by
  have busy : ∀ r : Call, r.state = .waking ∨ r.state = .playing → r.state ≠ .free := by
    rintro r (h | h) free <;> rw [h] at free <;> exact nomatch free
  by_cases zero : s.config.tailTime = 0
  · have entered : Ages walks s { s with calls := s.calls.set c ((s.call c).inTail s.config.tailTime fixed) } :=
      .of_one (c := c) rfl rfl rfl (fun x ne => (set_call c x _ s).trans (if_neg ne)) (by
        rw [inTail_call]
        exact .inTail state fixed)
    rw [enterTail_completes zero]
    refine entered.trans (completeCall_ages ?_ _)
    rw [inTail_call]
    exact fun h => nomatch h
  · rw [enterTail_stays zero]
    refine .of_one (c := c) rfl rfl rfl (fun x ne => (set_call c x _ s).trans (if_neg ne)) ?_
    rw [inTail_call]
    exact .inTail state fixed

theorem cancelCall_ages (c : CallId) (s : State) : Ages walks s (cancelCall c s) := by
  unfold cancelCall
  split
  · next pending => exact completeCall_ages (by rw [pending]; exact fun h => nomatch h) _
  · next waking => exact enterTail_ages (.inl waking) _
  · next playing => exact enterTail_ages (.inr playing) _
  · exact .refl s
  · exact .refl s

theorem loseAndRelease_ages (running : (s.call c).running = true) (z : ZoneId) : Ages walks s (loseAndRelease z c s) := by
  have still : (loseAndRelease z c s).still = s.still := (afterRelease_still _ z).trans (modCall_still s c _)
  have zone : ∀ y, (loseAndRelease z c s).zone y = s.zone y ∨ (loseAndRelease z c s).zone y = (s.zone y).released s.now := fun y => by
    obtain ⟨_, _, eq⟩ := loseAndRelease_eq z c s
    rw [eq]
    show (s.zones.set z ((s.zone z).released s.now))[y] = _ ∨ (s.zones.set z ((s.zone z).released s.now))[y] = _
    rw [vector_set_get]
    split
    · next same => rw [same]; exact .inr rfl
    · exact .inl rfl
  have faults : (loseAndRelease z c s).faults = s.faults := by
    obtain ⟨_, _, eq⟩ := loseAndRelease_eq z c s
    rw [eq]
  refine .of_release (running_busy running) still faults zone (fun x ne => by rw [loseAndRelease_call, if_neg ne]) ?_
  rw [loseAndRelease_call, if_pos rfl]
  exact .of_running running rfl rfl rfl rfl rfl

theorem dropZone_ages (z : ZoneId) (s : State) : Ages walks s (dropZone z s) := by
  cases h : s.claimant z with
  | none => rw [dropZone_none h]; exact .refl s
  | some c =>
    have lost := loseAndRelease_ages (walks := walks) (claimant_running h) z
    rw [dropZone_some h]
    refine .ite (lost.trans (completeCall_ages ?_ _)) lost
    rw [loseAndRelease_call, if_pos rfl]
    exact running_busy (r := (s.call c).without z) (claimant_running h)

theorem checkDrop_ages (z : ZoneId) (s : State) : Ages walks s (checkDrop z s) := by
  rcases checkDrop_cases z s with eq | eq
  · rw [eq]; exact .refl s
  · rw [eq]; exact dropZone_ages z s

/-! ### Swaps and observations (R46, R119, R125, R126) -/

theorem rewake_ages (z : ZoneId) (s : State) : Ages walks s (rewake z s) := by
  obtain ⟨cs, eq⟩ := rewake_eq z s
  have calls : CallsAge walks s (rewake z s) := ⟨by rw [eq], fun c => by
    rw [rewake_call]
    split
    · next waits => exact .of_waking waits.2.1 _
    · exact .refl _⟩
  exact ⟨.of_deadlines (by rw [eq]) (fun z => by rw [eq]; rfl) (fun z => by rw [eq]; rfl) calls.free, .of_same (by rw [eq]), calls⟩

/-- A change of one zone that keeps its configuration and idle deadline. -/
theorem modZone_ages {f : Zone → Zone} (still : ∀ r, (f r).still = r.still) (deadline : ∀ r, (f r).idleDeadline = r.idleDeadline)
    (z : ZoneId) (s : State) : Ages walks s (modZone z f s) :=
  .of_zone (modZone_still s z still) (fun y => by
    rw [modZone_zone]
    split
    · next same => rw [same]; exact deadline _
    · rfl) rfl rfl

theorem deriveProtection_ages (z : ZoneId) (s : State) : Ages walks s (deriveProtection z s) := by
  have put := modZone_ages (walks := walks) (f := fun r => { r with protection := s.protectionOf z }) (fun _ => rfl) (fun _ => rfl) z s
  unfold deriveProtection
  exact .ite (.refl s) (.ite (put.trans ((endCandidate_ages z _).trans (dropZone_ages z _))) put)

theorem swapZone_ages (z : ZoneId) (s : State) : Ages walks s (swapZone z s) := by
  have turned := modZone_ages (walks := walks) (f := fun r => { r with side := r.side.flip }) (fun _ => rfl) (fun _ => rfl) z s
  unfold swapZone
  exact turned.trans ((endCandidate_ages z _).trans ((recommandZone_ages z _).trans ((checkDrop_ages z _).trans
    ((rewake_ages z _).trans (deriveProtection_ages z _)))))

/-- An observation, but for the records it reaches: idle deadlines and calls. -/
theorem observe_idles_calls (f : FaultRef) (b : Bool) (s : State) : Idles s (observe f b s) ∧ CallsAge walks s (observe f b s) := by
  have step : ∀ {v w : State}, Idles s v ∧ CallsAge walks s v → Ages walks v w → Idles s w ∧ CallsAge walks s w :=
    fun h ages => ⟨h.1.trans ages.idles, h.2.trans ages.calls⟩
  exact observe_induction (P := fun v => Idles s v ∧ CallsAge walks s v) ⟨.refl s, .refl s⟩
    (fun _ => ⟨.of_same rfl rfl rfl, .of_same rfl rfl⟩) (fun v _ _ _ _ h => step h (faultEvent_ages _ _ _ _ _ v))
    (fun v _ _ _ y _ h => step h (swapZone_ages y v)) (fun v y _ h => step h (deriveProtection_ages y v)) b

theorem observe_ages {f : FaultRef} (kind : ∀ e k, f = .endpoint e k → k.val < 2) (b : Bool) (s : State) : Ages walks s (observe f b s) :=
  ⟨(observe_idles_calls (walks := walks) f b s).1, observe_looks kind b s, (observe_idles_calls f b s).2⟩

theorem observeLost_ages (e : EndpointId) (b : Bool) (s : State) : Ages walks s (observe (endpointLostRef e) b s) :=
  observe_ages (fun x k same => by
    unfold endpointLostRef at same
    obtain ⟨rfl, rfl⟩ := FaultRef.endpoint.inj same
    decide) b s

theorem observeWake_ages (z : ZoneId) (b : Bool) (s : State) : Ages walks s (observeWake z b s) :=
  .whenSome (fun e u => observe_ages (fun x k same => by
    unfold wakeFailedRef at same
    obtain ⟨rfl, rfl⟩ := FaultRef.endpoint.inj same
    decide) b u) _ s

end

end Sys2Proof.Machine
end

section
/-! The examination of the call unit keeps `Ages` (R90 to R93, R95 to R97, R99), and so do the millisecond tests but for what each is there
to do (R37, R40, R109, R121, R123). -/

namespace Sys2Proof.Machine

section
variable {walks : Bool} {s t : State} {c : CallId} {z : ZoneId}

/-! ### Steps 1 to 4 of the examination (R90, R93, R97, R99) -/

theorem tailTest_ages (c : CallId) (s : State) : Ages walks s (tailTest c s) := by
  unfold tailTest
  split
  · next due => exact completeCall_ages (by rw [due.1]; exact fun h => nomatch h) _
  · exact .refl s

theorem liveMaximumTest_ages (c : CallId) (s : State) : Ages walks s (liveMaximumTest c s) := by
  unfold liveMaximumTest
  split
  · next due => exact enterTail_ages (.inr due.1) _
  · exact .refl s

theorem endOfAudioTest_ages (c : CallId) (s : State) : Ages walks s (endOfAudioTest c s) := by
  unfold endOfAudioTest
  split
  · next due => exact enterTail_ages (.inr due.1) _
  · exact liveMaximumTest_ages c s

theorem pendingTest_ages (c : CallId) (s : State) : Ages walks s (pendingTest c s) := by
  unfold pendingTest
  split
  · next due => exact completeCall_ages (by rw [due.1]; exact fun h => nomatch h) _
  · exact .refl s

theorem liveStartTest_ages (c : CallId) (s : State) : Ages walks s (liveStartTest c s) := by
  unfold liveStartTest
  split
  · split
    · next due => exact enterTail_ages (.inr due.1) _
    · exact .refl s
  · exact .refl s
  · exact .refl s

/-- A change of a WAKING record alone. -/
theorem modCall_ages {f : Call → Call} (own : Call.Ages walks s.config.tailTime (s.call c) (f (s.call c))) : Ages walks s (modCall c f s) :=
  .of_one (c := c) (modCall_still s c f) rfl rfl (fun x ne => by rw [modCall_call, if_neg ne]) (by rw [modCall_call, if_pos rfl]; exact own)

theorem enterPlaying_ages (waking : (s.call c).state = .waking) : Ages walks s (enterPlaying c s) := by
  unfold enterPlaying
  exact (modCall_ages (.of_waking waking _)).trans (.forEach (fun z u => observeWake_ages z false u) _ _)

theorem examineWakeZone_ages (c : CallId) (z : ZoneId) (s : State) : Ages walks s (examineWakeZone c z s) := by
  unfold examineWakeZone
  split
  · next asleep =>
    split
    · exact .ite ((loseAndRelease_ages (running_iff.mpr (.inl asleep.1)) z).trans (observeWake_ages z true _)) (.refl s)
    · exact modCall_ages (.of_waking asleep.1 _)
  · exact .refl s

theorem wakingTest_ages (c : CallId) (s : State) : Ages walks s (wakingTest c s) := by
  have examined : ∀ l u, Ages walks u (forEach l (examineWakeZone c) u) := fun l u => .forEach (fun z v => examineWakeZone_ages c z v) l u
  unfold wakingTest
  split
  · simp only
    split
    · next waking =>
      refine (examined _ s).trans (.ite (completeCall_ages ?_ _) (.ite (enterPlaying_ages waking) (.refl _)))
      rw [waking]
      exact fun h => nomatch h
    · exact examined _ s
  · exact .refl s

/-! ### Step 5, the walk (R91, R92) -/

theorem preempt_ages (running : (s.call c).running = true) : Ages true s (preempt c s) :=
  .of_release (running_busy running) (preempt_still s c) (by
    unfold preempt
    simp only
    split
    · obtain ⟨_, _, _, eq, -⟩ := releases_eq (zonesOf (s.call c).delivered) (modCall c (Call.requeued s.now) s)
      rw [eq]
      rfl
    · split
      · exact completeCall_faults c _ s
      · exact completeCall_faults c _ s) (fun z => by
    rw [preempt_zone running]
    split
    · exact .inr rfl
    · exact .inl rfl) (fun x ne => by rw [preempt_call, if_neg ne]) (by
    rw [preempt_call, if_pos rfl]
    unfold Call.preempted
    split
    · next back =>
      have state : (s.call c).state = .waking ∨ (s.call c).state = .playing := by
        simp only [Call.requeues, Bool.and_eq_true, Bool.or_eq_true, beq_iff_eq] at back
        exact back.1.1.1
      rcases state with waking | playing
      · exact .of_waking waking _
      · constructor <;> simp [playing]
    · exact .completes (running_busy running))

theorem preempts_ages : ∀ (l : List CallId) (s : State), l.Nodup → (∀ x ∈ l, (s.call x).running = true) → Ages true s (forEach l preempt s)
  | [], s, _, _ => .refl s
  | a :: l, s, distinct, running => by
    obtain ⟨new, rest⟩ := List.nodup_cons.mp distinct
    rw [forEach_cons]
    refine (preempt_ages (running a List.mem_cons_self)).trans (preempts_ages l _ rest fun x hx => ?_)
    have ne : x ≠ a := fun same => new (same ▸ hx)
    rw [preempt_call, if_neg ne]
    exact running x (List.mem_cons_of_mem a hx)

theorem claimStart_ages (pending : (s.call c).state = .pending) (D : ZoneSet) (p : PlayerId) : Ages true s (claimStart c D p s) := by
  have counted : ∀ u, Ages true u (countStart u) := fun u => .of_same rfl rfl rfl rfl rfl
  have claimed := (modCall_ages (f := s.claimRecord D p) (.of_pending pending _)).trans (counted _)
  have powered := claimed.trans (.forEach (fun z u => recommandZone_ages z u) (zonesOf D) _)
  have waking : ((forEach (zonesOf D) recommandZone (countStart (modCall c (s.claimRecord D p) s))).call c).state = .waking := by
    obtain ⟨_, _, eq⟩ := recommandZones_eq (zonesOf D) (countStart (modCall c (s.claimRecord D p) s))
    rw [eq]
    show ((modCall c (s.claimRecord D p) s).call c).state = .waking
    rw [modCall_call, if_pos rfl]
    rfl
  unfold claimStart
  exact .ite (powered.trans (enterPlaying_ages waking)) powered

theorem startCall_ages {victim : Option CallId} (pending : (s.call c).state = .pending)
    (running : ∀ v, victim = some v → (s.call v).running = true) (D : ZoneSet) (p : PlayerId) :
    Ages true s (startCall c D p (whenSome victim preempt s)) := by
  obtain ⟨l, distinct, -, all, eq⟩ := preemptions_eq victim running ((whenSome victim preempt s).call c).priority D
  have out : c ∉ l := fun here => by
    have up := all c here
    rw [Call.running, pending] at up
    exact nomatch up
  have kept : ((forEach l preempt s).call c).state = .pending := by
    obtain ⟨-, -, calls, -⟩ := preempts_spec l distinct all rfl
    rw [calls, if_neg out]
    exact pending
  rw [startCall_eq, eq]
  exact (preempts_ages l s distinct all).trans (claimStart_ages kept D p)

/-- A choice among the calls that meet a condition takes one that meets it. -/
theorem choice_meets {P : CallId → Bool} {R : CallId → CallId → Bool} (l : List CallId) (best : Option CallId)
    (start : ∀ b, best = some b → P b = true) {v : CallId} :
    (l.foldl (fun best c => if P c then
      match best with
      | none => some c
      | some b => if R c b then some c else some b
    else best) best) = some v → P v = true := by
  induction l generalizing best with
  | nil => exact start v
  | cons a l ih =>
    rw [List.foldl_cons]
    refine ih _ fun b hb => ?_
    by_cases meets : P a = true
    · rw [if_pos meets] at hb
      cases best with
      | none => exact Option.some.inj hb ▸ meets
      | some x =>
        simp only at hb
        split at hb
        · exact Option.some.inj hb ▸ meets
        · exact Option.some.inj hb ▸ start x rfl
    · rw [if_neg meets] at hb
      exact start b hb

theorem playerVictim_running {priority : Nat} {v : CallId} (h : s.playerVictim priority = some v) : (s.call v).running = true := by
  have meets := choice_meets (P := fun c => (s.call c).running && decide ((s.call c).priority < priority))
    (R := fun c b => (s.call c).yieldsBefore (s.call b)) allCalls none (fun b hb => nomatch hb) h
  exact (Bool.and_eq_true_iff.mp meets).1

theorem nextPending_pending {taken : List CallId} (h : s.nextPending taken = some c) : (s.call c).state = .pending := by
  have meets := choice_meets (P := fun c => (s.call c).state == .pending && !taken.contains c)
    (R := fun c b => (s.call c).before (s.call b)) allCalls none (fun b hb => nomatch hb) h
  exact beq_iff_eq.mp (Bool.and_eq_true_iff.mp meets).1

/-- What a dispatch comes to: the call completes, stays PENDING, or starts on a player, which a running call may give up. -/
theorem dispatchCall_cases (c : CallId) (waiting : ZoneSet) (s : State) :
    (dispatchCall c waiting s).1 = completeCall c .notDelivered s ∨ (dispatchCall c waiting s).1 = s ∨
    ∃ (victim : Option CallId) (D : ZoneSet) (p : PlayerId), (∀ v, victim = some v → (s.call v).running = true) ∧
      (dispatchCall c waiting s).1 = startCall c D p (whenSome victim preempt s) := by
  unfold dispatchCall
  simp only
  split
  · exact .inl rfl
  · split
    · exact .inr (.inl rfl)
    · split
      · next p _ => exact .inr (.inr ⟨none, _, p, fun v h => (nomatch h), rfl⟩)
      · split
        · exact .inr (.inl rfl)
        · next v chosen =>
          split
          · next p _ => exact .inr (.inr ⟨some v, _, p, fun x h => Option.some.inj h ▸ playerVictim_running chosen, rfl⟩)
          · exact .inr (.inl rfl)

theorem dispatchCall_ages (pending : (s.call c).state = .pending) (waiting : ZoneSet) : Ages true s (dispatchCall c waiting s).1 := by
  rcases dispatchCall_cases c waiting s with eq | eq | ⟨victim, D, p, running, eq⟩ <;> rw [eq]
  · exact completeCall_ages (by rw [pending]; exact fun h => nomatch h) _
  · exact .refl s
  · exact startCall_ages pending running D p

theorem walk_ages : ∀ (n : Nat) (taken : List CallId) (waiting : ZoneSet) (s : State), Ages true s (walk n taken waiting s)
  | 0, _, _, s => .refl s
  | n + 1, taken, waiting, s => by
    unfold walk
    split
    · exact .refl s
    · next c next => exact (dispatchCall_ages (nextPending_pending next) waiting).trans (walk_ages n _ _ _)

/-! ### The tests of the other blocks (R37, R40, R109, R121, R123) -/

theorem loseEndpoint_ages (e : EndpointId) (s : State) : Ages walks s (loseEndpoint e s) := by
  unfold loseEndpoint
  split
  · exact .ite ((endCandidate_ages _ s).trans ((observeLost_ages e true _).trans (checkDrop_ages _ _))) (observeLost_ages e true s)
  · exact observeLost_ages e true s

theorem presenceTest_ages (e : EndpointId) (s : State) : Ages walks s (presenceTest e s) := by
  have left : Ages walks s (modEndpoint e Endpoint.leave s) := .of_same rfl rfl rfl rfl rfl
  unfold presenceTest
  exact .ite (.ite (left.trans (loseEndpoint_ages e _)) left) (.refl s)

theorem closeGate_ages (g : GateId) (d : GateState) (s : State) : Ages walks s (closeGate g d s) := by
  have shut : Ages walks s (modGate g (fun r => r.shut d s.now) s) := .of_same rfl rfl rfl rfl rfl
  unfold closeGate cancelAdmission
  exact shut.trans ((issueLights_ages g false _).trans (.whenSome (fun c u => cancelCall_ages c u) _ _))

theorem windowTest_ages (g : GateId) (s : State) : Ages walks s (windowTest g s) := by
  unfold windowTest
  split
  · split
    · exact .ite (closeGate_ages g _ s) (.refl s)
    · exact .refl s
  · exact .refl s

/-- An idle deadline test observes nothing and reaches no call. -/
theorem idleTest_looks_calls (z : ZoneId) (s : State) : Looks s (idleTest z s) ∧ CallsAge walks s (idleTest z s) := by
  have due : ∀ f : Zone → Zone, Looks s (recommandZone z (modZone z f s)) ∧ CallsAge walks s (recommandZone z (modZone z f s)) := fun f => by
    have looks : Looks s (modZone z f s) := .of_same rfl
    have calls : CallsAge walks s (modZone z f s) := .of_same rfl rfl
    have ages := recommandZone_ages (walks := walks) z (modZone z f s)
    exact ⟨looks.trans ages.looks, calls.trans ages.calls⟩
  have quiet : Looks s s ∧ CallsAge walks s s := ⟨.refl s, .refl s⟩
  unfold idleTest
  split
  · split
    · split
      · exact due _
      · exact quiet
    · exact quiet
  · exact quiet

/-- The fault records at the two fault timers change by those alone. -/
theorem withFaults_idles_calls (t : FaultTable) (s : State) : Idles s (withFaults t s) ∧ CallsAge walks s (withFaults t s) :=
  ⟨.of_same rfl rfl rfl, .of_same rfl rfl⟩

theorem expireRetry_idles_calls (f : FaultRef) (s : State) : Idles s (expireRetry f s) ∧ CallsAge walks s (expireRetry f s) := by
  have put : ∀ r, Idles s (setFault f r s) ∧ CallsAge walks s (setFault f r s) := fun r => withFaults_idles_calls _ s
  have step : ∀ {v w : State}, Idles s v ∧ CallsAge walks s v → Ages walks v w → Idles s w ∧ CallsAge walks s w :=
    fun h ages => ⟨h.1.trans ages.idles, h.2.trans ages.calls⟩
  unfold expireRetry
  simp only
  split
  · exact put _
  · exact step (put _) ((faultEvent_ages _ _ _ _ _ _).trans (.whenSome (fun z u => deriveProtection_ages z u) _ _))

end

end Sys2Proof.Machine
end

section
/-! The blocks at the millisecond (R133): what each leaves, in whatever order they take the event (log 4). -/

namespace Sys2Proof.Machine

section
variable {s t u : State} {ing : List (List Int)} {b : MsTask}

/-! ### The frame boundary (R90) -/

/-- What the examination leaves beside the start counter. -/
def State.rest (s : State) : State := { s.still with startCounter := 0 }

theorem rest_of_still (h : t.still = s.still) : t.rest = s.rest := by
  unfold State.rest
  rw [h]

theorem rest_endpoint (h : t.rest = s.rest) (e : EndpointId) : (t.endpoint e).still = (s.endpoint e).still := by
  have entry : t.endpoints.map Endpoint.still = s.endpoints.map Endpoint.still := (congrArg State.endpoints h :)
  simpa [State.endpoint] using congrArg (fun v : Vector Endpoint 48 => v[e]) entry

theorem rest_gate (h : t.rest = s.rest) (g : GateId) : (t.gate g).still = (s.gate g).still := by
  have entry : t.gates.map Gate.still = s.gates.map Gate.still := (congrArg State.gates h :)
  simpa [State.gate] using congrArg (fun v : Vector Gate 2 => v[g]) entry

theorem countStart_rest (s : State) : (countStart s).rest = s.rest := rfl

theorem claimStart_rest (c : CallId) (D : ZoneSet) (p : PlayerId) (s : State) : (claimStart c D p s).rest = s.rest := by
  have powered : (forEach (zonesOf D) recommandZone (countStart (modCall c (s.claimRecord D p) s))).rest = s.rest :=
    (rest_of_still (forEach_keeps _ State.still (fun z u => recommandZone_still u z) _)).trans
      ((countStart_rest _).trans (rest_of_still (modCall_still s c _)))
  unfold claimStart
  simp only
  split
  · exact (rest_of_still (enterPlaying_still _ c)).trans powered
  · exact powered

theorem dispatchCall_rest (c : CallId) (waiting : ZoneSet) (s : State) : (dispatchCall c waiting s).1.rest = s.rest := by
  rcases dispatchCall_cases c waiting s with eq | eq | ⟨victim, D, p, -, eq⟩ <;> rw [eq]
  · exact rest_of_still (completeCall_still s c _)
  · rw [startCall_eq]
    refine (claimStart_rest c D p _).trans (rest_of_still ((preemptByZone_still _ _ _).trans ?_))
    exact whenSome_keeps s State.still (fun v u => preempt_still u v) victim

theorem walk_rest : ∀ (n : Nat) (taken : List CallId) (waiting : ZoneSet) (s : State), (walk n taken waiting s).rest = s.rest
  | 0, _, _, _ => rfl
  | n + 1, taken, waiting, s => by
    unfold walk
    split
    · rfl
    · exact (walk_rest n _ _ _).trans (dispatchCall_rest _ _ s)

/-- Steps 1 to 4 of the examination. -/
def preWalk (s : State) : State :=
  forEach allCalls pendingTest (forEach allCalls wakingTest (forEach allCalls endOfAudioTest (forEach allCalls tailTest s)))

theorem examine_eq (s : State) : examine s = walk 16 [] 0 (preWalk s) := rfl

theorem preWalk_still (s : State) : (preWalk s).still = s.still :=
  (forEach_keeps _ State.still (fun c u => pendingTest_still u c) _).trans
    ((forEach_keeps _ State.still (fun c u => wakingTest_still u c) _).trans
      ((forEach_keeps _ State.still (fun c u => endOfAudioTest_still u c) _).trans
        (forEach_keeps s State.still (fun c u => tailTest_still u c) _)))

theorem examine_ages (s : State) : Ages true s (examine s) := by
  have tails := Ages.forEach (walks := true) tailTest_ages allCalls s
  have ends := tails.trans (.forEach endOfAudioTest_ages allCalls _)
  have wakes := ends.trans (.forEach wakingTest_ages allCalls _)
  have waits := wakes.trans (.forEach pendingTest_ages allCalls _)
  exact waits.trans (walk_ages 16 [] 0 _)

/-- The state from which the hand-off is made (R90, step 6). -/
def beforeHandOff (s : State) : State := forEach allCalls liveStartTest (examine s)

theorem beforeHandOff_ages (s : State) : Ages true s (beforeHandOff s) :=
  (examine_ages s).trans (.forEach liveStartTest_ages allCalls _)

theorem frameBoundary_serving (serving : s.service = .service) :
    (frameBoundary ing s).1 = mapCalls ((beforeHandOff s).afterHandOff ing) (beforeHandOff s) := by
  unfold frameBoundary
  rw [if_pos serving]
  rfl

theorem frameBoundary_config (config : s.service ≠ .service) : (frameBoundary ing s).1 = s := by
  unfold frameBoundary
  rw [if_neg config]

theorem mapCalls_rest (f : Call → Call) (s : State) : (mapCalls f s).rest = s.rest := rfl

theorem frameBoundary_rest (ing : List (List Int)) (s : State) : (frameBoundary ing s).1.rest = s.rest := by
  by_cases serving : s.service = .service
  · rw [frameBoundary_serving serving, mapCalls_rest, beforeHandOff]
    rw [rest_of_still (forEach_keeps _ State.still (fun c u => liveStartTest_still u c) _), examine_eq, walk_rest]
    exact rest_of_still (preWalk_still s)
  · rw [frameBoundary_config serving]

theorem mapCalls_call (f : Call → Call) (c : CallId) (s : State) : (mapCalls f s).call c = f (s.call c) := by
  simp [mapCalls, State.call, vmap]

theorem afterHandOff_free {r : Call} (h : r.state = .free) : s.afterHandOff ing r = r := by
  unfold State.afterHandOff
  rw [h]

theorem afterHandOff_tail {r : Call} (h : r.state = .tail) : s.afterHandOff ing r = { r with tailRemaining := r.tailRemaining - 1 } := by
  unfold State.afterHandOff
  rw [h]

/-- The hand-off leaves the zones, the fault records and a FREE call. -/
theorem handOff_idles_looks {f : Call → Call} (free : ∀ r : Call, r.state = .free → f r = r) (s : State) :
    Idles s (mapCalls f s) ∧ Looks s (mapCalls f s) :=
  ⟨.of_deadlines rfl (fun _ => rfl) (fun _ => rfl) fun x hx => by
    rw [mapCalls_call, free _ hx]
    exact hx, .of_same rfl⟩

theorem frameBoundary_idles_looks (ing : List (List Int)) (s : State) :
    Idles s (frameBoundary ing s).1 ∧ Looks s (frameBoundary ing s).1 := by
  by_cases serving : s.service = .service
  · have ages := beforeHandOff_ages s
    have handed := handOff_idles_looks (f := (beforeHandOff s).afterHandOff ing) (fun r h => afterHandOff_free h) (beforeHandOff s)
    rw [frameBoundary_serving serving]
    exact ⟨ages.idles.trans handed.1, ages.looks.trans handed.2⟩
  · rw [frameBoundary_config serving]
    exact ⟨.refl s, .refl s⟩

/-! ### One block (R133) -/

/-- The state after one block has taken the event. -/
def runBlock (ing : List (List Int)) (b : MsTask) (s : State) : State := (runTask ing b (s, HandOff.silent)).1

theorem runBlock_presence (ing : List (List Int)) (s : State) : runBlock ing .presence s = forEach allEndpoints presenceTest s := by
  simp only [runBlock, runTask]

theorem runBlock_idle (ing : List (List Int)) (s : State) : runBlock ing .idle s = forEach allZones idleTest s := by
  simp only [runBlock, runTask]

theorem runBlock_windows (ing : List (List Int)) (s : State) : runBlock ing .windows s = forEach [0, 1] windowTest s := by
  simp only [runBlock, runTask]

theorem runBlock_escalation (ing : List (List Int)) (s : State) : runBlock ing .escalation s = escalationTests s := by
  simp only [runBlock, runTask]

theorem runBlock_retry (ing : List (List Int)) (s : State) : runBlock ing .retry s = retryTests s := by
  simp only [runBlock, runTask]

theorem runBlock_boundary (ing : List (List Int)) (s : State) : runBlock ing .boundary s = (frameBoundary ing s).1 := by
  simp only [runBlock, runTask]

theorem runBlock_returnFrame (ing : List (List Int)) (s : State) : runBlock ing .returnFrame s = builtReturn s := by
  simp only [runBlock, runTask, builtReturn]

theorem runBlock_settled (ing : List (List Int)) (b : MsTask) (s : State) : (runBlock ing b s).settled = s.settled :=
  runTask_settled ing b (s, HandOff.silent)

theorem builtReturn_ages (s : State) : Ages false s (builtReturn s) := by
  unfold builtReturn
  exact .ite (.refl s) (.of_same rfl rfl rfl rfl rfl)

theorem builtReturn_rest_views (s : State) (e : EndpointId) (g : GateId) :
    (builtReturn s).endpoint e = s.endpoint e ∧ (builtReturn s).gate g = s.gate g := by
  unfold builtReturn
  split
  · exact ⟨rfl, rfl⟩
  · exact ⟨rfl, rfl⟩

theorem runBlock_now (ing : List (List Int)) (b : MsTask) (s : State) : (runBlock ing b s).now = s.now := by
  cases b with
  | presence =>
    rw [runBlock_presence]
    exact (Ages.forEach (walks := false) presenceTest_ages allEndpoints s).idles.now
  | idle =>
    rw [runBlock_idle]
    exact still_now (forEach_keeps s State.still (fun z u => idleTest_still u z) allZones)
  | windows =>
    rw [runBlock_windows]
    exact (Ages.forEach (walks := false) windowTest_ages [0, 1] s).idles.now
  | escalation => rfl
  | retry =>
    rw [runBlock_retry]
    exact still_now (retryTests_still s)
  | boundary =>
    rw [runBlock_boundary]
    exact (frameBoundary_idles_looks ing s).1.now
  | returnFrame =>
    rw [runBlock_returnFrame]
    exact (builtReturn_ages s).idles.now

theorem runBlock_idles (ing : List (List Int)) (other : b ≠ .idle) (s : State) : Idles s (runBlock ing b s) := by
  cases b with
  | presence =>
    rw [runBlock_presence]
    exact (Ages.forEach (walks := false) presenceTest_ages allEndpoints s).idles
  | idle => exact absurd rfl other
  | windows =>
    rw [runBlock_windows]
    exact (Ages.forEach (walks := false) windowTest_ages [0, 1] s).idles
  | escalation =>
    rw [runBlock_escalation]
    exact (withFaults_idles_calls (walks := false) _ s).1
  | retry =>
    rw [runBlock_retry]
    exact .forEach (fun f u => (expireRetry_idles_calls (walks := false) f u).1) _ s
  | boundary =>
    rw [runBlock_boundary]
    exact (frameBoundary_idles_looks ing s).1
  | returnFrame =>
    rw [runBlock_returnFrame]
    exact (builtReturn_ages s).idles

theorem runBlock_looks (ing : List (List Int)) (escalation : b ≠ .escalation) (retry : b ≠ .retry) (s : State) :
    Looks s (runBlock ing b s) := by
  cases b with
  | presence =>
    rw [runBlock_presence]
    exact (Ages.forEach (walks := false) presenceTest_ages allEndpoints s).looks
  | idle =>
    rw [runBlock_idle]
    exact .forEach (fun z u => (idleTest_looks_calls (walks := false) z u).1) _ s
  | windows =>
    rw [runBlock_windows]
    exact (Ages.forEach (walks := false) windowTest_ages [0, 1] s).looks
  | escalation => exact absurd rfl escalation
  | retry => exact absurd rfl retry
  | boundary =>
    rw [runBlock_boundary]
    exact (frameBoundary_idles_looks ing s).2
  | returnFrame =>
    rw [runBlock_returnFrame]
    exact (builtReturn_ages s).looks

theorem runBlock_calls (ing : List (List Int)) (other : b ≠ .boundary) (s : State) : CallsAge false s (runBlock ing b s) := by
  cases b with
  | presence =>
    rw [runBlock_presence]
    exact (Ages.forEach presenceTest_ages allEndpoints s).calls
  | idle =>
    rw [runBlock_idle]
    exact .forEach (fun z u => (idleTest_looks_calls z u).2) _ s
  | windows =>
    rw [runBlock_windows]
    exact (Ages.forEach windowTest_ages [0, 1] s).calls
  | escalation =>
    rw [runBlock_escalation]
    exact (withFaults_idles_calls _ s).2
  | retry =>
    rw [runBlock_retry]
    exact .forEach (fun f u => (expireRetry_idles_calls f u).2) _ s
  | boundary => exact absurd rfl other
  | returnFrame =>
    rw [runBlock_returnFrame]
    exact (builtReturn_ages s).calls

theorem windowTest_endpoint (g : GateId) (e : EndpointId) (s : State) : ((windowTest g s).endpoint e).still = (s.endpoint e).still := by
  have closes : ((closeGate g .closed s).endpoint e).still = (s.endpoint e).still := by
    unfold closeGate
    rw [still_endpoint (cancelAdmission_still _ g) e, still_endpoint (issueLights_still _ g false) e]
    rfl
  unfold windowTest
  split
  · split
    · split
      · exact closes
      · rfl
    · rfl
  · rfl

theorem runBlock_endpoint (ing : List (List Int)) (other : b ≠ .presence) (e : EndpointId) (s : State) :
    ((runBlock ing b s).endpoint e).still = (s.endpoint e).still := by
  cases b with
  | presence => exact absurd rfl other
  | idle =>
    rw [runBlock_idle]
    exact still_endpoint (forEach_keeps s State.still (fun z u => idleTest_still u z) allZones) e
  | windows =>
    rw [runBlock_windows]
    exact forEach_keeps s (fun u => (u.endpoint e).still) (fun g u => windowTest_endpoint g e u) [0, 1]
  | escalation => rfl
  | retry =>
    rw [runBlock_retry]
    exact still_endpoint (retryTests_still s) e
  | boundary =>
    rw [runBlock_boundary]
    exact rest_endpoint (frameBoundary_rest ing s) e
  | returnFrame =>
    rw [runBlock_returnFrame]
    exact congrArg Endpoint.still (builtReturn_rest_views s e 0).1

theorem presenceTest_gate (e : EndpointId) (g : GateId) (s : State) : ((presenceTest e s).gate g).still = (s.gate g).still := by
  unfold presenceTest
  simp only
  split
  · split
    · rw [still_gate (loseEndpoint_still _ e) g]
      rfl
    · rfl
  · rfl

theorem runBlock_gate (ing : List (List Int)) (other : b ≠ .windows) (g : GateId) (s : State) :
    ((runBlock ing b s).gate g).still = (s.gate g).still := by
  cases b with
  | presence =>
    rw [runBlock_presence]
    exact forEach_keeps s (fun u => (u.gate g).still) (fun e u => presenceTest_gate e g u) allEndpoints
  | idle =>
    rw [runBlock_idle]
    exact still_gate (forEach_keeps s State.still (fun z u => idleTest_still u z) allZones) g
  | windows => exact absurd rfl other
  | escalation => rfl
  | retry =>
    rw [runBlock_retry]
    exact still_gate (retryTests_still s) g
  | boundary =>
    rw [runBlock_boundary]
    exact rest_gate (frameBoundary_rest ing s) g
  | returnFrame =>
    rw [runBlock_returnFrame]
    exact congrArg Gate.still (builtReturn_rest_views s 0 g).2

/-! ### The millisecond event -/

theorem runTasks_fst (ing : List (List Int)) : ∀ (l : List MsTask) (p : State × HandOff),
    (l.foldl (fun p b => runTask ing b p) p).1 = forEach l (runBlock ing) p.1
  | [], _ => rfl
  | b :: l, p => by
    have first : (runTask ing b p).1 = runBlock ing b p.1 := by cases b <;> rfl
    rw [List.foldl_cons, runTasks_fst ing l, first]
    rfl

theorem millisecond_fst (n : BitVec 16) (ing : List (List Int)) (order : List MsTask) (s : State) :
    (millisecond n ing order s).1 = forEach (schedule order) (runBlock ing) (tickRetries (beginFrame n s)) :=
  runTasks_fst ing (schedule order) _

/-- What stands at the millisecond event until the turn of block `b`, by which it becomes what stands after it. -/
theorem millisecond_once (b : MsTask) {Pre Post : State → Prop} (n : BitVec 16) (ing : List (List Int)) (order : List MsTask)
    (start : Pre (tickRetries (beginFrame n s))) (before : ∀ x u, x ≠ b → Pre u → Pre (runBlock ing x u))
    (turn : ∀ u, Pre u → Post (runBlock ing b u)) (after : ∀ x u, x ≠ b → Post u → Post (runBlock ing x u)) :
    Post (millisecond n ing order s).1 := by
  rw [millisecond_fst]
  exact forEach_once (schedule_nodup order) (mem_schedule order b) before turn after start

/-- The moment and the configuration that every block finds. -/
structure SameMoment (s u : State) : Prop where
  now : u.now = s.now
  settled : u.settled = s.settled

theorem SameMoment.runBlock (h : SameMoment s u) (ing : List (List Int)) (b : MsTask) : SameMoment s (runBlock ing b u) :=
  ⟨(runBlock_now ing b u).trans h.now, (runBlock_settled ing b u).trans h.settled⟩

theorem SameMoment.service (h : SameMoment s u) : u.service = s.service := (congrArg State.service h.settled :)

theorem SameMoment.config (h : SameMoment s u) : u.config = s.config := (congrArg State.config h.settled :)

theorem runTask_snd (ing : List (List Int)) (other : b ≠ .boundary) (p : State × HandOff) : (runTask ing b p).2 = p.2 := by
  cases b <;> simp only [runTask]
  case boundary => exact absurd rfl other

/-- The hand-off that the mix event receives is that of one frame boundary at this millisecond (R6, R90). -/
theorem millisecond_handOff (n : BitVec 16) (ing : List (List Int)) (order : List MsTask) (s : State) :
    ∃ v : State, (millisecond n ing order s).2 = (frameBoundary ing v).2 ∧ v.now = s.now + 1 ∧ v.settled = s.settled := by
  obtain ⟨before, after, eq⟩ := List.append_of_mem (mem_schedule order .boundary)
  have once := schedule_nodup order
  rw [eq, List.nodup_middle, List.nodup_cons, List.mem_append, not_or] at once
  have later : ∀ (l : List MsTask) (p : State × HandOff), .boundary ∉ l → (l.foldl (fun p b => runTask ing b p) p).2 = p.2 := by
    intro l
    induction l with
    | nil => exact fun _ _ => rfl
    | cons b l ih =>
      intro p out
      rw [List.mem_cons, not_or] at out
      rw [List.foldl_cons, ih _ out.2]
      exact runTask_snd ing (Ne.symm out.1) p
  have begun : SameMoment (beginFrame n s) (tickRetries (beginFrame n s)) := ⟨rfl, settled_of_still (tickRetries_still _)⟩
  have found : ∀ (l : List MsTask) (u : State), SameMoment (beginFrame n s) u → SameMoment (beginFrame n s) (forEach l (runBlock ing) u) := by
    intro l
    induction l with
    | nil => exact fun _ h => h
    | cons b l ih => exact fun u h => ih _ (h.runBlock ing b)
  have moment := found before _ begun
  refine ⟨forEach before (runBlock ing) (tickRetries (beginFrame n s)), ?_, moment.now, moment.settled⟩
  unfold millisecond
  rw [eq, List.foldl_append, List.foldl_cons, later _ _ once.1.2, ← runTasks_fst ing before (_, HandOff.silent)]
  rfl

end

end Sys2Proof.Machine
end

section
/-! A downstream frame around its millisecond event, whatever kind it is of (R96, R133 to R136): what comes before and after it keeps `Ages`
and leaves the endpoints and gates. -/

namespace Sys2Proof.Machine

section
variable {s t u : State} {z : ZoneId} {c : CallId}

/-- From `s` to `t` no timer's own step is taken. -/
structure AgesOnly (s t : State) : Prop where
  ages : Ages false s t
  service : t.service = s.service
  endpoint : ∀ e, (t.endpoint e).still = (s.endpoint e).still
  gate : ∀ g, (t.gate g).still = (s.gate g).still

namespace AgesOnly

theorem refl (s : State) : AgesOnly s s := ⟨.refl s, rfl, fun _ => rfl, fun _ => rfl⟩

theorem trans (h : AgesOnly s t) (g : AgesOnly t u) : AgesOnly s u :=
  ⟨h.ages.trans g.ages, g.service.trans h.service, fun e => (g.endpoint e).trans (h.endpoint e), fun x => (g.gate x).trans (h.gate x)⟩

theorem forEach {α : Type} {f : α → State → State} (h : ∀ a s, AgesOnly s (f a s)) (l : List α) (s : State) :
    AgesOnly s (forEach l f s) := forEach_related AgesOnly.refl AgesOnly.trans h l s

theorem of_still (ages : Ages false s t) (still : t.still = s.still) : AgesOnly s t :=
  ⟨ages, (congrArg State.service still :), still_endpoint still, still_gate still⟩

/-- What changes neither a zone nor an endpoint, gate, call or fault record. -/
theorem of_same (now : t.now = s.now) (service : t.service = s.service) (config : t.config = s.config) (zones : t.zones = s.zones)
    (endpoints : t.endpoints = s.endpoints) (gates : t.gates = s.gates) (calls : t.calls = s.calls) (faults : t.faults = s.faults) :
    AgesOnly s t :=
  ⟨.of_same now config zones calls faults, service, fun e => congrArg (fun v : Vector Endpoint 48 => v[e].still) endpoints,
    fun g => congrArg (fun v : Vector Gate 2 => v[g].still) gates⟩

end AgesOnly

/-! ### Before the millisecond event (R96, R135) -/

/-- An observation of the part or of a loop record. -/
theorem observe_agesOnly {f : FaultRef} (other : ∀ e k, f ≠ .endpoint e k) (b : Bool) (s : State) : AgesOnly s (observe f b s) :=
  .of_still (observe_ages (fun e k same => absurd same (other e k)) b s) (observe_still s f b)

theorem lockA_agesOnly (s : State) : AgesOnly s (lockA s) := by
  have locked : AgesOnly s { s with portA := .locked } := .of_same rfl rfl rfl rfl rfl rfl rfl rfl
  unfold lockA
  split
  · exact locked.trans (observe_agesOnly (fun e k => FaultRef.noConfusion) false _)
  · exact locked

theorem sourceLoss_ages (s : State) : Ages false s (sourceLoss s) := by
  refine .forEach (fun c u => ?_) allCalls s
  split
  · next live => exact enterTail_ages (.inr live.1) _
  · exact .refl u

theorem loseA_agesOnly (s : State) : AgesOnly s (loseA s) := by
  have lost : AgesOnly s { s with portA := .lost } := .of_same rfl rfl rfl rfl rfl rfl rfl rfl
  have seen := lost.trans (observe_agesOnly (f := consoleLinkLostRef) (fun e k => FaultRef.noConfusion) true _)
  exact seen.trans (.of_still (sourceLoss_ages _) (sourceLoss_still _))

theorem observe_call_device {k : Fin 3} (b : Bool) (s : State) (c : CallId) : (observe (.device k) b s).call c = s.call c := by
  refine observe_induction (P := fun v => v.call c = s.call c) (f := .device k) rfl (fun _ => rfl) (fun v flags st a n h => ?_)
    (fun v p st r y target => ?_) (fun v y concerned => ?_) b
  · unfold faultEvent
    rw [pushEvent_eq]
    exact h
  · exact nomatch (show none = some y from target)
  · exact nomatch (show none = some y from concerned)

/-- A LIVE call in its live part at the loss of port A. -/
theorem loseA_call {slot : Fin 64} {pre : Option MessageId} (playing : (s.call c).state = .playing) (source : (s.call c).source = .live slot pre)
    (begun : (s.call c).liveBegun = true) :
    (loseA s).call c = {} ∨ ((loseA s).call c).state = .tail ∧ ((loseA s).call c).outcome = some .sourceLost := by
  have record : (observe consoleLinkLostRef true { s with portA := .lost }).call c = s.call c := observe_call_device true _ c
  unfold loseA
  rw [sourceLoss_call, record, if_pos ⟨playing, begun, isStored_live source⟩]
  split
  · exact .inl rfl
  · exact .inr ⟨rfl, rfl⟩

/-! ### After the millisecond event (R5, R54, R72, R140) -/

theorem mixEvent_settings_idleDeadline (ing : List (List Int)) (mixes : List (Option ZoneMix)) (s : State) (z : ZoneId) :
    ((mixEvent ing mixes s).zone z).settings = (s.zone z).settings ∧
    ((mixEvent ing mixes s).zone z).idleDeadline = (s.zone z).idleDeadline := by
  rw [mixEvent_zone]
  cases mixOf mixes z with
  | none => exact ⟨rfl, rfl⟩
  | some m => exact ⟨rfl, rfl⟩

theorem mixEvent_agesOnly (ing : List (List Int)) (mixes : List (Option ZoneMix)) (s : State) : AgesOnly s (mixEvent ing mixes s) where
  ages := ⟨.of_deadlines rfl (fun z => (mixEvent_settings_idleDeadline ing mixes s z).1) (fun z => (mixEvent_settings_idleDeadline ing mixes s z).2) fun _ h => h,
    .of_same rfl, .of_same rfl rfl⟩
  service := rfl
  endpoint _ := rfl
  gate _ := rfl

theorem agcStep_agesOnly (h : HandOff) (z : ZoneId) (s : State) : AgesOnly s (agcStep h z s) := by
  unfold agcStep
  split
  · split
    · next l _ =>
      have stepped : ∀ f, AgesOnly s (modLoop l f s) := fun f => .of_same rfl rfl rfl rfl rfl rfl rfl rfl
      exact (stepped _).trans ((observe_agesOnly (fun e k => FaultRef.noConfusion) _ _).trans
        (observe_agesOnly (fun e k => FaultRef.noConfusion) _ _))
    · exact .refl s
  · exact .refl s

theorem voxTest_agesOnly (z : ZoneId) (s : State) : AgesOnly s (voxTest z s) := by
  unfold voxTest
  split
  · cases s.descOf z with
    | none => exact .refl s
    | some d => exact .of_same rfl rfl rfl rfl rfl rfl rfl rfl
  · exact .refl s

theorem afterMixSteps_agesOnly (h : HandOff) (mixes : List (Option ZoneMix)) (s : State) : AgesOnly s (afterMixSteps h mixes s) := by
  refine .forEach (fun z u => ?_) allZones s
  split
  · exact (agcStep_agesOnly h z u).trans (voxTest_agesOnly z _)
  · exact .refl u

theorem sendDown_agesOnly (header : Header) (slots : List (List WireSample)) (area : List Record) (s : State) :
    AgesOnly s (sendDown header slots area s) := .of_same rfl rfl rfl rfl rfl rfl rfl rfl

/-- What follows the millisecond event of a downstream frame. -/
theorem downstream_agesOnly (header : Header) (arrived : Option (List (List WireSample))) (area : List Record) (order : List MsTask)
    (s : State) : AgesOnly (millisecond header.number (ingressOf arrived) order s).1 (downstream header arrived area order s) := by
  obtain ⟨p, hp⟩ : ∃ p, p = millisecond header.number (ingressOf arrived) order s := ⟨_, rfl⟩
  unfold downstream
  simp only
  rw [← hp]
  have mixed := (mixEvent_agesOnly (ingressOf arrived) (p.1.zoneMixes (ingressOf arrived) p.2) p.1).trans
    (afterMixSteps_agesOnly p.2 (p.1.zoneMixes (ingressOf arrived) p.2) _)
  exact mixed.trans (sendDown_agesOnly _ _ _ _)

theorem generatedFrame_agesOnly (order : List MsTask) (s : State) : ∃ (n : BitVec 16) (ing : List (List Int)),
    AgesOnly (millisecond n ing order s).1 (generatedFrame order s) := ⟨_, _, downstream_agesOnly _ none emptyArea order s⟩

/-! ### The frame rows (R133 to R136) -/

/-- The events at which a downstream frame begins while no soft reset is due and no record for the part comes with it (R135, R136). -/
def BeginsFrame (s : State) (order : List MsTask) (i : Instr) : Prop :=
  (∃ f, (∀ r ∈ f.records, recordFor s.node r = false) ∧ i = .downstreamFrameArrival f order) ∨
    i = .badFrame order ∧ s.portA = .locked ∨ i = .localTimingFrame order ∧ s.portA = .lost ∨ i = .portASilence order ∧ s.portA ≠ .lost

theorem serve_downstream (header : Header) (arrived : Option (List (List WireSample))) (area : List Record) (order : List MsTask)
    (commands : s.cmdQueue = []) (cues : s.cueQueue = []) :
    serve (downstream header arrived area order s) = downstream header arrived area order s := by
  obtain ⟨-, -, -, cmdQueue, cueQueue, -⟩ := settled_shares (downstream_settled s header arrived area order)
  exact serve_empty (cmdQueue.trans commands) (cueQueue.trans cues)

theorem localTiming_eq {order : List MsTask} (due : s.softResetDue = false) (commands : s.cmdQueue = []) (cues : s.cueQueue = []) :
    localTiming order s = generatedFrame order s := by
  unfold localTiming
  rw [if_neg (by rw [due]; decide)]
  exact serve_downstream _ _ _ _ commands cues

/-- A frame is a millisecond event with steps that are no timer's before and after it; at the loss of port A it begins from that. -/
theorem frame_runs {order : List MsTask} {i : Instr} (commands : s.cmdQueue = []) (cues : s.cueQueue = [])
    (due : s.softResetFlag = false ∨ s.replies ≠ []) (begins : BeginsFrame s order i) (run : exec i s = .next t) :
    ∃ (v : State) (n : BitVec 16) (ing : List (List Int)), AgesOnly s v ∧ (i = .portASilence order → v = loseA s) ∧
      AgesOnly (millisecond n ing order v).1 t := by
  have notDue : s.softResetDue = false := by
    unfold State.softResetDue
    rcases due with off | waits
    · rw [off]; rfl
    · simp [waits]
  rcases begins with ⟨f, foreign, rfl⟩ | ⟨rfl, locked⟩ | ⟨rfl, lost⟩ | ⟨rfl, held⟩
  · obtain ⟨faults, alert, eq⟩ := lockA_eq s
    have taken : intakeA f.records (lockA s) = lockA s := intakeA_none _ _ (by rw [eq]; exact foreign)
    have ends : t = downstream f.header (some f.slots) (freed s.node f.records) order (lockA s) := by
      refine (Host.Outcome.next.inj run).symm.trans ?_
      rw [resetBeforeFrame, if_neg (by rw [notDue]; decide), frameFromA, taken]
      exact serve_downstream _ _ _ _ (by rw [eq]; exact commands) (by rw [eq]; exact cues)
    exact ⟨lockA s, _, _, lockA_agesOnly s, fun h => (nomatch h), ends.symm ▸ downstream_agesOnly _ _ _ _ _⟩
  · have ends : t = generatedFrame order s := by
      refine (Host.Outcome.next.inj run).symm.trans ?_
      rw [if_pos locked]
      exact serve_downstream _ _ _ _ commands cues
    obtain ⟨n, ing, after⟩ := generatedFrame_agesOnly order s
    exact ⟨s, n, ing, .refl s, fun h => (nomatch h), ends.symm ▸ after⟩
  · have ends : t = generatedFrame order s := by
      refine (Host.Outcome.next.inj run).symm.trans ?_
      rw [if_pos lost]
      exact localTiming_eq notDue commands cues
    obtain ⟨n, ing, after⟩ := generatedFrame_agesOnly order s
    exact ⟨s, n, ing, .refl s, fun h => (nomatch h), ends.symm ▸ after⟩
  · have still : (loseA s).still = ({ s with portA := .lost } : State).still := (sourceLoss_still _).trans (observe_still _ _ _)
    obtain ⟨-, -, -, -, -, replies, -, -, -, cmdQueue, cueQueue, -, -, -, flag, -⟩ := still_shares still
    have notDue' : (loseA s).softResetDue = false := by
      unfold State.softResetDue at notDue ⊢
      rw [flag, replies]
      exact notDue
    have ends : t = generatedFrame order (loseA s) := by
      refine (Host.Outcome.next.inj run).symm.trans ?_
      rw [if_neg held]
      exact localTiming_eq notDue' (cmdQueue.trans commands) (cueQueue.trans cues)
    obtain ⟨n, ing, after⟩ := generatedFrame_agesOnly order (loseA s)
    exact ⟨loseA s, n, ing, loseA_agesOnly s, fun _ => rfl, ends.symm ▸ after⟩

end

end Sys2Proof.Machine
end

section
/-! What each timer makes of its own subject at the millisecond event (R37, R40, R97, R99, R109, R121, R123, R133). -/

namespace Sys2Proof.Machine

section
variable {s t u v : State} {z : ZoneId} {c : CallId} {e : EndpointId} {g : GateId} {f : FaultRef} {ing : List (List Int)} {n : BitVec 16}
  {order : List MsTask}

theorem tickRetries_moment (n : BitVec 16) (v : State) : SameMoment (beginFrame n v) (tickRetries (beginFrame n v)) :=
  ⟨rfl, settled_of_still (tickRetries_still _)⟩

/-! ### Silent endpoints (R37) -/

theorem endpointSilent_congr (record : (t.endpoint e).still = (s.endpoint e).still) (now : t.now = s.now) (config : t.config = s.config) :
    t.endpointSilent e = s.endpointSilent e := by
  have used : (t.endpoint e).inUse = (s.endpoint e).inUse := (congrArg Endpoint.inUse record :)
  have presence : (t.endpoint e).presence = (s.endpoint e).presence := (congrArg Endpoint.presence record :)
  have last : (t.endpoint e).lastTelemetry = (s.endpoint e).lastTelemetry := (congrArg Endpoint.lastTelemetry record :)
  unfold State.endpointSilent
  rw [used, presence, last, now, config]

theorem leave_still {r q : Endpoint} (h : r.still = q.still) : r.leave.still = q.leave.still :=
  (congrArg (fun x => Endpoint.still (Endpoint.leave x)) h : _)

theorem presenceTest_endpoint (serving : s.service = .service) (x e : EndpointId) : ((presenceTest x s).endpoint e).still =
    if e = x ∧ s.endpointSilent e = true then (s.endpoint e).leave.still else (s.endpoint e).still := by
  have left : ((modEndpoint x Endpoint.leave s).endpoint e).still = if e = x then (s.endpoint e).leave.still else (s.endpoint e).still := by
    rw [modEndpoint_endpoint]
    split
    · next same => rw [same]
    · rfl
  by_cases silent : s.endpointSilent x = true
  · have record : ((presenceTest x s).endpoint e).still = ((modEndpoint x Endpoint.leave s).endpoint e).still := by
      rw [presenceTest_silent serving silent]
      split
      · exact still_endpoint (loseEndpoint_still _ x) e
      · rfl
    rw [record, left]
    by_cases same : e = x
    · rw [if_pos same, if_pos ⟨same, same ▸ silent⟩]
    · rw [if_neg same, if_neg fun h => same h.1]
  · rw [presenceTest_quiet (.inr (Bool.not_eq_true _ ▸ silent)), if_neg]
    rintro ⟨rfl, loud⟩
    exact silent loud

theorem presenceTest_moment (x : EndpointId) (h : SameMoment s u) : SameMoment s (presenceTest x u) :=
  ⟨(presenceTest_ages (walks := false) x u).idles.now.trans h.now, (presenceTest_settled u x).trans h.settled⟩

/-- Each endpoint after the millisecond event. -/
theorem millisecond_endpoint (serving : v.service = .service) (e : EndpointId) :
    ((millisecond n ing order v).1.endpoint e).still =
      if (beginFrame n v).endpointSilent e then (v.endpoint e).leave.still else (v.endpoint e).still := by
  have turn : ∀ u, (SameMoment (beginFrame n v) u ∧ (u.endpoint e).still = (v.endpoint e).still) →
      ((presenceTest e u).endpoint e).still =
        if (beginFrame n v).endpointSilent e then (v.endpoint e).leave.still else (v.endpoint e).still := by
    rintro u ⟨moment, record⟩
    rw [presenceTest_endpoint (moment.service.trans serving), endpointSilent_congr (s := beginFrame n v) record moment.now moment.config,
      leave_still record, record]
    simp
  refine millisecond_once .presence (Pre := fun u => SameMoment (beginFrame n v) u ∧ (u.endpoint e).still = (v.endpoint e).still)
    (Post := fun u => (u.endpoint e).still = _) n ing order ⟨tickRetries_moment n v, rfl⟩
    (fun x u other h => ⟨h.1.runBlock ing x, (runBlock_endpoint ing other e u).trans h.2⟩) (fun u h => ?_)
    (fun x u other h => (runBlock_endpoint ing other e u).trans h)
  rw [runBlock_presence]
  refine (forEach_once (List.nodup_finRange 48) (List.mem_finRange e)
    (Pre := fun u => SameMoment (beginFrame n v) u ∧ (u.endpoint e).still = (v.endpoint e).still)
    (Post := fun u => SameMoment (beginFrame n v) u ∧ (u.endpoint e).still = _)
    (fun x u ne h => ⟨presenceTest_moment x h.1, ?_⟩) (fun u h => ⟨presenceTest_moment e h.1, turn u h⟩)
    (fun x u ne h => ⟨presenceTest_moment x h.1, ?_⟩) h).2
  · rw [presenceTest_endpoint (h.1.service.trans serving), if_neg fun both => ne both.1.symm]
    exact h.2
  · rw [presenceTest_endpoint (h.1.service.trans serving), if_neg fun both => ne both.1.symm]
    exact h.2

/-! ### Idle deadlines (R40) -/

theorem idleTest_deadline (serving : s.service = .service) (x z : ZoneId) : ((idleTest x s).zone z).idleDeadline =
    if z = x ∧ (∃ d, (s.zone z).idleDeadline = some d ∧ d ≤ s.now) then none else (s.zone z).idleDeadline := by
  have cleared : ((recommandZone x (modZone x (fun r => { r with idleDeadline := none }) s)).zone z).idleDeadline =
      if z = x then none else (s.zone z).idleDeadline := by
    obtain ⟨_, _, eq⟩ := recommandZone_eq x (modZone x (fun r => { r with idleDeadline := none }) s)
    rw [eq]
    show ((modZone x (fun r => { r with idleDeadline := none }) s).zone z).idleDeadline = _
    rw [modZone_zone]
    split <;> rfl
  by_cases due : ∃ d, (s.zone x).idleDeadline = some d ∧ d ≤ s.now
  · obtain ⟨d, deadline, past⟩ := due
    rw [idleTest_due serving deadline past, cleared]
    by_cases same : z = x
    · rw [if_pos same, if_pos ⟨same, d, same ▸ deadline, past⟩]
    · rw [if_neg same, if_neg fun h => same h.1]
  · have quiet : idleTest x s = s := by
      cases deadline : (s.zone x).idleDeadline with
      | none => unfold idleTest; rw [deadline]; exact ite_self s
      | some d => exact idleTest_quiet deadline (.inr (Nat.lt_of_not_le fun past => due ⟨d, deadline, past⟩))
    rw [quiet, if_neg]
    rintro ⟨rfl, h⟩
    exact due h

theorem idleTest_moment (x : ZoneId) (h : SameMoment s u) : SameMoment s (idleTest x u) :=
  ⟨(still_now (idleTest_still u x)).trans h.now, (settled_of_still (idleTest_still u x)).trans h.settled⟩

theorem SameMoment.zone (h : SameMoment s u) (z : ZoneId) : (u.zone z).settings = (s.zone z).settings := by
  have entry : u.zones.map Zone.settings = s.zones.map Zone.settings := (congrArg State.zones h.settled :)
  simpa [State.zone] using congrArg (fun x : Vector Zone 32 => x[z]) entry

/-- No idle deadline of a zone lies at the present moment or before it. -/
def State.NoneIdle (s : State) (z : ZoneId) : Prop := ∀ d, (s.zone z).idleDeadline = some d → s.now < d

theorem Idles.noneIdle (h : Idles s t) (lasting : 1 ≤ (s.zone z).idleTime) (ahead : s.NoneIdle z) : t.NoneIdle z := by
  intro d hd
  rw [h.now]
  rcases h.deadline z with same | new
  · exact ahead d (same.symm.trans hd)
  · rw [released_idleDeadline, hd] at new
    split at new
    · obtain rfl := Option.some.inj new
      omega
    · exact ahead d new.symm

/-- After the millisecond event no idle deadline that has passed is left. -/
theorem millisecond_noneIdle (serving : v.service = .service) (lasting : 1 ≤ (v.zone z).idleTime) : (millisecond n ing order v).1.NoneIdle z := by
  have lasts : ∀ u, SameMoment (beginFrame n v) u → 1 ≤ (u.zone z).idleTime := fun u moment => by
    have time : (u.zone z).idleTime = (v.zone z).idleTime := (congrArg Zone.idleTime (moment.zone z) :)
    rw [time]
    exact lasting
  refine (millisecond_once .idle (Pre := SameMoment (beginFrame n v)) (Post := fun u => SameMoment (beginFrame n v) u ∧ u.NoneIdle z)
    n ing order (tickRetries_moment n v) (fun x u _ h => h.runBlock ing x) (fun u h => ⟨h.runBlock ing .idle, ?_⟩)
    (fun x u other h => ⟨h.1.runBlock ing x, (runBlock_idles ing other u).noneIdle (lasts u h.1) h.2⟩)).2
  rw [runBlock_idle]
  refine (forEach_once (List.nodup_finRange 32) (List.mem_finRange z) (Pre := SameMoment (beginFrame n v))
    (Post := fun u => SameMoment (beginFrame n v) u ∧ u.NoneIdle z) (fun x u _ h => idleTest_moment x h)
    (fun u h => ⟨idleTest_moment z h, fun d hd => ?_⟩) (fun x u ne h => ⟨idleTest_moment x h.1, fun d hd => ?_⟩) h).2
  · rw [idleTest_deadline (h.service.trans serving)] at hd
    rw [still_now (idleTest_still u z)]
    split at hd
    · exact nomatch hd
    · next ahead => exact Nat.lt_of_not_le fun due => ahead ⟨rfl, d, hd, due⟩
  · rw [idleTest_deadline (h.1.service.trans serving), if_neg fun both => ne both.1.symm] at hd
    rw [still_now (idleTest_still u x)]
    exact h.2 d hd

/-- While no call is in progress an idle deadline ahead stays. -/
theorem millisecond_idle_kept (serving : v.service = .service) {d : Nat} (free : ∀ x, (v.call x).state = .free)
    (deadline : (v.zone z).idleDeadline = some d) (ahead : v.now + 1 < d) : ((millisecond n ing order v).1.zone z).idleDeadline = some d := by
  have still : ∀ u, SameMoment (beginFrame n v) u → (u.zone z).idleDeadline = some d → ∀ x, ((idleTest x u).zone z).idleDeadline = some d :=
    fun u moment here x => by
      rw [idleTest_deadline (moment.service.trans serving), if_neg]
      · exact here
      · rintro ⟨-, d', eq, due⟩
        rw [here] at eq
        have now : u.now = v.now + 1 := moment.now
        have same := Option.some.inj eq
        omega
  refine (millisecond_once .idle
    (Pre := fun u => SameMoment (beginFrame n v) u ∧ (∀ x, (u.call x).state = .free) ∧ (u.zone z).idleDeadline = some d)
    (Post := fun u => SameMoment (beginFrame n v) u ∧ (∀ x, (u.call x).state = .free) ∧ (u.zone z).idleDeadline = some d)
    n ing order ⟨tickRetries_moment n v, free, deadline⟩ (fun x u other h => ?_) (fun u h => ?_) (fun x u other h => ?_)).2.2
  · have idles := runBlock_idles ing other u
    exact ⟨h.1.runBlock ing x, fun y => idles.free y (h.2.1 y), (idles.idle h.2.1 z).trans h.2.2⟩
  · refine ⟨h.1.runBlock ing .idle, fun y => (runBlock_calls ing (by decide) u).free y (h.2.1 y), ?_⟩
    rw [runBlock_idle]
    have kept : ∀ l u, SameMoment (beginFrame n v) u → (u.zone z).idleDeadline = some d →
        ((forEach l idleTest u).zone z).idleDeadline = some d := by
      intro l
      induction l with
      | nil => exact fun u _ h => h
      | cons x l ih => exact fun u moment here => ih _ (idleTest_moment x moment) (still u moment here x)
    exact kept allZones u h.1 h.2.2
  · have idles := runBlock_idles ing other u
    exact ⟨h.1.runBlock ing x, fun y => idles.free y (h.2.1 y), (idles.idle h.2.1 z).trans h.2.2⟩

/-! ### Admission windows (R109) -/

theorem closeGate_gate (g x : GateId) (d : GateState) (s : State) : ((closeGate g d s).gate x).still =
    if x = g then ((s.gate g).shut d s.now).still else (s.gate x).still := by
  unfold closeGate
  rw [still_gate (cancelAdmission_still _ g), still_gate (issueLights_still _ g false), modGate_gate]
  split <;> rfl

/-- Whether the window of a gate has ended. -/
def State.windowOver (s : State) (g : GateId) : Prop := ∃ d, (s.gate g).state = .open_ ∧ (s.gate g).windowDeadline = some d ∧ d ≤ s.now

theorem windowOver_congr (record : (t.gate g).still = (s.gate g).still) (now : t.now = s.now) : t.windowOver g ↔ s.windowOver g := by
  have state : (t.gate g).state = (s.gate g).state := (congrArg Gate.state record :)
  have deadline : (t.gate g).windowDeadline = (s.gate g).windowDeadline := (congrArg Gate.windowDeadline record :)
  unfold State.windowOver
  rw [state, deadline, now]

theorem windowTest_over (ended : s.windowOver g) : windowTest g s = closeGate g .closed s := by
  obtain ⟨d, state, deadline, due⟩ := ended
  unfold windowTest
  rw [if_pos state, deadline]
  exact if_pos due

theorem windowTest_quiet (early : ¬ s.windowOver g) : windowTest g s = s := by
  unfold windowTest
  split
  · next state =>
    split
    · next d deadline => exact if_neg fun due => early ⟨d, state, deadline, due⟩
    · rfl
  · rfl

theorem windowTest_moment (g : GateId) (h : SameMoment s u) : SameMoment s (windowTest g u) :=
  ⟨(windowTest_ages (walks := false) g u).idles.now.trans h.now, (windowTest_settled u g).trans h.settled⟩

theorem windowTest_gate_other {x : GateId} (ne : g ≠ x) : ((windowTest x s).gate g).still = (s.gate g).still := by
  by_cases ended : s.windowOver x
  · rw [windowTest_over ended, closeGate_gate, if_neg ne]
  · rw [windowTest_quiet ended]

theorem mem_gates (g : GateId) : g ∈ ([0, 1] : List GateId) := by
  revert g
  decide

/-- A gate after the millisecond event: where its window has ended, and where not. -/
theorem millisecond_gate (g : GateId) :
    ((beginFrame n v).windowOver g → ((millisecond n ing order v).1.gate g).still = ((v.gate g).shut .closed (v.now + 1)).still) ∧
    (¬ (beginFrame n v).windowOver g → ((millisecond n ing order v).1.gate g).still = (v.gate g).still) := by
  have run : ∀ r : Gate, (∀ u, SameMoment (beginFrame n v) u → (u.gate g).still = (v.gate g).still → ((windowTest g u).gate g).still = r) →
      ((millisecond n ing order v).1.gate g).still = r := fun r own => by
    refine millisecond_once .windows (Pre := fun u => SameMoment (beginFrame n v) u ∧ (u.gate g).still = (v.gate g).still)
      (Post := fun u => (u.gate g).still = r) n ing order ⟨tickRetries_moment n v, rfl⟩
      (fun x u other h => ⟨h.1.runBlock ing x, (runBlock_gate ing other g u).trans h.2⟩) (fun u h => ?_)
      (fun x u other h => (runBlock_gate ing other g u).trans h)
    rw [runBlock_windows]
    refine forEach_once (l := [0, 1]) (a := g) (by decide) (mem_gates g)
      (Pre := fun u => SameMoment (beginFrame n v) u ∧ (u.gate g).still = (v.gate g).still) (Post := fun u => (u.gate g).still = r)
      (fun x u ne h => ⟨windowTest_moment x h.1, (windowTest_gate_other (Ne.symm ne)).trans h.2⟩) (fun u h => own u h.1 h.2)
      (fun x u ne h => (windowTest_gate_other (Ne.symm ne)).trans h) h
  refine ⟨fun ended => run _ fun u moment record => ?_, fun early => run _ fun u moment record => ?_⟩
  · rw [windowTest_over ((windowOver_congr (s := beginFrame n v) record moment.now).mpr ended), closeGate_gate, if_pos rfl]
    have now : u.now = v.now + 1 := moment.now
    rw [now]
    exact (congrArg (fun x : Gate => (x.shut .closed (v.now + 1)).still) record : _)
  · rw [windowTest_quiet fun ended => early ((windowOver_congr (s := beginFrame n v) record moment.now).mp ended)]
    exact record

end

end Sys2Proof.Machine
end

section
/-! Fault records and calls at the millisecond event (R90, R94, R97, R99, R121, R123), and the whole frame. -/

namespace Sys2Proof.Machine

section
variable {s t u v : State} {c : CallId} {f : FaultRef} {ing : List (List Int)} {n : BitVec 16} {order : List MsTask}

/-! ### The two fault timers (R121, R123) -/

/-- The record that the expiry of a retry timer leaves (R123). -/
def State.expired (s : State) (f : FaultRef) : FaultRecord :=
  if (s.fault f).lastPresent then
    { s.fault f with retryRemaining := some ((match (s.fault f).inForce with
      | some i => i.retryTime
      | none => 0) * 100) }
  else { s.fault f with state := .clear, deglitch := 0, inForce := none, retryRemaining := none, lastRecovery := some s.now }

theorem expireRetry_fault (f x : FaultRef) (s : State) : (expireRetry f s).fault x = if x = f then s.expired f else s.fault x := by
  have put : ∀ r, (setFault f r s).fault x = if x = f then r else s.fault x := fun r => setFault_fault _ _ _ _
  unfold expireRetry State.expired
  simp only
  split
  · exact put _
  · refine Eq.trans (congrArg (fun v : FaultTable => v.get x) ?_) (put _)
    rw [whenSome_faults fun z u => (deriveProtection_spec z u).1, faultEvent_faults]

theorem escalationTests_fault (f : FaultRef) (s : State) :
    (escalationTests s).fault f = if (s.fault f).escalationOver s.now then (s.fault f).endRun else s.fault f := faultTable_get_map _ _ _

theorem tickRetries_fault (f : FaultRef) (s : State) : (tickRetries s).fault f = (s.fault f).tickRetry := faultTable_get_map _ _ _

theorem escalationOver_raised {r : FaultRecord} (raised : r.state.raised = true) (now : Nat) : r.escalationOver now = false := by
  cases h : r.state <;> simp_all [FaultRecord.escalationOver, FaultState.raised]

theorem allFaults_nodup : allFaults.Nodup := by
  have pairs : ∀ {m k : Nat} (ref : Fin m → Fin k → FaultRef), (∀ a b x y, ref a x = ref b y → a = b ∧ x = y) →
      ((List.finRange m).flatMap fun a => (List.finRange k).map (ref a)).Nodup := fun ref inj => by
    rw [List.nodup_flatMap]
    refine ⟨fun a _ => (List.nodup_finRange _).map fun x y h => (inj _ _ _ _ h).2, ?_⟩
    refine (List.nodup_finRange _).imp fun {a b} ne r ha hb => ?_
    obtain ⟨x, -, rfl⟩ := List.mem_map.mp ha
    obtain ⟨y, -, eq⟩ := List.mem_map.mp hb
    exact ne (inj _ _ _ _ eq).1.symm
  unfold allFaults
  refine List.nodup_append.mpr ⟨List.nodup_append.mpr ⟨pairs _ fun a b x y h => FaultRef.endpoint.inj h,
    pairs _ fun a b x y h => FaultRef.loop.inj h, ?_⟩, (List.nodup_finRange 3).map fun x y h => FaultRef.device.inj h, ?_⟩
  · rintro a ha b hb rfl
    simp only [List.mem_flatMap, List.mem_map] at ha hb
    obtain ⟨_, -, _, -, rfl⟩ := ha
    obtain ⟨_, -, _, -, eq⟩ := hb
    exact nomatch eq
  · rintro a ha b hb rfl
    simp only [List.mem_append, List.mem_flatMap, List.mem_map] at ha hb
    obtain ⟨_, -, rfl⟩ := hb
    rcases ha with ⟨_, -, _, -, eq⟩ | ⟨_, -, _, -, eq⟩
    · exact nomatch eq
    · exact nomatch eq

theorem retryTests_other (waits : (s.fault f).retryDone = false) : (retryTests s).fault f = s.fault f := by
  have kept : ∀ (l : List FaultRef) (u : State), f ∉ l → (forEach l expireRetry u).fault f = u.fault f := by
    intro l
    induction l with
    | nil => exact fun _ _ => rfl
    | cons x l ih =>
      intro u out
      rw [List.mem_cons, not_or] at out
      rw [forEach_cons, ih _ out.2, expireRetry_fault, if_neg out.1]
  refine kept _ s fun here => ?_
  have done := (List.mem_filter.mp here).2
  rw [waits] at done
  exact nomatch done

theorem expired_congr (record : t.fault f = s.fault f) (now : t.now = s.now) : t.expired f = s.expired f := by
  unfold State.expired
  rw [record, now]

theorem expired_ticked {left : Option Nat} (record : t.fault f = { s.fault f with retryRemaining := left }) (now : t.now = s.now) :
    t.expired f = s.expired f := by
  unfold State.expired
  rw [record, now]

/-- A record whose retry timer has expired is in no escalation run that could end. -/
theorem expired_fresh (raised : (s.fault f).state.raised = true) : (s.expired f).escalationOver s.now = false := by
  unfold State.expired
  split
  · exact escalationOver_raised raised _
  · simp [FaultRecord.escalationOver, Config.escalationTime]

theorem retryTests_done (done : (s.fault f).retryDone = true) : (retryTests s).fault f = s.expired f := by
  refine forEach_once (allFaults_nodup.filter _) (List.mem_filter.mpr ⟨mem_allFaults f, done⟩)
    (Pre := fun u => u.fault f = s.fault f ∧ u.now = s.now) (Post := fun u => u.fault f = s.expired f) (fun x u ne h => ?_)
    (fun u h => ?_) (fun x u ne h => ?_) ⟨rfl, rfl⟩
  · rw [expireRetry_fault, if_neg (Ne.symm ne), still_now (expireRetry_still u x)]
    exact h
  · rw [expireRetry_fault, if_pos rfl]
    exact expired_congr h.1 h.2
  · rw [expireRetry_fault, if_neg (Ne.symm ne)]
    exact h

/-- A record that has not recovered, or not for 10,000 ms, where that counts. -/
def FaultRecord.Young (r : FaultRecord) (now : Nat) : Prop := r.state.raised = false → ∀ q, r.lastRecovery = some q → now - q < 10000

theorem young_of_escalationTest (r : FaultRecord) (now : Nat) : (if r.escalationOver now then r.endRun else r).Young now := by
  intro down q recovery
  split at recovery
  · exact nomatch recovery
  · next fresh =>
    rw [if_neg fresh] at down
    have state : r.state = .clear ∨ r.state = .counting := by cases h : r.state <;> simp_all [FaultState.raised]
    refine Nat.lt_of_not_le fun old => fresh ?_
    unfold FaultRecord.escalationOver
    rw [recovery]
    rcases state with h | h <;> rw [h] <;> exact decide_eq_true old

theorem FaultRecord.Looks.young {r q : FaultRecord} {now : Nat} (h : r.Looks q) (young : r.Young now) : q.Young now := by
  intro down last recovery
  have before : r.state.raised = false := by
    rw [← Bool.not_eq_true]
    intro up
    rw [h.state up, up] at down
    exact nomatch down
  exact young before last ((h.recovery down).symm.trans recovery)

theorem expired_young (h : (s.fault f).Young s.now) : (s.expired f).Young s.now := by
  unfold State.expired
  split
  · exact h
  · intro _ q recovery
    obtain rfl := Option.some.inj recovery
    omega

theorem expireRetry_moment (f : FaultRef) (h : SameMoment s u) : SameMoment s (expireRetry f u) :=
  ⟨(still_now (expireRetry_still u f)).trans h.now, (settled_of_still (expireRetry_still u f)).trans h.settled⟩

theorem expireRetry_young (f x : FaultRef) (h : (s.fault x).Young s.now) : ((expireRetry f s).fault x).Young s.now := by
  rw [expireRetry_fault]
  split
  · next same => exact expired_young (same ▸ h)
  · exact h

/-- After the millisecond event no record is left whose recovery lies 10,000 ms back. -/
theorem millisecond_young (f : FaultRef) : ((millisecond n ing order v).1.fault f).Young (v.now + 1) := by
  refine (millisecond_once .escalation (Pre := SameMoment (beginFrame n v))
    (Post := fun u => SameMoment (beginFrame n v) u ∧ (u.fault f).Young (v.now + 1)) n ing order (tickRetries_moment n v)
    (fun x u _ h => h.runBlock ing x) (fun u h => ⟨h.runBlock ing .escalation, ?_⟩) (fun x u other h => ⟨h.1.runBlock ing x, ?_⟩)).2
  · have now : u.now = v.now + 1 := h.now
    rw [runBlock_escalation, escalationTests_fault, now]
    exact young_of_escalationTest _ _
  · by_cases retry : x = .retry
    · subst retry
      rw [runBlock_retry]
      have kept : ∀ l u, SameMoment (beginFrame n v) u → (u.fault f).Young (v.now + 1) → ((forEach l expireRetry u).fault f).Young (v.now + 1) := by
        intro l
        induction l with
        | nil => exact fun u _ h => h
        | cons x l ih =>
          intro u moment young
          have now : u.now = v.now + 1 := moment.now
          refine ih _ (expireRetry_moment x moment) ?_
          rw [← now]
          exact expireRetry_young x f (now.symm ▸ young)
      exact kept _ u h.1 h.2
    · exact ((runBlock_looks ing other retry u).record f).young h.2

/-- A retry timer that has not run out at the millisecond event. -/
theorem millisecond_retry_early {m : Nat} (state : (v.fault f).state = .retryWait) (left : (v.fault f).retryRemaining = some m) (early : 1 < m) :
    ((millisecond n ing order v).1.fault f).state = .retryWait ∧ ((millisecond n ing order v).1.fault f).retryRemaining = some (m - 1) := by
  have keeps : ∀ {r q : FaultRecord}, r.Looks q → r.state = .retryWait ∧ r.retryRemaining = some (m - 1) →
      q.state = .retryWait ∧ q.retryRemaining = some (m - 1) := fun looks h => by
    rw [looks.raised (by rw [h.1]; rfl)]
    exact h
  have escalates : ∀ u, (u.fault f).state = .retryWait ∧ (u.fault f).retryRemaining = some (m - 1) →
      (runBlock ing .escalation u).fault f = u.fault f := fun u h => by
    rw [runBlock_escalation, escalationTests_fault, escalationOver_raised (by rw [h.1]; rfl)]
    rfl
  have retries : ∀ u, (u.fault f).state = .retryWait ∧ (u.fault f).retryRemaining = some (m - 1) →
      (runBlock ing .retry u).fault f = u.fault f := fun u h => by
    have notDone : (u.fault f).retryDone = false := by
      unfold FaultRecord.retryDone
      rw [h.2]
      have later : m - 1 ≠ 0 := by omega
      simp [later]
    rw [runBlock_retry]
    exact retryTests_other notDone
  have block : ∀ x u, (u.fault f).state = .retryWait ∧ (u.fault f).retryRemaining = some (m - 1) →
      ((runBlock ing x u).fault f).state = .retryWait ∧ ((runBlock ing x u).fault f).retryRemaining = some (m - 1) := fun x u h => by
    by_cases escalation : x = .escalation
    · rw [escalation, escalates u h]; exact h
    by_cases retry : x = .retry
    · rw [retry, retries u h]; exact h
    exact keeps ((runBlock_looks ing escalation retry u).record f) h
  refine millisecond_once .retry (Pre := fun u => (u.fault f).state = .retryWait ∧ (u.fault f).retryRemaining = some (m - 1))
    (Post := fun u => (u.fault f).state = .retryWait ∧ (u.fault f).retryRemaining = some (m - 1)) n ing order ?_
    (fun x u _ => block x u) (block _) (fun x u _ => block x u)
  rw [tickRetries_fault]
  have record : ((beginFrame n v).fault f) = v.fault f := rfl
  rw [record, FaultRecord.tickRetry, if_pos state, left]
  exact ⟨state, rfl⟩

/-- A retry timer that runs out at the millisecond event, on a record that no frame observes. -/
theorem millisecond_retry_ends {e : EndpointId} {k : Fin 6} {m : Nat} (unseen : 2 ≤ k.val) (hf : f = .endpoint e k)
    (state : (v.fault f).state = .retryWait) (left : (v.fault f).retryRemaining = some m) (out : m ≤ 1) :
    (millisecond n ing order v).1.fault f = (beginFrame n v).expired f := by
  subst hf
  have ticked : ((tickRetries (beginFrame n v)).fault (.endpoint e k)) = { v.fault (.endpoint e k) with retryRemaining := some 0 } := by
    have record : ((beginFrame n v).fault (.endpoint e k)) = v.fault (.endpoint e k) := rfl
    have zero : m - 1 = 0 := by omega
    rw [tickRetries_fault, record, FaultRecord.tickRetry, if_pos state, left, Option.map_some, zero]
  have escalates : ∀ u : State, (u.fault (.endpoint e k)).escalationOver u.now = false →
      (runBlock ing .escalation u).fault (.endpoint e k) = u.fault (.endpoint e k) := fun u h => by
    rw [runBlock_escalation, escalationTests_fault, h]
    rfl
  have block : ∀ x u, x ≠ .retry → (u.fault (.endpoint e k)).escalationOver u.now = false →
      (runBlock ing x u).fault (.endpoint e k) = u.fault (.endpoint e k) := fun x u other h => by
    by_cases escalation : x = .escalation
    · rw [escalation]; exact escalates u h
    · exact (runBlock_looks ing escalation other u).other e k unseen
  refine (millisecond_once .retry
    (Pre := fun u => SameMoment (beginFrame n v) u ∧ u.fault (.endpoint e k) = { v.fault (.endpoint e k) with retryRemaining := some 0 })
    (Post := fun u => SameMoment (beginFrame n v) u ∧ u.fault (.endpoint e k) = _) n ing order ⟨tickRetries_moment n v, ticked⟩
    (fun x u other h => ⟨h.1.runBlock ing x, (block x u other ?_).trans h.2⟩) (fun u h => ⟨h.1.runBlock ing .retry, ?_⟩)
    (fun x u other h => ⟨h.1.runBlock ing x, (block x u other ?_).trans h.2⟩)).2
  · rw [h.2]
    exact escalationOver_raised (by show (v.fault (.endpoint e k)).state.raised = true; rw [state]; rfl) _
  · have done : (u.fault (.endpoint e k)).retryDone = true := by
      rw [h.2]
      unfold FaultRecord.retryDone
      simp [state]
    rw [runBlock_retry, retryTests_done done]
    exact expired_ticked h.2 h.1.now
  · have raised : ((beginFrame n v).fault (.endpoint e k)).state.raised = true := by
      show (v.fault (.endpoint e k)).state.raised = true
      rw [state]
      rfl
    rw [h.2, h.1.now]
    exact expired_fresh raised

end

end Sys2Proof.Machine
end

section
/-! Calls at the millisecond event (R90, R94, R96, R97, R99), and O20. -/

namespace Sys2Proof.Machine

section
variable {s t u v : State} {c : CallId} {r q : Call} {ing : List (List Int)} {n : BitVec 16} {order : List MsTask}

/-! ### Calls at the frame boundary (R90, R94, R97, R99) -/

/-- What the blocks make of a call record, from what the boundary makes of it. -/
theorem millisecond_call {Q : Call → Prop} (aged : Call.Ages false v.config.tailTime r (v.call c))
    (kept : ∀ {p q}, Q p → Call.Ages false v.config.tailTime p q → Q q)
    (turn : ∀ u, SameMoment (beginFrame n v) u → Call.Ages false v.config.tailTime r (u.call c) → Q ((frameBoundary ing u).1.call c)) :
    Q ((millisecond n ing order v).1.call c) := by
  have block : ∀ x u, x ≠ .boundary → SameMoment (beginFrame n v) u →
      Call.Ages false v.config.tailTime (u.call c) ((runBlock ing x u).call c) := fun x u other moment => by
    have config : u.config = v.config := moment.config
    rw [← config]
    exact (runBlock_calls ing other u).call c
  refine (millisecond_once .boundary
    (Pre := fun u => SameMoment (beginFrame n v) u ∧ Call.Ages false v.config.tailTime r (u.call c))
    (Post := fun u => SameMoment (beginFrame n v) u ∧ Q (u.call c)) n ing order ⟨tickRetries_moment n v, aged⟩
    (fun x u other h => ⟨h.1.runBlock ing x, h.2.trans (block x u other h.1)⟩) (fun u h => ⟨h.1.runBlock ing .boundary, ?_⟩)
    (fun x u other h => ⟨h.1.runBlock ing x, kept h.2 (block x u other h.1)⟩)).2
  rw [runBlock_boundary]
  exact turn u h.1 h.2

/-- Whether a record is FREE anew, or in TAIL with a given time left. -/
def Call.Tailing (left : Nat) (r : Call) : Prop := r = {} ∨ r.state = .tail ∧ r.tailRemaining = left

theorem Call.Tailing.ages {walks : Bool} {m left : Nat} (h : r.Tailing left) (ages : Call.Ages walks m r q) : q.Tailing left := by
  rcases h with rfl | ⟨state, time⟩
  · exact .inl ages.blank
  · exact (ages.tail state).imp id fun ⟨state', time', _⟩ => ⟨state', time'.trans time⟩

theorem Call.Tailing.of_ages {walks : Bool} {m : Nat} (ages : Call.Ages walks m r q) (state : r.state = .tail) : q.Tailing r.tailRemaining :=
  Call.Tailing.ages (.inr ⟨state, rfl⟩) ages

theorem Call.Tailing.handed {left : Nat} (h : r.Tailing left) : (s.afterHandOff ing r).Tailing (left - 1) := by
  rcases h with rfl | ⟨state, time⟩
  · exact .inl (afterHandOff_free rfl)
  · rw [afterHandOff_tail state]
    exact .inr ⟨state, congrArg (· - 1) time⟩

theorem frameBoundary_call (serving : u.service = .service) (c : CallId) :
    (frameBoundary ing u).1.call c = (beforeHandOff u).afterHandOff ing ((beforeHandOff u).call c) := by
  rw [frameBoundary_serving serving, mapCalls_call]

theorem frameBoundary_blank (serving : u.service = .service) (blank : (beforeHandOff u).call c = {}) :
    (frameBoundary ing u).1.call c = {} := by
  rw [frameBoundary_call serving, blank]
  exact afterHandOff_free rfl

/-- The steps of the examination after the tail tests. -/
def afterTails (s : State) : State :=
  forEach allCalls liveStartTest (walk 16 [] 0 (forEach allCalls pendingTest (forEach allCalls wakingTest
    (forEach allCalls endOfAudioTest s))))

theorem afterTails_ages (s : State) : Ages true s (afterTails s) := by
  have ends := Ages.forEach (walks := true) endOfAudioTest_ages allCalls s
  have wakes := ends.trans (.forEach wakingTest_ages allCalls _)
  have waits := wakes.trans (.forEach pendingTest_ages allCalls _)
  exact (waits.trans (walk_ages 16 [] 0 _)).trans (.forEach liveStartTest_ages allCalls _)

theorem beforeHandOff_tails (s : State) : beforeHandOff s = afterTails (forEach allCalls tailTest s) := rfl

/-- The steps of the examination after the end-of-audio tests. -/
def afterAudio (s : State) : State :=
  forEach allCalls liveStartTest (walk 16 [] 0 (forEach allCalls pendingTest (forEach allCalls wakingTest s)))

theorem afterAudio_ages (s : State) : Ages true s (afterAudio s) := by
  have wakes := Ages.forEach (walks := true) wakingTest_ages allCalls s
  have waits := wakes.trans (.forEach pendingTest_ages allCalls _)
  exact (waits.trans (walk_ages 16 [] 0 _)).trans (.forEach liveStartTest_ages allCalls _)

theorem beforeHandOff_audio (s : State) : beforeHandOff s = afterAudio (forEach allCalls endOfAudioTest (forEach allCalls tailTest s)) := rfl

/-- The steps of the examination after the tests of PENDING calls. -/
def afterWaits (s : State) : State := forEach allCalls liveStartTest (walk 16 [] 0 s)

theorem afterWaits_ages (s : State) : Ages true s (afterWaits s) := (walk_ages 16 [] 0 s).trans (.forEach liveStartTest_ages allCalls _)

theorem beforeHandOff_waits (s : State) : beforeHandOff s =
    afterWaits (forEach allCalls pendingTest (forEach allCalls wakingTest (forEach allCalls endOfAudioTest (forEach allCalls tailTest s)))) := rfl

theorem Ages.blank {walks : Bool} (h : Ages walks s t) (blank : s.call c = {}) : t.call c = {} := by
  have ages := h.calls.call c
  rw [blank] at ages
  exact ages.blank

/-- Each call has its turn in a run of tests that keep `Ages`. -/
theorem tests_call {f : CallId → State → State} (ages : ∀ x u, Ages false u (f x u)) {P Q : Call → Prop}
    (kept : ∀ {p q}, P p → Call.Ages false s.config.tailTime p q → P q) (holds : ∀ {p q}, Q p → Call.Ages false s.config.tailTime p q → Q q)
    (turn : ∀ u, u.now = s.now → u.config = s.config → P (u.call c) → Q ((f c u).call c)) (start : P (s.call c)) :
    Q ((forEach allCalls f s).call c) := by
  have here : ∀ x u, u.config = s.config → Call.Ages false s.config.tailTime (u.call c) ((f x u).call c) := fun x u config => by
    rw [← config]
    exact (ages x u).calls.call c
  refine (forEach_once (List.nodup_finRange 16) (List.mem_finRange c)
    (Pre := fun u => u.now = s.now ∧ u.config = s.config ∧ P (u.call c)) (Post := fun u => u.config = s.config ∧ Q (u.call c))
    (fun x u _ h => ?_) (fun u h => ?_) (fun x u _ h => ?_) ⟨rfl, rfl, start⟩).2
  · exact ⟨(ages x u).idles.now.trans h.1, (ages x u).calls.config.trans h.2.1, kept h.2.2 (here x u h.2.1)⟩
  · exact ⟨(ages c u).calls.config.trans h.2.1, turn u h.1 h.2.1 h.2.2⟩
  · exact ⟨(ages x u).calls.config.trans h.1, holds h.2 (here x u h.1)⟩

theorem blank_kept {walks : Bool} {m : Nat} {p q : Call} (blank : p = {}) (ages : Call.Ages walks m p q) : q = {} := by
  rw [blank] at ages
  exact ages.blank

/-- A call in TAIL with no tail left completes (R97). -/
theorem boundary_tail_ends (serving : u.service = .service) (tailing : (u.call c).Tailing 0) : (frameBoundary ing u).1.call c = {} := by
  refine frameBoundary_blank serving ?_
  rw [beforeHandOff_tails]
  refine (afterTails_ages _).blank (tests_call (P := Call.Tailing 0) (Q := fun r => r = {}) tailTest_ages Call.Tailing.ages blank_kept
    (fun w _ _ h => ?_) tailing)
  unfold tailTest
  split
  · rw [completeCall_call, if_pos rfl]
  · next lasts => exact h.resolve_right lasts

/-- One with tail left has one millisecond less (R90). -/
theorem boundary_tail (serving : u.service = .service) {left : Nat} (tailing : (u.call c).Tailing left) :
    ((frameBoundary ing u).1.call c).Tailing (left - 1) := by
  rw [frameBoundary_call serving]
  exact (tailing.ages ((beforeHandOff_ages u).calls.call c)).handed

/-- A PENDING call at the pending maximum completes (R99). -/
theorem boundary_pending (serving : u.service = .service) (pending : r.state = .pending)
    (due : u.config.pendingMax * 1000 ≤ u.now - r.pendingSince) (record : u.call c = {} ∨ u.call c = r) : (frameBoundary ing u).1.call c = {} := by
  have kept : ∀ {m : Nat} {p q : Call}, (p = {} ∨ p = r) → Call.Ages false m p q → q = {} ∨ q = r := by
    rintro m p q (rfl | rfl) ages
    · exact .inl ages.blank
    · exact ages.pending rfl pending
  have tails := Ages.forEach (walks := false) tailTest_ages allCalls u
  have ends := tails.trans (.forEach endOfAudioTest_ages allCalls _)
  have wakes := ends.trans (.forEach wakingTest_ages allCalls _)
  refine frameBoundary_blank serving ?_
  rw [beforeHandOff_waits]
  refine (afterWaits_ages _).blank (tests_call (P := fun q => q = {} ∨ q = r) (Q := fun q => q = {}) pendingTest_ages kept blank_kept
    (fun w now config h => ?_) (kept record (wakes.calls.call c)))
  unfold pendingTest
  rcases h with blank | same
  · rw [if_neg (by rw [blank]; exact fun h => nomatch h.1), blank]
  · rw [if_pos, completeCall_call, if_pos rfl]
    rw [same, now, wakes.idles.now, config, wakes.calls.config]
    exact ⟨pending, due⟩

/-- A PLAYING call whose stored source ended in the previous block enters TAIL (R90, R94). -/
theorem boundary_source_ended {ids : List MessageId} {k : Nat} (serving : u.service = .service) (source : r.source = .stored ids k)
    (done : k ≤ r.plays) (record : u.call c = {} ∨ (u.call c).state = .tail ∧ (u.call c).tailRemaining = u.config.tailTime ∨
      (u.call c).state = .playing ∧ (u.call c).source = r.source ∧ (u.call c).plays = r.plays) :
    ((frameBoundary ing u).1.call c).Tailing (u.config.tailTime - 1) := by
  have kept : ∀ {p q : Call}, (p.Tailing u.config.tailTime ∨ p.state = .playing ∧ p.source = r.source ∧ p.plays = r.plays) →
      Call.Ages false u.config.tailTime p q →
      q.Tailing u.config.tailTime ∨ q.state = .playing ∧ q.source = r.source ∧ q.plays = r.plays := by
    rintro p q (tailing | ⟨state, from_, plays⟩) ages
    · exact .inl (tailing.ages ages)
    · rcases ages.playing rfl state with blank | entered | ⟨state', from', plays'⟩
      · exact .inl (.inl blank)
      · exact .inl (.inr entered)
      · exact .inr ⟨state', from'.trans from_, plays'.trans plays⟩
  have tails := Ages.forEach (walks := false) tailTest_ages allCalls u
  have config : (forEach allCalls tailTest u).config = u.config := tails.calls.config
  have ended : ((forEach allCalls endOfAudioTest (forEach allCalls tailTest u)).call c).Tailing u.config.tailTime := by
    refine tests_call (P := fun p => p.Tailing u.config.tailTime ∨ p.state = .playing ∧ p.source = r.source ∧ p.plays = r.plays)
      (Q := Call.Tailing u.config.tailTime) endOfAudioTest_ages (by rw [config]; exact kept) Call.Tailing.ages (fun w _ same h => ?_)
      (kept (or_assoc.mpr record) (tails.calls.call c))
    rcases h with tailing | ⟨state, from_, plays⟩
    · exact tailing.ages ((endOfAudioTest_ages (walks := false) c w).calls.call c)
    · have ended_ : (w.call c).sourceEnded = true := by
        unfold Call.sourceEnded
        rw [from_, source, plays]
        exact decide_eq_true done
      unfold endOfAudioTest
      rw [if_pos ⟨state, ended_⟩, enterTail_call, if_pos rfl, same, config]
      split
      · exact .inl rfl
      · exact .inr ⟨rfl, rfl⟩
  have later : ((beforeHandOff u).call c).Tailing u.config.tailTime := by
    have ages := (afterAudio_ages (forEach allCalls endOfAudioTest (forEach allCalls tailTest u))).calls.call c
    rw [← beforeHandOff_audio] at ages
    exact ended.ages ages
  rw [frameBoundary_call serving]
  exact later.handed

/-- Whether a record is FREE anew, or in TAIL with a given outcome. -/
def Call.TailingWith (outcome : CallOutcome) (r : Call) : Prop := r = {} ∨ r.state = .tail ∧ r.outcome = some outcome

theorem Call.TailingWith.ages {walks : Bool} {m : Nat} {o : CallOutcome} (h : r.TailingWith o) (ages : Call.Ages walks m r q) :
    q.TailingWith o := by
  rcases h with rfl | ⟨state, outcome⟩
  · exact .inl ages.blank
  · exact (ages.tail state).imp id fun ⟨state', _, outcome'⟩ => ⟨state', outcome'.trans outcome⟩

theorem Call.TailingWith.handed {o : CallOutcome} (h : r.TailingWith o) : (s.afterHandOff ing r).TailingWith o := by
  rcases h with rfl | ⟨state, outcome⟩
  · exact .inl (afterHandOff_free rfl)
  · rw [afterHandOff_tail state]
    exact .inr ⟨state, outcome⟩

theorem boundary_outcome (serving : u.service = .service) {o : CallOutcome} (h : (u.call c).TailingWith o) :
    ((frameBoundary ing u).1.call c).TailingWith o := by
  rw [frameBoundary_call serving]
  exact (h.ages ((beforeHandOff_ages u).calls.call c)).handed

end

/-! ### A whole frame -/

theorem millisecond_now (n : BitVec 16) (ing : List (List Int)) (order : List MsTask) (v : State) :
    (millisecond n ing order v).1.now = v.now + 1 :=
  (millisecond_once .idle (Pre := SameMoment (beginFrame n v)) (Post := SameMoment (beginFrame n v)) n ing order (tickRetries_moment n v)
    (fun x _ _ h => h.runBlock ing x) (fun _ h => h.runBlock ing .idle) (fun x _ _ h => h.runBlock ing x)).now

section
variable {s t v : State} {n : BitVec 16} {ing : List (List Int)} {order : List MsTask} {c : CallId} {r : Call} {f : FaultRef} {m : Nat}
  (before : AgesOnly s v) (after : AgesOnly (millisecond n ing order v).1 t)
include before after

theorem frame_gate (g : GateId) :
    (({ s with now := s.now + 1 } : State).windowOver g → (t.gate g).still = ((s.gate g).shut .closed (s.now + 1)).still) ∧
    (¬ ({ s with now := s.now + 1 } : State).windowOver g → (t.gate g).still = (s.gate g).still) := by
  have same : (beginFrame n v).windowOver g ↔ ({ s with now := s.now + 1 } : State).windowOver g :=
    windowOver_congr (s := { s with now := s.now + 1 }) (before.gate g) (congrArg (· + 1) before.ages.idles.now)
  obtain ⟨shut, open_⟩ := millisecond_gate (n := n) (ing := ing) (order := order) (v := v) g
  refine ⟨fun ended => ?_, fun early => ?_⟩
  · rw [after.gate, shut (same.mpr ended), before.ages.idles.now]
    exact (congrArg (fun x : Gate => (x.shut .closed (s.now + 1)).still) (before.gate g) : _)
  · rw [after.gate, open_ fun ended => early (same.mp ended), before.gate]

theorem frame_young (f : FaultRef) : (t.fault f).Young (s.now + 1) := by
  have young := millisecond_young (n := n) (ing := ing) (order := order) (v := v) f
  rw [before.ages.idles.now] at young
  exact (after.ages.looks.record f).young young

theorem frame_retry_early (state : (s.fault f).state = .retryWait) (left : (s.fault f).retryRemaining = some m) (early : 1 < m) :
    (t.fault f).state = .retryWait ∧ (t.fault f).retryRemaining = some (m - 1) := by
  have first := (before.ages.looks.record f).raised (by rw [state]; rfl)
  have state_v : (v.fault f).state = .retryWait := by rw [first]; exact state
  have left_v : (v.fault f).retryRemaining = some m := by rw [first]; exact left
  obtain ⟨state_w, left_w⟩ := millisecond_retry_early (n := n) (ing := ing) (order := order) state_v left_v early
  have last := (after.ages.looks.record f).raised (by rw [state_w]; rfl)
  rw [last]
  exact ⟨state_w, left_w⟩

theorem frame_retry_ends {e : EndpointId} {k : Fin 6} (unseen : 2 ≤ k.val) (state : (s.fault (.endpoint e k)).state = .retryWait)
    (left : (s.fault (.endpoint e k)).retryRemaining = some m) (out : m ≤ 1) :
    t.fault (.endpoint e k) = ({ s with now := s.now + 1 } : State).expired (.endpoint e k) := by
  have record := before.ages.looks.other e k unseen
  rw [after.ages.looks.other e k unseen, millisecond_retry_ends unseen rfl (by rw [record]; exact state) (by rw [record]; exact left) out]
  exact expired_congr (s := { s with now := s.now + 1 }) record (congrArg (· + 1) before.ages.idles.now)

variable (serving : s.service = .service)
include serving

theorem frame_endpoint (e : EndpointId) : (t.endpoint e).still =
    if ({ s with now := s.now + 1 } : State).endpointSilent e then (s.endpoint e).leave.still else (s.endpoint e).still := by
  have silent : (beginFrame n v).endpointSilent e = ({ s with now := s.now + 1 } : State).endpointSilent e :=
    endpointSilent_congr (s := { s with now := s.now + 1 }) (before.endpoint e) (congrArg (· + 1) before.ages.idles.now)
      before.ages.calls.config
  rw [after.endpoint, millisecond_endpoint (before.service.trans serving), silent, leave_still (before.endpoint e), before.endpoint]

theorem frame_idle_passed {z : ZoneId} (lasting : 1 ≤ (s.zone z).idleTime) : t.NoneIdle z := by
  have time : ∀ {u w : State}, Idles u w → (w.zone z).idleTime = (u.zone z).idleTime := fun h => (congrArg Zone.idleTime (h.zone z) :)
  have lasts : 1 ≤ (v.zone z).idleTime := by rw [time before.ages.idles]; exact lasting
  have settings : ((millisecond n ing order v).1.zone z).settings = (v.zone z).settings :=
    SameMoment.zone (s := beginFrame n v) ⟨millisecond_now n ing order v, millisecond_settled v n ing order⟩ z
  have lasts' : 1 ≤ ((millisecond n ing order v).1.zone z).idleTime := by
    rw [show ((millisecond n ing order v).1.zone z).idleTime = (v.zone z).idleTime from (congrArg Zone.idleTime settings :)]
    exact lasts
  exact after.ages.idles.noneIdle lasts' (millisecond_noneIdle (before.service.trans serving) lasts)

theorem frame_idle_kept {z : ZoneId} {d : Nat} (free : ∀ x, (s.call x).state = .free) (deadline : (s.zone z).idleDeadline = some d)
    (ahead : s.now + 1 < d) : (t.zone z).idleDeadline = some d := by
  have free_v : ∀ x, (v.call x).state = .free := fun x => before.ages.idles.free x (free x)
  have free_w : ∀ x, ((millisecond n ing order v).1.call x).state = .free := fun x => by
    refine millisecond_call (Q := fun q => q.state = .free) (.refl (v.call x)) (fun h ages => by rw [ages.free h]; exact h)
      (fun u _ aged => (frameBoundary_idles_looks ing u).1.free x ?_)
    rw [aged.free (free_v x)]
    exact free_v x
  rw [after.ages.idles.idle free_w]
  exact millisecond_idle_kept (before.service.trans serving) free_v ((before.ages.idles.idle free z).trans deadline)
    (by rw [before.ages.idles.now]; exact ahead)

/-- What is said of a call record after the frame, from what the boundary makes of it. -/
theorem frame_call {Q : Call → Prop} (aged : Call.Ages false s.config.tailTime r (v.call c))
    (kept : ∀ {p q}, Q p → Call.Ages false s.config.tailTime p q → Q q)
    (turn : ∀ u, u.service = .service → u.now = s.now + 1 → u.config = s.config → Call.Ages false s.config.tailTime r (u.call c) →
      Q ((frameBoundary ing u).1.call c)) : Q (t.call c) := by
  have config : (millisecond n ing order v).1.config = v.config := (congrArg State.config (millisecond_settled v n ing order) :)
  have ages := after.ages.calls.call c
  rw [config, before.ages.calls.config] at ages
  refine kept (millisecond_call (r := r) ?_ ?_ fun u moment own => ?_) ages
  · rw [before.ages.calls.config]; exact aged
  · rw [before.ages.calls.config]; exact kept
  · rw [before.ages.calls.config] at own
    exact turn u (moment.service.trans (before.service.trans serving)) (moment.now.trans (congrArg (· + 1) before.ages.idles.now))
      (moment.config.trans before.ages.calls.config) own

theorem frame_tail {left : Nat} (state : (s.call c).state = .tail) (time : (s.call c).tailRemaining = left + 1) :
    (t.call c).Tailing left :=
  frame_call before after serving (before.ages.calls.call c) Call.Tailing.ages fun u serving_u _ _ aged => by
    have tailing := Call.Tailing.of_ages aged state
    rw [time] at tailing
    exact boundary_tail serving_u tailing

theorem frame_tail_ends (state : (s.call c).state = .tail) (time : (s.call c).tailRemaining = 0) : t.call c = {} :=
  frame_call (Q := fun q => q = {}) before after serving (before.ages.calls.call c) blank_kept fun u serving_u _ _ aged => by
    have tailing := Call.Tailing.of_ages aged state
    rw [time] at tailing
    exact boundary_tail_ends serving_u tailing

theorem frame_pending (pending : (s.call c).state = .pending)
    (due : s.config.pendingMax * 1000 ≤ s.now + 1 - (s.call c).pendingSince) : t.call c = {} :=
  frame_call (Q := fun q => q = {}) before after serving (before.ages.calls.call c) blank_kept fun u serving_u now config aged =>
    boundary_pending serving_u pending (by rw [now, config]; exact due) (aged.pending rfl pending)

theorem frame_source_ended {ids : List MessageId} {k : Nat} (playing : (s.call c).state = .playing)
    (source : (s.call c).source = .stored ids k) (done : k ≤ (s.call c).plays) : (t.call c).Tailing (s.config.tailTime - 1) :=
  frame_call before after serving (before.ages.calls.call c) Call.Tailing.ages fun u serving_u _ config aged => by
    rw [← config] at aged ⊢
    exact boundary_source_ended serving_u source done (aged.playing rfl playing)

theorem frame_outcome {o : CallOutcome} (h : (v.call c).TailingWith o) : (t.call c).TailingWith o :=
  frame_call before after serving (.refl (v.call c)) Call.TailingWith.ages fun _ serving_u _ _ aged =>
    boundary_outcome serving_u (h.ages aged)

end

/-- Settles O20: the parts of a frame around its millisecond event keep what is no timer's own, and each timer has its turn once. -/
theorem framesRunTheTimers : Obligations.FramesRunTheTimers := by
  unfold Obligations.FramesRunTheTimers
  refine ⟨fun i order s t now serving commands cues due begins run hnow => ?_, fun n ing order s => millisecond_handOff n ing order s⟩
  obtain ⟨v, n, ing, before, lost, after⟩ := frame_runs commands cues due begins run
  subst hnow
  have now_t : t.now = s.now + 1 := by rw [after.ages.idles.now, millisecond_now, before.ages.idles.now]
  refine ⟨fun e => ⟨fun silent => ?_, fun heard => ?_⟩, fun z lasting => ⟨fun d hd => ?_, fun d => frame_idle_kept before after serving⟩,
    fun g => ⟨fun ended => (frame_gate before after g).1 ended, fun early => (frame_gate before after g).2 ?_⟩,
    fun f q state => frame_young before after f ?_ q, fun f m => frame_retry_early before after,
    fun e k m j unseen state left out inForce => ?_,
    fun x tail => ⟨frame_tail_ends before after serving tail, fun m => frame_tail before after serving tail⟩,
    fun x => frame_pending before after serving, fun x ids k => frame_source_ended before after serving,
    fun x slot pre silence playing source begun => ?_⟩
  · obtain ⟨q, used, here, last, long⟩ := silent
    rw [frame_endpoint before after serving, if_pos (endpointSilent_iff (s := { s with now := s.now + 1 }).mpr ⟨used, here, q, last, long⟩)]
    rfl
  · rw [frame_endpoint before after serving, if_neg]
    intro silent
    obtain ⟨used, here, q, last, long⟩ := endpointSilent_iff.mp silent
    exact Nat.not_le.mpr long (heard q used here last)
  · rw [← now_t]
    exact frame_idle_passed before after serving lasting d hd
  · rintro ⟨d, state, deadline, past⟩
    rcases early with shut | ⟨d', deadline', ahead⟩
    · exact shut state
    · exact Nat.not_le.mpr ahead (Option.some.inj (deadline.symm.trans deadline') ▸ past)
  · rcases state with h | h <;> rw [h] <;> rfl
  · rw [frame_retry_ends before after unseen state left out, State.expired]
    have record : ({ s with now := s.now + 1 } : State).fault (.endpoint e k) = s.fault (.endpoint e k) := rfl
    rw [record, inForce]
  · refine frame_outcome before after serving ?_
    rw [lost silence]
    exact loseA_call playing source begun

end Sys2Proof.Machine
end

section
/-! LOOP_WRITE (R49 to R51, R53, R118): the record that a write for a zone goes to, the groups with their clamps, and the release. -/

namespace Sys2Proof.Machine

/-! ### Clamped fields (R149) -/

section
variable {lo hi v : Nat}

theorem clamps_iff (h : lo ≤ hi) : clamps lo hi v = true ↔ v < lo ∨ hi < v := by
  unfold clamps clampTo
  rw [bne_iff_ne]
  omega

theorem clampTo_zero (hi v : Nat) : clampTo 0 hi v = min hi v := Nat.zero_max _

/-- The status of a write by whether each of its fields lies within its limits. -/
theorem status_of_clamped {c : Bool} {inside : Prop} [Decidable inside] (h : c = true ↔ ¬ inside) :
    (if c then Status.clamped else Status.ok) = if inside then .ok else .clamped := by
  by_cases within : inside
  · rw [if_pos within, if_neg fun clamped => h.mp clamped within]
  · rw [if_neg within, if_pos (h.mpr within)]

end

/-! ### Two parts joined (R162) -/

theorem byteAt_append_left {a b : List Byte} {i : Nat} (h : i < a.length) : byteAt (a ++ b) i = byteAt a i :=
  List.getD_append _ _ _ _ h

theorem byteAt_append_right {a b : List Byte} {i : Nat} (h : a.length ≤ i) : byteAt (a ++ b) i = byteAt b (i - a.length) :=
  List.getD_append_right _ _ _ _ h

theorem padTo_self {n : Nat} {d : List Byte} (h : d.length = n) : padTo n d = d := by
  rw [padTo_eq_take, List.take_append_of_le_length (Nat.le_of_eq h.symm), ← h, List.take_length]

section
variable {s t : State} {src : Node} {req : Byte} {w : TableWrite} {z : ZoneId} {l : ParamId} {r : LoopRecord} {F : FaultTable} {A : Bool}

/-- A second part that matches what was staged is executed with it as one write. -/
theorem secondPart_joins {p : Staged} {t : Table} (staged : s.staged = some p) (from_ : p.src = src) (table : p.table.toNat = tableCode t)
    (group : p.group = w.group) (index : p.index = w.index) (length : p.data.length = 10) (body : List Byte → State → State × Answer) :
    secondPart src t w body s = body (p.data ++ w.data) { s with staged := none } := by
  have fits : p.matches src t w = true := by simp [Staged.matches, from_, table, group, index]
  unfold secondPart
  rw [staged]
  simp only [fits, padTo_self length]
  rfl

/-! ### The record of a zone (R49, R50) -/

theorem freeLoop_none (h : ∀ l : ParamId, s.loops[l].zone.isSome = true) : s.freeLoop = none :=
  find_finRange_none.mpr fun l => by simpa using h l

theorem freeLoop_eq_some : s.freeLoop = some l ↔ s.loops[l].zone = none ∧ ∀ k, k < l → s.loops[k].zone.isSome = true := by
  unfold State.freeLoop
  rw [find_finRange]
  simp

/-- The record, fault records and ALERT that a write for a zone finds: those of its record, or of the one it binds (R50, R118). -/
def State.LoopTarget (s : State) (z : ZoneId) (l : ParamId) (r : LoopRecord) (F : FaultTable) (A : Bool) : Prop :=
  (s.loopOf z = some l ∧ r = s.loops[l] ∧ F = s.faults ∧ A = s.alert) ∨
    (s.loopOf z = none ∧ s.loops[l].zone = none ∧ (∀ k, k < l → s.loops[k].zone.isSome = true) ∧
      r = { State.reset.loops[l] with zone := some z } ∧
      F = { s.faults with loop := s.faults.loop.set l (Vector.replicate 2 {}) } ∧ A = F.anyActionable)

theorem bindLoop_eq (h : s.LoopTarget z l r F A) :
    bindLoop z s = some (l, { s with loops := s.loops.set l r, faults := F, alert := A }) := by
  unfold bindLoop
  rcases h with ⟨bound, rfl, rfl, rfl⟩ | ⟨unbound, free, lowest, rfl, rfl, rfl⟩
  · rw [bound]
    have same : s.loops.set l s.loops[l] = s.loops := Vector.set_getElem_self l.isLt
    simp only [same]
  · rw [unbound, freeLoop_eq_some.mpr ⟨free, lowest⟩, reset_loop]
    rfl

theorem bindLoop_full (unbound : s.loopOf z = none) (full : ∀ l : ParamId, s.loops[l].zone.isSome = true) : bindLoop z s = none := by
  unfold bindLoop
  rw [unbound, freeLoop_none full]
  rfl

/-- Whatever a write finds, it finds a record where the zone has one or some record is free. -/
theorem loopTarget_exists (h : s.loopOf z ≠ none ∨ ∃ l : ParamId, s.loops[l].zone = none) : ∃ l r F A, s.LoopTarget z l r F A := by
  cases bound : s.loopOf z with
  | some l => exact ⟨l, _, _, _, .inl ⟨bound, rfl, rfl, rfl⟩⟩
  | none =>
    obtain ⟨l, free⟩ := h.resolve_left fun ne => ne bound
    cases first : s.freeLoop with
    | none =>
      have taken := find_finRange_none.mp first l
      rw [free] at taken
      exact nomatch taken
    | some k =>
      obtain ⟨open_, lowest⟩ := freeLoop_eq_some.mp first
      exact ⟨k, _, _, _, .inr ⟨bound, open_, lowest, rfl, rfl, rfl⟩⟩

/-! ### The groups (R50, R51) -/

theorem loopFields_writes {f : LoopRecord → Option (LoopRecord × Bool)} {new : LoopRecord} {c : Bool} (h : s.LoopTarget z l r F A)
    (fields : f r = some (new, c)) :
    loopFields z f s = written c z.val { s with loops := s.loops.set l new, faults := F, alert := A } := by
  have at_l : (s.loops.set l r)[l] = r := by simp
  unfold loopFields
  rw [bindLoop_eq h]
  simp only [at_l, fields]
  unfold modLoop
  simp only [Vector.set_set]

theorem loopFields_refuses {f : LoopRecord → Option (LoopRecord × Bool)} (h : s.LoopTarget z l r F A) (fields : f r = none) :
    loopFields z f s = refuse .badValue s := by
  have at_l : (s.loops.set l r)[l] = r := by simp
  unfold loopFields
  rw [bindLoop_eq h]
  simp only [at_l, fields]

theorem loopFields_full (unbound : s.loopOf z = none) (full : ∀ l : ParamId, s.loops[l].zone.isSome = true)
    (f : LoopRecord → Option (LoopRecord × Bool)) : loopFields z f s = refuse .full s := by
  unfold loopFields
  rw [bindLoop_full unbound full]

/-- The level group of two parts by the fields of each. -/
theorem levelAndGain_eq {d d' : List Byte} (length : d.length = 10) (r : LoopRecord) : levelAndGain (d ++ d') r =
    if (word16 d' 2).toNat < (word16 d' 0).toNat then none else some ({ r with
        target := min 8388607 (word24 d 0).toNat, window := min 8388607 (word24 d 3).toNat
        attack := max 1 (min 4096 (word16 d 6).toNat), release := max 1 (min 4096 (word16 d 8).toNat)
        agcMin := (word16 d' 0).toNat, agcMax := (word16 d' 2).toNat
        agc := max (word16 d' 0).toNat (min (word16 d' 2).toNat r.agc) },
      clamps 0 8388607 (word24 d 0).toNat || clamps 0 8388607 (word24 d 3).toNat || clamps 1 4096 (word16 d 6).toNat ||
        clamps 1 4096 (word16 d 8).toNat) := by
  have first : ∀ i, i < 10 → byteAt (d ++ d') i = byteAt d i := fun i lt => byteAt_append_left (by omega)
  have second : ∀ i, byteAt (d ++ d') (10 + i) = byteAt d' i := fun i => by
    rw [byteAt_append_right (by omega), length, Nat.add_sub_cancel_left]
  have pair : ∀ i, i + 1 < 10 → word16 (d ++ d') i = word16 d i := fun i lt => by
    unfold word16
    rw [first i (by omega), first (i + 1) lt]
  have triple : ∀ i, i + 2 < 10 → word24 (d ++ d') i = word24 d i := fun i lt => by
    unfold word24
    rw [pair i (by omega), first (i + 2) lt]
  have pair' : ∀ i, word16 (d ++ d') (10 + i) = word16 d' i := fun i => by
    unfold word16
    rw [second i, Nat.add_assoc, second (i + 1)]
  unfold levelAndGain LoopRecord.holdGain LoopRecord.withLevel
  simp only [triple 0 (by decide), triple 3 (by decide), pair 6 (by decide), pair 8 (by decide), pair' 0, pair' 2, clampTo_zero]
  rfl

theorem exec_loopWrite (ready : s.commandReady (.loopWrite src req w) src) (hz : z.val = w.index.toNat)
    (one : w.group = 0 ∨ w.second = false) : exec (.loopWrite src req w) s =
      .next (placeReply src (BitVec.ofNat 8 (0x8C + w.group.toNat)) req (loopBody src w z (leaveCommand s))) := by
  have index : tableIndexOk .loop w.index.toNat = true := by simp [tableIndexOk]; omega
  have pass : preCheck .loop w = none := by
    rcases one with group | single
    · simp [preCheck, index, group, groupCount, longGroup]
    · exact preCheck_none index w.group.isLt single
  refine congrArg Host.Outcome.next ((takeCommand_ready ready).trans ?_)
  rw [loopWriteBody, checkedWrite_passes pass, ← hz, indexOf_val]
  rfl

theorem loopBody_level (group : w.group = 0) {p : Staged} (staged : s.staged = some p) (from_ : p.src = src) (table : p.table = 3)
    (group' : p.group = 0) (index : p.index = w.index) (length : p.data.length = 10) :
    loopBody src w z s = loopFields z (levelAndGain (p.data ++ w.data)) { s with staged := none } := by
  unfold loopBody
  rw [if_pos group]
  exact secondPart_joins staged from_ (by rw [table]; rfl) (group'.trans group.symm) index length _

theorem loopBody_current (group : w.group = 1) : loopBody src w z s = loopFields z (fun r => some (r.withCurrent w.data)) s := by
  unfold loopBody
  rw [if_neg (by rw [group]; decide), if_pos group]

theorem loopBody_open (group : w.group = 2) : loopBody src w z s = loopFields z (fun r => some (r.withOpen w.data)) s := by
  unfold loopBody
  rw [if_neg (by rw [group]; decide), if_neg (by rw [group]; decide), if_pos group]

theorem loopBody_release (group : w.group = 3) : loopBody src w z s = loopRelease z s := by
  unfold loopBody
  rw [if_neg (by rw [group]; decide), if_neg (by rw [group]; decide), if_neg (by rw [group]; decide)]

/-! ### The replies -/

/-- A target is the same after the command left its queue, whatever is staged then. -/
theorem State.LoopTarget.leave (h : s.LoopTarget z l r F A) (staged : Option Staged) :
    { leaveCommand s with staged := staged }.LoopTarget z l r F A := by
  obtain ⟨hold, flag, eq⟩ := leaveCommand_eq s
  rw [eq]
  exact h

/-- A write that passed: its reply, and what it wrote. -/
theorem loopWrite_answered {code : Byte} {c : Bool} {status : Status} {staged : Option Staged} {ls : Vector LoopRecord 8}
    (hstatus : (if c then Status.clamped else .ok) = status) :
    placeReply src code req (written c z.val { leaveCommand s with staged := staged, loops := ls, faults := F, alert := A }) =
      { s.answered (s.reply src code req status [BitVec.ofNat 8 z.val]) with staged := staged, loops := ls, faults := F, alert := A } := by
  obtain ⟨hold, flag, eq⟩ := leaveCommand_eq s
  rw [placeReply_written (s := s) _ _ _ (by rw [eq]) (by rw [eq]), hstatus]
  rfl

theorem loopWrite_refused (code : Byte) (st : Status) (staged : Option Staged) :
    placeReply src code req (refuse st { leaveCommand s with staged := staged }) =
      { s.answered (s.reply src code req st []) with staged := staged } := by
  obtain ⟨hold, flag, eq⟩ := leaveCommand_eq s
  unfold State.answered
  rw [eq]
  rfl

/-- A write whose group's fields were written. -/
theorem exec_loopWrite_fields {f : LoopRecord → Option (LoopRecord × Bool)} {staged : Option Staged} {new : LoopRecord} {c : Bool}
    {status : Status} (ready : s.commandReady (.loopWrite src req w) src) (hz : z.val = w.index.toNat)
    (one : w.group = 0 ∨ w.second = false) (target : s.LoopTarget z l r F A)
    (body : loopBody src w z (leaveCommand s) = loopFields z f { leaveCommand s with staged := staged })
    (fields : f r = some (new, c)) (hstatus : (if c then Status.clamped else .ok) = status) : exec (.loopWrite src req w) s = .next {
      s.answered (s.reply src (BitVec.ofNat 8 (0x8C + w.group.toNat)) req status [BitVec.ofNat 8 z.val]) with
      staged := staged, loops := s.loops.set l new, faults := F, alert := A } := by
  have loops : (leaveCommand s).loops = s.loops := by simp
  rw [exec_loopWrite ready hz one, body, loopFields_writes (target.leave staged) fields]
  simp only [loops]
  exact congrArg Host.Outcome.next (loopWrite_answered hstatus)

/-- What is staged stays so where a write is not a second part. -/
theorem leaveCommand_staged_same (s : State) : { leaveCommand s with staged := s.staged } = leaveCommand s := by
  obtain ⟨hold, flag, eq⟩ := leaveCommand_eq s
  rw [eq]

/-! ### The release (R50, R53, R118) -/

theorem loopRelease_unbound (unbound : s.loopOf z = none) : loopRelease z s = written false z.val s := by
  unfold loopRelease
  rw [unbound]

theorem loopRelease_busy (bound : s.loopOf z = some l) (busy : s.service = .service ∧ (s.zone z).enabled = true ∧ (s.zone z).kind = .loop) :
    loopRelease z s = refuse .busy s := by
  unfold loopRelease
  rw [bound]
  exact if_pos busy

theorem loopRelease_frees (bound : s.loopOf z = some l)
    (idle : ¬ (s.service = .service ∧ (s.zone z).enabled = true ∧ (s.zone z).kind = .loop))
    (hF : F = { s.faults with loop := s.faults.loop.set l (Vector.replicate 2 {}) }) :
    loopRelease z s = written false z.val { s with loops := s.loops.set l {}, faults := F, alert := F.anyActionable } := by
  unfold loopRelease
  rw [bound, hF]
  exact if_neg idle

end

/-- Settles O50: the three groups that write fields, FULL, what the level group refuses, and the release. -/
theorem loopWrites : Obligations.LoopWrites := by
  unfold Obligations.LoopWrites
  intro src req w s z ready hz
  have left : ∀ staged : Option Staged, { leaveCommand s with staged := staged }.loopOf z = s.loopOf z ∧
      { leaveCommand s with staged := staged }.loops = s.loops := fun staged => by
    obtain ⟨hold, flag, eq⟩ := leaveCommand_eq s
    rw [eq]
    exact ⟨rfl, rfl⟩
  refine ⟨fun l r F A status new staged target fields => ?_, fun unbound full group single => ?_,
    fun p group second staged from_ table group' index length => ?_, fun group single => ?_⟩
  · have target : s.LoopTarget z l r F A := target
    rcases fields with
      ⟨i, st, o, group, single, rfl, rfl, rfl, rfl, hstatus, rfl⟩ |
      ⟨i, g, t, group, single, rfl, rfl, rfl, rfl, hstatus, rfl⟩ |
      ⟨p, lo, hi, goal, window, attack, release, group, second, rfl, staged, from_, table, group', index, length, rfl, rfl, rfl,
        rfl, rfl, rfl, ordered, hstatus, rfl⟩
    · refine exec_loopWrite_fields ready hz (.inr single) target
        (by rw [loopBody_current group, leaveCommand_staged_same]) (by rw [LoopRecord.withCurrent, clampTo_zero, clampTo_zero]; rfl) ?_
      exact hstatus ▸ status_of_clamped (by simp (disch := decide) only [Bool.or_eq_true, clamps_iff]; omega)
    · refine exec_loopWrite_fields ready hz (.inr single) target
        (by rw [loopBody_open group, leaveCommand_staged_same]) (by rw [LoopRecord.withOpen, clampTo_zero, clampTo_zero]; rfl) ?_
      exact hstatus ▸ status_of_clamped (by simp (disch := decide) only [Bool.or_eq_true, clamps_iff]; omega)
    · refine exec_loopWrite_fields ready hz (.inl group) target
        (loopBody_level group (by rw [leaveCommand_staged]; exact staged) from_ table group' index length)
        ((levelAndGain_eq length r).trans (if_neg (Nat.not_lt.mpr ordered))) ?_
      exact hstatus ▸ status_of_clamped (by simp (disch := decide) only [Bool.or_eq_true, clamps_iff]; omega)
  · obtain ⟨hold, flag, eq⟩ := leaveCommand_eq s
    have all_bound : ∀ f, loopFields z f (leaveCommand s) = refuse .full (leaveCommand s) :=
      loopFields_full (by rw [eq]; exact unbound) (by rw [eq]; exact full)
    have body : loopBody src w z (leaveCommand s) = refuse .full (leaveCommand s) := by
      rcases group with group | group
      · rw [loopBody_current group, all_bound]
      · rw [loopBody_open group, all_bound]
    rw [exec_loopWrite ready hz (.inr single), body, placeReply_refuse]
  · have taken : ∀ st, loopFields z (levelAndGain (p.data ++ w.data)) { leaveCommand s with staged := none } =
        refuse st { leaveCommand s with staged := none } →
        exec (.loopWrite src req w) s = .next { s.answered (s.reply src 0x8C req st []) with staged := none } := fun st refused => by
      rw [exec_loopWrite ready hz (.inl group),
        loopBody_level group (by rw [leaveCommand_staged]; exact staged) from_ table group' index length, refused, loopWrite_refused, group]
      rfl
    refine ⟨fun unbound full => taken .full (loopFields_full ?_ ?_ _), fun some_ disordered => taken .badValue ?_⟩
    · rw [(left none).1, unbound]
    · rw [(left none).2]; exact full
    · obtain ⟨l, r, F, A, target⟩ := loopTarget_exists some_
      exact loopFields_refuses (target.leave none) ((levelAndGain_eq length r).trans (if_pos disordered))
  · have run := exec_loopWrite ready hz (.inr single)
    rw [loopBody_release group, group] at run
    obtain ⟨hold, flag, eq⟩ := leaveCommand_eq s
    refine ⟨fun unbound => ?_, fun l bound => ⟨fun busy => ?_, fun idle F hF => ?_⟩⟩
    · rw [run, loopRelease_unbound (by rw [eq]; exact unbound), placeReply_written (s := s) _ _ _ (by rw [eq]) (by rw [eq])]
      rfl
    · rw [run, loopRelease_busy (l := l) (by rw [eq]; exact bound) (by rw [eq]; exact busy), placeReply_refuse]
      rfl
    · rw [run, loopRelease_frees (l := l) (F := F) (by rw [eq]; exact bound) (by rw [eq]; exact idle) (by rw [eq]; exact hF)]
      unfold State.answered
      rw [eq]
      rfl

end Sys2Proof.Machine
end

section
/-! A raise as a whole (R120 to R128): its record and event, the swap it makes, the protection derived anew. -/

namespace Sys2Proof.Machine

section
variable {s t v : State} {z y : ZoneId} {e x : EndpointId} {f : FaultRef} {p : Policy} {new : FaultRecord} {st : FaultState}

/-! ### The record and the event (R120, R121, R128) -/

/-- The state of a raise once its record is written and its event is queued. -/
def noteRaise (f : FaultRef) (new : FaultRecord) (flags : Byte) (action : PolicyAction) (s : State) : State :=
  { s with
    faults := s.faults.set f new
    alert := (s.faults.set f new).anyActionable
    events := s.eventsWith s.config.eventNode (s.faultEventRecord f flags new.state action new.escalation) }

theorem faultEvent_setFault (flags : Byte) (action : PolicyAction) :
    faultEvent f flags new.state action new.escalation (setFault f new s) = noteRaise f new flags action s := by
  unfold faultEvent
  rw [pushEvent_eq]
  cases f <;> rfl

theorem noteRaise_zone (flags : Byte) (action : PolicyAction) : (noteRaise f new flags action s).zone = (setFault f new s).zone := rfl

theorem noteRaise_fault (flags : Byte) (action : PolicyAction) : (noteRaise f new flags action s).fault = (setFault f new s).fault := rfl

theorem escalates_iff {r : FaultRecord} {now : Nat} :
    r.escalates now = true ↔ ∃ q, r.lastRecovery = some q ∧ now - q < 10000 ∧ 3 ≤ r.escalation := by
  have recent : r.recentRecovery now = true ↔ ∃ q, r.lastRecovery = some q ∧ now - q < 10000 := by
    unfold FaultRecord.recentRecovery
    cases r.lastRecovery with
    | none => exact ⟨fun h => (nomatch h), fun ⟨q, h, _⟩ => (nomatch h)⟩
    | some q => exact ⟨fun h => ⟨q, rfl, of_decide_eq_true h⟩, fun ⟨_, same, h⟩ => by cases same; exact decide_eq_true h⟩
  unfold FaultRecord.escalates
  rw [Bool.and_eq_true, recent, decide_eq_true_eq]
  constructor
  · rintro ⟨⟨q, last, soon⟩, often⟩
    exact ⟨q, last, soon, Nat.le_of_succ_le_succ often⟩
  · rintro ⟨q, last, soon, often⟩
    exact ⟨⟨q, last, soon⟩, Nat.succ_le_succ often⟩

theorem raisedState_actionable (escalated : Bool) :
    (raisedState p escalated).actionable = true ↔ p.mode = .latched ∨ p.mode = .retry ∨ escalated = true := by
  cases escalated with
  | true => simp [raisedState, FaultState.actionable]
  | false => cases mode : p.mode <;> simp [raisedState, mode, FaultState.actionable]

theorem raiseFlags_eq (escalated swapped : Bool) :
    raiseFlags escalated swapped = 1 + (if escalated then 2 else 0) + (if swapped then 4 else 0) := by
  cases escalated <;> cases swapped <;> rfl

theorem zoneConcerned_eq_some : s.zoneConcerned f = some z ↔ ∃ e k, f = .endpoint e k ∧ s.zoneOfEndpoint e = some z := by
  unfold State.zoneConcerned
  cases f <;> simp [faultEndpoint]

theorem zoneConcerned_of_still (h : t.still = s.still) (f : FaultRef) : t.zoneConcerned f = s.zoneConcerned f := by
  unfold State.zoneConcerned
  rw [show t.zoneOfEndpoint = s.zoneOfEndpoint from funext (zoneOfEndpoint_of_still h)]

/-! ### The swap of a raise (R126) -/

/-- What the raise of the record `f`, which takes the state `st`, finds where it swaps the zone `z`: the endpoint of the record is the active
one of an enabled zone in SERVICE, and `x`, on its other side, is PRESENT and free of actionable records. -/
structure SwapsTo (s : State) (f : FaultRef) (p : Policy) (st : FaultState) (z : ZoneId) (x : EndpointId) : Prop where
  acts : st.actionable = true
  action : p.action = .swap
  serving : s.service = .service
  concerned : s.zoneConcerned f = some z
  enabled : (s.zone z).enabled = true
  active : (s.zone z).active = faultEndpoint f
  standby : (s.zone z).standby.isSome = true
  other : (s.zone z).other = some x
  present : (s.endpoint x).presence = .present
  clear : ∀ j, (s.fault (.endpoint x j)).state.actionable = false

theorem swapTarget_eq_some : s.swapTarget f p st = some z ↔ ∃ x, SwapsTo s f p st z x := by
  unfold State.swapTarget
  constructor
  · intro h
    cases concerned : s.zoneConcerned f with
    | none => rw [concerned] at h; exact nomatch h
    | some y =>
      rw [concerned] at h
      simp only at h
      split at h
      · next all =>
        obtain ⟨acts, action, serving, enabled, active, condition⟩ := all
        cases h
        have standby : (s.zone z).standby.isSome = true := (Bool.and_eq_true_iff.mp condition).1
        cases other : (s.zone z).other with
        | none => simp [State.swapCondition, other] at condition
        | some x =>
          obtain ⟨present, clear⟩ := (swapCondition_iff standby other).mp condition
          exact ⟨x, acts, action, serving, concerned, enabled, active, standby, other, present, clear⟩
      · exact nomatch h
  · rintro ⟨x, h⟩
    rw [h.concerned]
    exact if_pos ⟨h.acts, h.action, h.serving, h.enabled, h.active, (swapCondition_iff h.standby h.other).mpr ⟨h.present, h.clear⟩⟩

/-- The zone that a raise swaps, in the terms of its endpoint; an actionable record of an endpoint keeps a zone from being swapped to it. -/
theorem swapsTo_iff (acts : new.state.actionable = true) : (∃ z x, SwapsTo (setFault f new s) f p new.state z x) ↔
    p.action = .swap ∧ s.service = .service ∧ ∃ e k x, f = .endpoint e k ∧ (s.endpoint e).inUse = true ∧
      (s.endpoint e).role ≠ .usherLight ∧ (s.zone (s.endpoint e).place).enabled = true ∧ (s.zone (s.endpoint e).place).active = some e ∧
      (s.zone (s.endpoint e).place).standby.isSome = true ∧ (s.zone (s.endpoint e).place).other = some x ∧ x ≠ e ∧
      (s.endpoint x).presence = .present ∧ ∀ j, (s.fault (.endpoint x j)).state.actionable = false := by
  constructor
  · rintro ⟨z, x, h⟩
    obtain ⟨e, k, rfl, zone⟩ := zoneConcerned_eq_some.mp h.concerned
    obtain ⟨used, role, rfl⟩ := zoneOfEndpoint_eq_some.mp zone
    have fault : ∀ g, (setFault (.endpoint e k) new s).fault g = if g = .endpoint e k then new else s.fault g :=
      fun g => setFault_fault _ _ _ _
    have ne : x ≠ e := by
      rintro rfl
      have faulty := h.clear k
      rw [fault, if_pos rfl, acts] at faulty
      exact nomatch faulty
    refine ⟨h.action, h.serving, e, k, x, rfl, used, role, h.enabled, h.active, h.standby, h.other, ne, h.present, fun j => ?_⟩
    have clear := h.clear j
    rw [fault, if_neg (by simp [ne])] at clear
    exact clear
  · rintro ⟨action, serving, e, k, x, rfl, used, role, enabled, active, standby, other, ne, present, clear⟩
    have concerned : s.zoneConcerned (.endpoint e k) = some (s.endpoint e).place :=
      zoneConcerned_eq_some.mpr ⟨e, k, rfl, zoneOfEndpoint_eq_some.mpr ⟨used, role, rfl⟩⟩
    refine ⟨(s.endpoint e).place, x, acts, action, serving, concerned,
      enabled, active, standby, other, present, fun j => ?_⟩
    rw [setFault_fault, if_neg (by simp [ne])]
    exact clear j

/-! ### The outcome of a raise -/

theorem raise_eq (hp : p = s.policy[policyIndex f]) (hnew : new = (s.fault f).raisedBy p s.now) {target : Option ZoneId}
    (htarget : target = (setFault f new s).swapTarget f p new.state)
    (ht : t = whenSome target swapZone (noteRaise f new (raiseFlags ((s.fault f).escalates s.now) target.isSome) p.action s)) :
    raise f s = if new.state.actionable then whenSome (s.zoneConcerned f) deriveProtection t else t := by
  have swapped : t.zoneConcerned f = s.zoneConcerned f := by
    refine zoneConcerned_of_still ?_ f
    rw [ht]
    exact whenSome_keeps _ State.still (fun z u => swapZone_still u z) target
  have now : (setFault f new s).now = s.now := rfl
  unfold raise
  simp only
  rw [← hp, ← hnew, ← htarget, faultEvent_setFault, now, ← ht, swapped]

theorem whenSome_some {α : Type} (a : α) (g : α → State → State) (s : State) : whenSome (some a) g s = g a s := rfl

theorem whenSome_none {α : Type} (g : α → State → State) (s : State) : whenSome none g s = s := rfl

theorem deriveProtection_same (h : s.protectionOf z = (s.zone z).protection) : deriveProtection z s = s := if_pos h

/-- A raise writes its record and queues its event; then, where it is actionable and concerns a zone, it swaps the zone or, where it may not,
derives its protection anew. -/
theorem raise_outcome (hp : p = s.policy[policyIndex f]) (hnew : new = (s.fault f).raisedBy p s.now) : ∃ (v : State) (swaps : Bool),
    v = noteRaise f new (raiseFlags ((s.fault f).escalates s.now) swaps) p.action s ∧
    (swaps = true ↔ ∃ z x, SwapsTo (setFault f new s) f p new.state z x) ∧
    ((new.state.actionable = false ∨ s.zoneConcerned f = none) ∧ swaps = false ∧ raise f s = v ∨
      ∃ z, new.state.actionable = true ∧ s.zoneConcerned f = some z ∧
        (swaps = false ∧ raise f s = deriveProtection z v ∨
          swaps = true ∧ raise f s = swapZone z v ∧ ∃ x, SwapsTo (setFault f new s) f p new.state z x)) := by
  have eq := raise_eq hp hnew rfl rfl
  cases target : (setFault f new s).swapTarget f p new.state with
  | none =>
    rw [target, whenSome_none, Option.isSome_none] at eq
    refine ⟨_, false, rfl, ⟨fun h => (nomatch h), fun ⟨z, h⟩ => ?_⟩, ?_⟩
    · rw [swapTarget_eq_some.mpr h] at target
      exact nomatch target
    · by_cases acts : new.state.actionable = true
      · rw [if_pos acts] at eq
        cases concerned : s.zoneConcerned f with
        | none => exact .inl ⟨.inr rfl, rfl, by rw [eq, concerned, whenSome_none]⟩
        | some z => exact .inr ⟨z, acts, rfl, .inl ⟨rfl, by rw [eq, concerned, whenSome_some]⟩⟩
      · rw [if_neg acts] at eq
        exact .inl ⟨.inl (by simpa using acts), rfl, eq⟩
  | some z =>
    obtain ⟨x, h⟩ := swapTarget_eq_some.mp target
    have concerned : s.zoneConcerned f = some z := h.concerned
    rw [target, if_pos h.acts, concerned, whenSome_some, whenSome_some, Option.isSome_some] at eq
    refine ⟨_, true, rfl, ⟨fun _ => ⟨z, x, h⟩, fun _ => rfl⟩, .inr ⟨z, h.acts, concerned, .inr ⟨rfl, ?_, x, h⟩⟩⟩
    obtain ⟨v, hv⟩ : ∃ v, v = noteRaise f new (raiseFlags ((s.fault f).escalates s.now) true) p.action s := ⟨_, rfl⟩
    have other : (v.zone z).other = some x := by rw [hv, noteRaise_zone]; exact h.other
    have clear : ∀ k, (v.fault (.endpoint x k)).state.actionable = false := by rw [hv, noteRaise_fault]; exact h.clear
    obtain ⟨w, hw⟩ : ∃ w, w = swapZone z v := ⟨_, rfl⟩
    obtain ⟨-, -, -, protection, -⟩ := swapZone_spec other clear hw
    have run : raise f s = deriveProtection z w := by rw [hw, hv]; exact eq
    rw [run, deriveProtection_same protection.symm, hw, hv]

/-! ### Other zones, and a zone that becomes MUTED (R61, R98, R125) -/

theorem deriveProtection_other (ne : y ≠ z) (s : State) : ((deriveProtection z s).zone y).protection = (s.zone y).protection := by
  have put : ∀ q, ((modZone z (fun r => { r with protection := q }) s).zone y).protection = (s.zone y).protection := fun q => by
    rw [modZone_zone, if_neg ne]
  unfold deriveProtection
  simp only
  split
  · rfl
  · split
    · obtain ⟨ls, ended, -⟩ := endCandidate_eq z (modZone z (fun r => { r with protection := s.protectionOf z }) s)
      rw [(unclaimed_zone (dropZone_unclaimed _ z) y).2, ended]
      exact put _
    · exact put _

theorem swapZone_other (other : (s.zone z).other = some x) (clear : ∀ k, (s.fault (.endpoint x k)).state.actionable = false) (ne : y ≠ z) :
    ((swapZone z s).zone y).protection = (s.zone y).protection := by
  obtain ⟨⟨v, hv, -, -, -, -, zone, -, -⟩, -⟩ := swapZone_spec other clear rfl
  obtain ⟨ls, es, ds, started, -⟩ := swapStart_eq z s
  have begun : v.zone y = s.zone y := by
    rw [hv, started]
    exact (vector_set_get _ _ _ _).trans (if_neg ne)
  rw [zone, if_neg ne, ← begun]
  rcases checkDrop_cases z v with eq | eq
  · rw [eq]
  · rw [eq]; exact (unclaimed_zone (dropZone_unclaimed v z) y).2

/-- A derivation that mutes a zone drops it from its call and ends its candidate. -/
theorem deriveProtection_muted (loud : (s.zone z).protection ≠ .muted) (muted : s.protectionOf z = .muted) :
    (s.ClaimsUnique → (deriveProtection z s).claimant z = none) ∧ (deriveProtection z s).loops = (endCandidate z s).loops := by
  obtain ⟨u, hu⟩ : ∃ u, u = modZone z (fun r => { r with protection := .muted }) s := ⟨_, rfl⟩
  have run : deriveProtection z s = dropZone z (endCandidate z u) := by
    unfold deriveProtection
    simp only [muted]
    rw [if_neg (Ne.symm loud), if_pos trivial, hu]
  obtain ⟨ls, ended, -⟩ := endCandidate_eq z u
  rw [run]
  refine ⟨fun unique => dropZone_unclaims ?_ z, ?_⟩
  · rw [ended, hu]
    exact unique
  · rw [dropZone_loops]
    ext i hi : 1
    have here : (endCandidate z u).loops[(⟨i, hi⟩ : ParamId)] = (endCandidate z s).loops[(⟨i, hi⟩ : ParamId)] := by
      rw [endCandidate_loop, endCandidate_loop, hu]
      rfl
    exact here

theorem observe_raises {r : FaultRecord} (hr : r = s.fault f) (hp : p = s.policy[policyIndex f]) (watched : p.mode ≠ .disabled)
    (state : r.state = .clear ∨ r.state = .counting) (enough : p.deglitch ≤ r.deglitch + 1) : observe f true s = raise f s := by
  subst hr hp
  have quiet : ¬ (s.fault f).state.raised = true := by rcases state with h | h <;> rw [h] <;> decide
  unfold observe
  simp only
  rw [if_neg watched, if_neg quiet, if_pos trivial, if_pos enough]

/-! ### What a raise leaves, by its outcome -/

/-- The zone of a swap (R47, R61, R125): its side, its loop record, its protection; no other zone changes side or protection. -/
theorem swapZone_effects (other : (s.zone z).other = some x) (clear : ∀ k, (s.fault (.endpoint x k)).state.actionable = false)
    (ht : t = swapZone z s) :
    (∀ y, (t.zone y).side = if y = z then (s.zone z).side.flip else (s.zone y).side) ∧
    (∀ l, s.loopOf z = some l → t.loops = s.loops.set l { s.loops[l] with candidate := none, accumulator := 0 }) ∧
    (t.zone z).protection = t.protectionOf z ∧ (t.zone z).protection ≠ .muted ∧
    ∀ y, y ≠ z → (t.zone y).protection = (s.zone y).protection := by
  obtain ⟨⟨v, -, -, -, -, -, zone, -, -⟩, side, -, protection, -⟩ := swapZone_spec other clear ht
  obtain ⟨ls, ended, loop⟩ := endCandidate_eq z s
  refine ⟨side, fun l bound => ?_, protection, ?_, fun y ne => ?_⟩
  · rw [ht, swapZone_loops, ended, ← loop l bound]
  · rw [zone, if_pos rfl]
    exact fun h => Protection.noConfusion h
  · rw [ht]; exact swapZone_other other clear ne

/-- The zone of a derivation (R61, R98, R125): its protection, and its claim and candidate where it becomes MUTED; no other zone changes. -/
theorem deriveProtection_effects (ht : t = deriveProtection z s) :
    (∀ y, (t.zone y).side = (s.zone y).side) ∧ (t.zone z).protection = t.protectionOf z ∧
    ((s.zone z).protection ≠ .muted → (t.zone z).protection = .muted →
      (s.ClaimsUnique → t.claimant z = none) ∧
      ∀ l, s.loopOf z = some l → t.loops[l].candidate = none ∧ t.loops[l].accumulator = 0) ∧
    ∀ y, y ≠ z → (t.zone y).protection = (s.zone y).protection := by
  obtain ⟨faults, sides, protection, -⟩ := deriveProtection_spec z s
  rw [← ht] at faults sides protection
  have still : t.still = s.still := ht ▸ deriveProtection_still s z
  refine ⟨sides, ?_, fun loud muted => ?_, fun y ne => ?_⟩
  · exact protection.trans (protectionOf_congr faults (active_of_side (still_zone still z) (sides z))).symm
  · obtain ⟨free, loops⟩ := deriveProtection_muted loud (protection.symm.trans muted)
    rw [← ht] at free loops
    refine ⟨free, fun l bound => ?_⟩
    rw [loops, endCandidate_loop, if_pos bound]
    exact ⟨rfl, rfl⟩
  · rw [ht]; exact deriveProtection_other ne s

end

/-- Settles O24, by the outcome of the raise: the record and event alone, a derivation, or a swap. -/
theorem raisesReportSwapAndProtect : Obligations.RaisesReportSwapAndProtect := by
  unfold Obligations.RaisesReportSwapAndProtect
  intro f s t r p escalated swapped hr hp watched state enough ht hescalated hswapped
  obtain ⟨new, hnew⟩ : ∃ new, new = (s.fault f).raisedBy p s.now := ⟨_, rfl⟩
  have run : t = raise f s := ht.trans (observe_raises hr hp watched state enough)
  have still : t.still = s.still := ht ▸ observe_still s f true
  have record : t.fault f = new := by rw [run, State.fault, raise_faults, ← hp, ← hnew]; exact (setFault_fault _ _ _ _).trans (if_pos rfl)
  have escalates : (s.fault f).escalates s.now = escalated := by rw [Bool.eq_iff_iff, escalates_iff, hescalated, hr]
  have newState : new.state = raisedState p escalated := by rw [hnew, ← escalates]; rfl
  have acts_iff : new.state.actionable = true ↔ p.mode = .latched ∨ p.mode = .retry ∨ escalated = true := by
    rw [newState, raisedState_actionable]
  obtain ⟨v, swaps, hv, hswaps, outcome⟩ := raise_outcome hp hnew
  have same : swaps = swapped := by
    rw [Bool.eq_iff_iff, hswaps, hswapped, ← acts_iff]
    constructor
    · rintro ⟨z, x, h⟩
      exact ⟨h.acts, (swapsTo_iff h.acts).mp ⟨z, x, h⟩⟩
    · rintro ⟨acts, h⟩
      exact (swapsTo_iff acts).mpr h
  subst same
  rw [escalates, raiseFlags_eq] at hv
  rw [← run] at outcome
  have events_v : v.events = s.eventsWith s.config.eventNode (s.faultEventRecord f
      (1 + (if escalated then 2 else 0) + (if swaps then 4 else 0)) new.state p.action new.escalation) := by rw [hv]; rfl
  have same_v : v.zone = s.zone ∧ v.call = s.call ∧ v.loops = s.loops ∧ v.loopOf = s.loopOf := by rw [hv]; exact ⟨rfl, rfl, rfl, rfl⟩
  obtain ⟨zone_v, call_v, loops_v, loopOf_v⟩ := same_v
  rw [record, ← events_v]
  have concerns : (∀ e k, f = .endpoint e k → s.zoneConcerned f = s.zoneOfEndpoint e) ∧
      ((∀ e k, f ≠ .endpoint e k) → s.zoneConcerned f = none) :=
    ⟨fun e k h => by rw [h]; rfl, fun h => by cases f with
      | endpoint e k => exact absurd rfl (h e k)
      | loop => rfl
      | device => rfl⟩
  obtain ⟨concerned_endpoint, concerned_none⟩ := concerns
  rcases outcome with ⟨idle, off, done⟩ | ⟨z, acts, concerned, ⟨off, done⟩ | ⟨on, done, x, h⟩⟩
  · have zone_t : t.zone = s.zone := by rw [done, zone_v]
    refine ⟨⟨[], by rw [done, List.append_nil]⟩, acts_iff, fun _ => ?_, fun z => ?_, fun z l on => ?_, fun z acts concerned => ?_,
      concerned_endpoint, concerned_none, fun z _ => by rw [zone_t], still⟩
    · rw [done, hv]; rfl
    · rw [zone_t, if_neg (by rw [off]; simp)]
    · rw [off] at on; exact nomatch on
    · rcases idle with quiet | none_
      · rw [quiet] at acts; exact nomatch acts
      · rw [none_] at concerned; exact nomatch concerned
  · obtain ⟨sides, protection, muted, others⟩ := deriveProtection_effects done
    rw [zone_v, loopOf_v] at muted
    rw [zone_v] at sides others
    refine ⟨done ▸ (deriveProtection_evolves v z).events, acts_iff, fun quiet => ?_, fun y => ?_, fun y l on => ?_, fun y _ at_y => ?_,
      concerned_endpoint, concerned_none, fun y ne => ?_, still⟩
    · rw [quiet] at acts; exact nomatch acts
    · rw [sides, if_neg (by rw [off]; simp)]
    · rw [off] at on; exact nomatch on
    · obtain rfl : z = y := Option.some.inj (concerned.symm.trans at_y)
      refine ⟨protection, fun loud silent => ?_⟩
      obtain ⟨free, ended⟩ := muted loud silent
      exact ⟨fun sound => free fun y c d => by rw [call_v]; exact sound.unique y c d, ended⟩
    · exact others y fun same => ne (same ▸ concerned)
  · have other : (v.zone z).other = some x := by rw [zone_v]; exact h.other
    have clear : ∀ k, (v.fault (.endpoint x k)).state.actionable = false := by rw [hv, noteRaise_fault]; exact h.clear
    obtain ⟨sides, loops, protection, loud, others⟩ := swapZone_effects other clear done
    rw [zone_v] at sides others
    rw [loops_v, loopOf_v] at loops
    refine ⟨done ▸ (swapZone_evolves v z).events, acts_iff, fun quiet => ?_, fun y => ?_, fun y l _ at_y => ?_, fun y _ at_y => ?_,
      concerned_endpoint, concerned_none, fun y ne => ?_, still⟩
    · rw [quiet] at acts; exact nomatch acts
    · rw [sides]
      by_cases here : y = z
      · subst here
        rw [if_pos rfl, if_pos ⟨on, concerned⟩]
        rfl
      · rw [if_neg here, if_neg fun both => here (Option.some.inj (both.2.symm.trans concerned))]
    · obtain rfl : z = y := Option.some.inj (concerned.symm.trans at_y)
      exact loops l
    · obtain rfl : z = y := Option.some.inj (concerned.symm.trans at_y)
      exact ⟨protection, fun _ silent => absurd silent loud⟩
    · exact others y fun same => ne (same ▸ concerned)

end Sys2Proof.Machine
end

section
/-! The report of a LOOP_AMP (Tables 3-4 and 3-5, R57 to R62): what it makes of the loop record and what it observes. -/

namespace Sys2Proof.Machine

section
variable {s t u v w : State} {z : ZoneId} {e : EndpointId} {l : ParamId} {f x : FaultRef} {p : Power}

/-! ### The loop processor's part of a report (R58 to R61) -/

theorem loopReport_idle (h : (s.zone z).enabled = false ∨ (s.zone z).active ≠ some e) : loopReport e z s = (s, some false, some false) :=
  if_pos h

section
variable (enabled : (s.zone z).enabled = true) (active : (s.zone z).active = some e) (kind : (s.zone z).kind = .loop)
  (bound : s.loopOf z = some l)
include enabled active kind bound

/-- The report of the active side of an enabled LOOP zone: the three cases that it makes. -/
theorem loopReport_active : loopReport e z s =
    if (s.zone z).protection = .muted ∨ (s.zone z).testMode ≠ .none then
      (modLoop l (fun x => { x with candidate := none, accumulator := 0 }) s,
        (s.endpoint e).current.map fun i => decide (s.loops[l].overcurrent < i), some false)
    else match (s.endpoint e).current with
      | none => (modLoop l (fun x => { x with accumulator := 0 }) s, none, none)
      | some i => (modLoop l (fun x => { x with candidate := (s.loops[l].openLoop i s.now).1, accumulator := 0 }) s,
          some (decide (s.loops[l].overcurrent < i)), (s.loops[l].openLoop i s.now).2) := by
  unfold loopReport
  simp only
  rw [if_neg (by rw [enabled, active]; simp), if_neg (by rw [kind]; simp), bound]
  simp only
  cases (s.endpoint e).current <;> rfl

theorem loopReport_suspended (off : (s.zone z).protection = .muted ∨ (s.zone z).testMode ≠ .none) : loopReport e z s =
    ({ s with loops := s.loops.set l { s.loops[l] with candidate := none, accumulator := 0 } },
      (s.endpoint e).current.map fun i => decide (s.loops[l].overcurrent < i), some false) := by
  rw [loopReport_active enabled active kind bound, if_pos off]
  rfl

theorem loopReport_unmeasured (on : ¬ ((s.zone z).protection = .muted ∨ (s.zone z).testMode ≠ .none))
    (current : (s.endpoint e).current = none) :
    loopReport e z s = ({ s with loops := s.loops.set l { s.loops[l] with accumulator := 0 } }, none, none) := by
  rw [loopReport_active enabled active kind bound, if_neg on, current]
  rfl

theorem loopReport_measured (on : ¬ ((s.zone z).protection = .muted ∨ (s.zone z).testMode ≠ .none)) {i : Nat}
    (current : (s.endpoint e).current = some i) : loopReport e z s =
      ({ s with loops := s.loops.set l { s.loops[l] with candidate := (s.loops[l].openLoop i s.now).1, accumulator := 0 } },
        some (decide (s.loops[l].overcurrent < i)), (s.loops[l].openLoop i s.now).2) := by
  rw [loopReport_active enabled active kind bound, if_neg on, current]
  rfl

/-- The peak accumulator is read and becomes 0 in every case. -/
theorem loopReport_accumulator : (loopReport e z s).1.loops[l].accumulator = 0 := by
  have put : ∀ g : LoopRecord → LoopRecord, (∀ r, (g r).accumulator = 0) → (modLoop l g s).loops[l].accumulator = 0 := fun g h => by
    rw [modLoop_get, if_pos rfl, h]
  rw [loopReport_active enabled active kind bound]
  split
  · exact put _ fun _ => rfl
  · split
    · exact put _ fun _ => rfl
    · exact put _ fun _ => rfl

end

/-- Table 3-5, line by line. -/
theorem openLoop_eq {r : LoopRecord} {i now : Nat} {candidate : Option Nat} {o : Option Bool}
    (h : (r.openCurrent ≤ i ∧ candidate = none ∧ o = some false) ∨
      (i < r.openCurrent ∧ r.accumulator < r.openSignal ∧ candidate = r.candidate ∧ o = none) ∨
      (i < r.openCurrent ∧ r.openSignal ≤ r.accumulator ∧ r.candidate = none ∧ candidate = some now ∧ o = none) ∨
      (∃ q, i < r.openCurrent ∧ r.openSignal ≤ r.accumulator ∧ r.candidate = some q ∧ candidate = some q ∧
        o = if r.openTime ≤ now - q then some true else none)) : r.openLoop i now = (candidate, o) := by
  unfold LoopRecord.openLoop
  rcases h with ⟨drawn, rfl, rfl⟩ | ⟨low, quiet, rfl, rfl⟩ | ⟨low, loud, first, rfl, rfl⟩ | ⟨q, low, loud, since, rfl, rfl⟩
  · rw [if_pos drawn]
  · rw [if_neg (Nat.not_le.mpr low), if_pos quiet]
  · rw [if_neg (Nat.not_le.mpr low), if_neg (Nat.not_lt.mpr loud), first]
  · rw [if_neg (Nat.not_le.mpr low), if_neg (Nat.not_lt.mpr loud), since]
    simp only
    split <;> rfl

/-- What a report reads: states that agree on it make one report. -/
theorem loopReport_congr (enabled : (t.zone z).enabled = (s.zone z).enabled) (active : (t.zone z).active = (s.zone z).active)
    (kind : (t.zone z).kind = (s.zone z).kind) (protection : (t.zone z).protection = (s.zone z).protection)
    (mode : (t.zone z).testMode = (s.zone z).testMode) (loops : t.loops = s.loops)
    (current : (t.endpoint e).current = (s.endpoint e).current) (now : t.now = s.now) :
    (loopReport e z t).2 = (loopReport e z s).2 ∧ (loopReport e z t).1.loops = (loopReport e z s).1.loops := by
  have bound : t.loopOf z = s.loopOf z := by unfold State.loopOf; rw [loops]
  unfold loopReport modLoop
  simp only [enabled, active, kind, protection, mode, bound, current, now, loops]
  split
  · exact ⟨rfl, loops⟩
  · split
    · exact ⟨rfl, loops⟩
    · cases s.loopOf z with
      | none => exact ⟨rfl, loops⟩
      | some l =>
        simp only
        split
        · exact ⟨rfl, rfl⟩
        · cases (s.endpoint e).current with
          | none => exact ⟨rfl, rfl⟩
          | some i => exact ⟨rfl, rfl⟩

/-! ### Observations handed over (R119) -/

theorem observeIf_still (f : FaultRef) (o : Option Bool) (s : State) : (observeIf f o s).still = s.still :=
  whenSome_keeps s State.still (fun b u => observe_still u f b) o

theorem observe_fault_other (ne : x ≠ f) (b : Bool) (s : State) : (observe f b s).fault x = s.fault x :=
  (observe_fault f x b s).trans (if_neg ne)

theorem observeIf_fault_other (ne : x ≠ f) (o : Option Bool) (s : State) : (observeIf f o s).fault x = s.fault x := by
  cases o with
  | none => rfl
  | some b => exact observe_fault_other ne b s

theorem observe_lastPresent (watched : s.policy[policyIndex f].mode ≠ .disabled) (b : Bool) :
    ((observe f b s).fault f).lastPresent = b := by
  rw [observe_fault, if_pos rfl, observed_lastPresent watched]

theorem observeIf_lastPresent (watched : s.policy[policyIndex f].mode ≠ .disabled) (o : Option Bool) :
    ((observeIf f o s).fault f).lastPresent = o.getD (s.fault f).lastPresent := by
  cases o with
  | none => rfl
  | some b => exact observe_lastPresent watched b

theorem policy_of_still (h : t.still = s.still) : t.policy = s.policy := (congrArg State.policy h :)

/-- The four observations of a report, in the order in which they are handed over (log 26). -/
def reportLooks (e : EndpointId) (heavy open_ : Option Bool) (thermal supply : Bool) (s : State) : State :=
  observe (supplyLowRef e) supply (observe (ampThermalRef e) thermal (observeIf (openLoopRef e) open_ (observeIf (overcurrentRef e) heavy s)))

theorem reportLooks_records (e : EndpointId) (heavy open_ : Option Bool) (thermal supply : Bool) (s : State)
    (ht : t = reportLooks e heavy open_ thermal supply s) :
    (s.policy[4].mode ≠ .disabled → (t.fault (ampThermalRef e)).lastPresent = thermal) ∧
    (s.policy[5].mode ≠ .disabled → (t.fault (supplyLowRef e)).lastPresent = supply) ∧
    (s.policy[2].mode ≠ .disabled →
      (t.fault (overcurrentRef e)).lastPresent = heavy.getD (s.fault (overcurrentRef e)).lastPresent) ∧
    (s.policy[3].mode ≠ .disabled →
      (t.fault (openLoopRef e)).lastPresent = open_.getD (s.fault (openLoopRef e)).lastPresent) := by
  have apart : ∀ j k : Fin 6, j ≠ k → FaultRef.endpoint e j ≠ FaultRef.endpoint e k := fun j k ne same => by
    injection same with _ same; exact ne same
  obtain ⟨a, ha⟩ : ∃ a, a = observeIf (overcurrentRef e) heavy s := ⟨_, rfl⟩
  obtain ⟨b, hb⟩ : ∃ b, b = observeIf (openLoopRef e) open_ a := ⟨_, rfl⟩
  obtain ⟨c, hc⟩ : ∃ c, c = observe (ampThermalRef e) thermal b := ⟨_, rfl⟩
  have last : t = observe (supplyLowRef e) supply c := by rw [ht, hc, hb, ha]; rfl
  have policy_a : a.policy = s.policy := policy_of_still (ha ▸ observeIf_still _ _ s)
  have policy_b : b.policy = s.policy := (policy_of_still (hb ▸ observeIf_still _ _ a)).trans policy_a
  have policy_c : c.policy = s.policy := (policy_of_still (hc ▸ observe_still b _ _)).trans policy_b
  have thermal_supply : ampThermalRef e ≠ supplyLowRef e := apart 4 5 (by decide)
  have heavy_supply : overcurrentRef e ≠ supplyLowRef e := apart 2 5 (by decide)
  have heavy_thermal : overcurrentRef e ≠ ampThermalRef e := apart 2 4 (by decide)
  have heavy_open : overcurrentRef e ≠ openLoopRef e := apart 2 3 (by decide)
  have open_supply : openLoopRef e ≠ supplyLowRef e := apart 3 5 (by decide)
  have open_thermal : openLoopRef e ≠ ampThermalRef e := apart 3 4 (by decide)
  rw [last]
  refine ⟨fun watched => ?_, fun watched => ?_, fun watched => ?_, fun watched => ?_⟩
  · rw [observe_fault_other thermal_supply, hc]
    exact observe_lastPresent (by rw [policy_b]; exact watched) thermal
  · exact observe_lastPresent (by rw [policy_c]; exact watched) supply
  · rw [observe_fault_other heavy_supply, hc, observe_fault_other heavy_thermal, hb, observeIf_fault_other heavy_open, ha]
    exact observeIf_lastPresent watched heavy
  · rw [observe_fault_other open_supply, hc, observe_fault_other open_thermal, hb,
      observeIf_lastPresent (by rw [policy_a]; exact watched), ha, observeIf_fault_other heavy_open.symm]

/-- Where the loop processor observes nothing, the records of its two kinds stay as they are. -/
theorem reportLooks_unheard (e : EndpointId) (thermal supply : Bool) (s : State) :
    (reportLooks e none none thermal supply s).fault (overcurrentRef e) = s.fault (overcurrentRef e) ∧
    (reportLooks e none none thermal supply s).fault (openLoopRef e) = s.fault (openLoopRef e) := by
  have other : ∀ k : Fin 6, k ≠ 4 → k ≠ 5 →
      (reportLooks e none none thermal supply s).fault (.endpoint e k) = s.fault (.endpoint e k) := fun k ne4 ne5 => by
    have apart : ∀ j : Fin 6, k ≠ j → FaultRef.endpoint e k ≠ FaultRef.endpoint e j := fun j ne same => by
      injection same with _ same; exact ne same
    exact (observe_fault_other (apart 5 ne5) _ _).trans (observe_fault_other (apart 4 ne4) _ _)
  exact ⟨other 2 (by decide) (by decide), other 3 (by decide) (by decide)⟩

/-! ### What the observations leave of a loop record (R61) -/

/-- A loop record whose accumulator was read, and whose candidate is the one given or has ended. -/
def LoopRecord.Reported (r : LoopRecord) (candidate : Option Nat) : Prop :=
  r.accumulator = 0 ∧ (r.candidate = candidate ∨ r.candidate = none)

theorem LoopRecord.Reported.of_ended {candidate : Option Nat} (h : s.loops[l].Reported candidate)
    (same : t.loops = s.loops ∨ t.loops = (endCandidate z s).loops) :
    t.loops[l].Reported candidate := by
  rcases same with eq | eq
  · rw [eq]; exact h
  · rw [eq, endCandidate_loop]
    split
    · exact ⟨rfl, .inr rfl⟩
    · exact h

theorem observe_reported {candidate : Option Nat} (h : s.loops[l].Reported candidate) (f : FaultRef) (b : Bool) :
    (observe f b s).loops[l].Reported candidate := by
  refine observe_induction (P := fun v => v.loops[l].Reported candidate) h (fun _ => h) (fun v flags st a n hv => ?_)
    (fun v _ _ _ y _ hv => ?_) (fun v y _ hv => ?_) b
  · unfold faultEvent
    rw [pushEvent_eq]
    exact hv
  · exact hv.of_ended (.inr (swapZone_loops y v))
  · exact hv.of_ended (deriveProtection_spec y v).2.2.2

theorem observeIf_reported {candidate : Option Nat} (h : s.loops[l].Reported candidate) (f : FaultRef) (o : Option Bool) :
    (observeIf f o s).loops[l].Reported candidate := by
  cases o with
  | none => exact h
  | some b => exact observe_reported h f b

theorem reportLooks_reported {candidate : Option Nat} (h : s.loops[l].Reported candidate) (e : EndpointId) (heavy open_ : Option Bool)
    (thermal supply : Bool) : (reportLooks e heavy open_ thermal supply s).loops[l].Reported candidate :=
  observe_reported (observe_reported (observeIf_reported (observeIf_reported h _ _) _ _) _ _) _ _

/-! ### The observations of one report (R57 to R63) -/

theorem reportObservations_loopAmp (role : (s.endpoint e).role = .loopAmp) (zone : s.zoneOfEndpoint e = some z) : reportObservations e s =
    reportLooks e (loopReport e z s).2.1 (loopReport e z s).2.2 (s.endpoint e).thermal (s.endpoint e).supplyLow (loopReport e z s).1 := by
  unfold reportObservations
  simp only
  rw [role, zone]
  rfl

theorem reportObservations_other (role : (s.endpoint e).role ≠ .loopAmp) : reportObservations e s =
    reportLooks e none none (s.endpoint e).thermal (s.endpoint e).supplyLow s := by
  unfold reportObservations
  simp only
  cases kind : (s.endpoint e).role with
  | loopAmp => exact absurd kind role
  | foyerAmp => rfl
  | descTx => rfl
  | loungeUnit => rfl
  | usherLight => rfl

theorem loopReport_faults (e : EndpointId) (z : ZoneId) (s : State) :
    (loopReport e z s).1.fault = s.fault ∧ (loopReport e z s).1.policy = s.policy := by
  obtain ⟨ls, eq⟩ := loopReport_eq e z s
  rw [eq]
  exact ⟨rfl, rfl⟩

theorem reportDrop_unclaimed (e : EndpointId) (s : State) : (reportDrop e s).unclaimed = s.unclaimed := by
  rcases reportDrop_cases e s with eq | ⟨y, -, -, eq⟩
  · rw [eq]
  · rw [eq]
    rcases checkDrop_cases y s with kept | dropped
    · rw [kept]
    · rw [dropped, dropZone_unclaimed]

/-- What a return frame does whose only record for the part is a TELEMETRY record of an endpoint (R35, R139). -/
theorem returnFrame_takes {g : RetFrame} {before after : List Record} {r : Record} (serving : s.service = .service)
    (commands : s.cmdQueue = []) (cues : s.cueQueue = []) (records : g.records = before ++ r :: after)
    (others : ∀ x ∈ before ++ after, recordFor s.node x = false) (hr : recordFor s.node r = true) (kind : recordKind r = 5)
    (used : (s.endpoint e).inUse = true) (node : (s.endpoint e).node = recordSource r)
    (only : ∀ x, (s.endpoint x).inUse = true → (s.endpoint x).node = recordSource r → x = e)
    (power : powerOf (byteAt r.payload 0) = some p) :
    exec (.returnFrameArrival g) s = .next (sendReturn g.header (freed s.node g.records) (telemetryFor e p r.payload (lockB s))) := by
  obtain ⟨v, hv⟩ : ∃ v, v = lockB s := ⟨_, rfl⟩
  obtain ⟨faults, alert, locked⟩ := lockB_eq s
  rw [← hv] at locked
  have node_v : v.node = s.node := by rw [locked]
  have endpoint_v : v.endpoint = s.endpoint := by rw [locked]; rfl
  have at_e : v.endpointAt (recordSource r) = some e := by
    refine endpointAt_some ?_ ?_ ?_
    · rw [endpoint_v]; exact used
    · rw [endpoint_v]; exact node
    · rw [endpoint_v]; exact only
  have taken : intakeB g.records v = telemetry r v := by
    rw [records, intakeB_one (by rw [node_v]; exact others), if_pos ⟨by rw [node_v]; exact hr, kind⟩]
  obtain ⟨-, -, commands_t, cues_t⟩ := telemetry_link r v
  have queues : (intakeB g.records (lockB s)).cmdQueue = s.cmdQueue ∧ (intakeB g.records (lockB s)).cueQueue = s.cueQueue := by
    rw [← hv, taken, commands_t, cues_t, locked]
    exact ⟨rfl, rfl⟩
  rw [returnFrame_eq g commands cues queues, ← hv, taken, telemetry_taken (by rw [locked]; exact serving) at_e power]

/-- A report of an endpoint that was PRESENT: its drop, its observations, the re-issue. -/
theorem telemetryFor_present (present : (s.endpoint e).presence = .present) (bytes : List Byte) (hw : w = reportDrop e
      (modEndpoint e (fun r => r.afterTelemetry s.config.debounce s.now p bytes) s)) :
    telemetryFor e p bytes s = reissueTest e (reportObservations e w) := by
  have there : (w.endpoint e).presence = .present := by
    rw [hw, (still_reports (reportDrop_still e _) e).1, modEndpoint_endpoint, if_pos rfl]
    unfold Endpoint.afterTelemetry Endpoint.presenceAfter
    rw [present]
  rw [telemetryFor_eq, ← hw]
  unfold reportRest
  rw [if_pos there, if_pos present]

theorem reissueTest_loops (e : EndpointId) (s : State) : (reissueTest e s).loops = s.loops := by
  rcases reissueTest_cases e s with eq | eq
  · rw [eq]
  · obtain ⟨_, _, issued⟩ := issuePower_eq e s
    rw [eq, issued]

/-- What the report of a PRESENT endpoint makes of the fault records of kinds 3 to 6 and of its zone's loop record, in the terms of the
report that the loop processor makes on the state `w`, which differs by the measured current alone. -/
theorem telemetryFor_reports {bytes : List Byte} (used : (s.endpoint e).inUse = true) (present : (s.endpoint e).presence = .present)
    (place : (s.endpoint e).place = z)
    (hw : w = { s with endpoints := s.endpoints.set e { s.endpoint e with current := telemetryCurrent bytes } })
    (ht : t = telemetryFor e p bytes s) :
    (s.policy[4].mode ≠ .disabled → (t.fault (ampThermalRef e)).lastPresent = (byteAt bytes 3).getLsbD 0) ∧
    (s.policy[5].mode ≠ .disabled → (t.fault (supplyLowRef e)).lastPresent = (byteAt bytes 3).getLsbD 1) ∧
    ((s.endpoint e).role = .loopAmp → s.policy[2].mode ≠ .disabled →
      (t.fault (overcurrentRef e)).lastPresent = (loopReport e z w).2.1.getD (s.fault (overcurrentRef e)).lastPresent) ∧
    ((s.endpoint e).role = .loopAmp → s.policy[3].mode ≠ .disabled →
      (t.fault (openLoopRef e)).lastPresent = (loopReport e z w).2.2.getD (s.fault (openLoopRef e)).lastPresent) ∧
    ((s.endpoint e).role ≠ .loopAmp → t.fault (overcurrentRef e) = s.fault (overcurrentRef e) ∧
      t.fault (openLoopRef e) = s.fault (openLoopRef e)) ∧
    ∀ l, (s.endpoint e).role = .loopAmp → (s.zone z).enabled = true → (s.zone z).active = some e → (s.zone z).kind = .loop →
      s.loopOf z = some l → t.loops[l].Reported (loopReport e z w).1.loops[l].candidate := by
  obtain ⟨a, ha⟩ : ∃ a, a = modEndpoint e (fun r => r.afterTelemetry s.config.debounce s.now p bytes) s := ⟨_, rfl⟩
  obtain ⟨b, hb⟩ : ∃ b, b = reportDrop e a := ⟨_, rfl⟩
  obtain ⟨d, hd⟩ : ∃ d, d = reportObservations e b := ⟨_, rfl⟩
  have run : t = reissueTest e d := by rw [ht, telemetryFor_present present bytes (w := b) (by rw [hb, ha]), hd]
  have fault_t : t.fault = d.fault := by rw [run, reissueTest_fault]
  have loops_t : t.loops = d.loops := by rw [run, reissueTest_loops]
  have record : a.endpoint e = (s.endpoint e).afterTelemetry s.config.debounce s.now p bytes := by
    rw [ha, modEndpoint_endpoint, if_pos rfl]
  have still_b : b.still = a.still := hb ▸ reportDrop_still e a
  have policy_b : b.policy = s.policy := (policy_of_still still_b).trans (by rw [ha]; rfl)
  have fault_b : b.fault = s.fault := by rw [hb, reportDrop_fault, ha]; rfl
  have unclaimed_b : b.unclaimed = a.unclaimed := hb ▸ reportDrop_unclaimed e a
  have loops_b : b.loops = s.loops := by
    have kept : b.loops = a.loops := congrArg (fun v => v.2.2) unclaimed_b
    rw [kept, ha]
    rfl
  have endpoint_b := still_endpoint still_b e
  rw [record] at endpoint_b
  have role_b : (b.endpoint e).role = (s.endpoint e).role := (congrArg Endpoint.role endpoint_b :)
  have thermal_b : (b.endpoint e).thermal = (byteAt bytes 3).getLsbD 0 := (congrArg Endpoint.thermal endpoint_b :)
  have supply_b : (b.endpoint e).supplyLow = (byteAt bytes 3).getLsbD 1 := (congrArg Endpoint.supplyLow endpoint_b :)
  have current_b : (b.endpoint e).current = telemetryCurrent bytes := (congrArg Endpoint.current endpoint_b :)
  have used_b : (b.endpoint e).inUse = (s.endpoint e).inUse := (congrArg Endpoint.inUse endpoint_b :)
  have place_b : (b.endpoint e).place = (s.endpoint e).place := (congrArg Endpoint.place endpoint_b :)
  have zone_a : a.zone z = s.zone z := by rw [ha]; rfl
  have zone_b := still_zone still_b z
  obtain ⟨side_b, protection_b⟩ := unclaimed_zone unclaimed_b z
  have active_b : (b.zone z).active = (s.zone z).active := zone_a ▸ active_of_side zone_b side_b
  rw [zone_a] at zone_b protection_b
  have zone_w : w.zone = s.zone := by rw [hw]; rfl
  have current_w : (w.endpoint e).current = telemetryCurrent bytes := by
    have here : w.endpoint e = { s.endpoint e with current := telemetryCurrent bytes } := by
      rw [hw]; exact (vector_set_get _ _ _ _).trans (if_pos rfl)
    rw [here]
  obtain ⟨reports, records⟩ : (loopReport e z b).2 = (loopReport e z w).2 ∧ (loopReport e z b).1.loops = (loopReport e z w).1.loops := by
    have enabled : (b.zone z).enabled = (s.zone z).enabled := (congrArg Zone.enabled zone_b :)
    have kind : (b.zone z).kind = (s.zone z).kind := (congrArg Zone.kind zone_b :)
    have mode : (b.zone z).testMode = (s.zone z).testMode := (congrArg Zone.testMode zone_b :)
    refine loopReport_congr ?_ ?_ ?_ ?_ ?_ ?_ (current_b.trans current_w.symm) ?_
    · rw [zone_w]; exact enabled
    · rw [zone_w]; exact active_b
    · rw [zone_w]; exact kind
    · rw [zone_w]; exact protection_b
    · rw [zone_w]; exact mode
    · rw [loops_b, hw]
    · rw [still_now still_b, ha, hw]; rfl
  rw [fault_t, loops_t]
  by_cases role : (s.endpoint e).role = .loopAmp
  · have concerned : b.zoneOfEndpoint e = some z := zoneOfEndpoint_eq_some.mpr
      ⟨used_b.trans used, by rw [role_b, role]; decide, place_b.trans place⟩
    have looks := reportObservations_loopAmp (role_b.trans role) concerned
    rw [← hd, reports, thermal_b, supply_b] at looks
    obtain ⟨fault, policy⟩ := loopReport_faults e z b
    obtain ⟨thermal, supply, heavy, open_⟩ := reportLooks_records _ _ _ _ _ _ looks
    rw [policy, policy_b] at thermal supply heavy open_
    rw [fault, fault_b] at heavy open_
    refine ⟨thermal, supply, fun _ => heavy, fun _ => open_, fun other => absurd role other, fun l _ enabled active kind bound => ?_⟩
    rw [looks]
    refine reportLooks_reported ⟨?_, .inl (by rw [records])⟩ _ _ _ _ _
    rw [records]
    exact loopReport_accumulator (by rw [zone_w]; exact enabled) (by rw [zone_w]; exact active) (by rw [zone_w]; exact kind)
      (by rw [hw]; exact bound)
  · have looks := reportObservations_other (e := e) (s := b) (by rw [role_b]; exact role)
    rw [← hd, thermal_b, supply_b] at looks
    obtain ⟨thermal, supply, -, -⟩ := reportLooks_records _ _ _ _ _ _ looks
    rw [policy_b] at thermal supply
    refine ⟨thermal, supply, fun amp => absurd amp role, fun amp => absurd amp role, fun _ => ?_, fun l amp => absurd amp role⟩
    obtain ⟨heavy, open_⟩ := reportLooks_unheard e (byteAt bytes 3 |>.getLsbD 0) (byteAt bytes 3 |>.getLsbD 1) b
    rw [looks, heavy, open_, fault_b]
    exact ⟨rfl, rfl⟩

end

/-- Settles O29: the report by the side and the state of its zone, then a TELEMETRY record of a PRESENT endpoint. -/
theorem loopReportsFollowTheirTables : Obligations.LoopReportsFollowTheirTables := by
  unfold Obligations.LoopReportsFollowTheirTables
  refine ⟨fun e z s => ⟨loopReport_idle, fun l r I enabled active kind bound hr hI => ?_⟩, ?_⟩
  · subst hr hI
    refine ⟨loopReport_suspended enabled active kind bound, fun loud mode => ?_⟩
    have on : ¬ ((s.zone z).protection = .muted ∨ (s.zone z).testMode ≠ .none) := fun h => h.elim loud fun other => other mode
    refine ⟨loopReport_unmeasured enabled active kind bound on, fun i current candidate o table => ?_⟩
    rw [loopReport_measured enabled active kind bound on current, openLoop_eq table]
  · intro f s before after r e p z w serving commands cues records others hr kind used node only power present place hw
    have run := returnFrame_takes serving commands cues records others hr kind used node only power
    obtain ⟨v, hv⟩ : ∃ v, v = lockB s := ⟨_, rfl⟩
    obtain ⟨d, hd⟩ : ∃ d, d = telemetryFor e p r.payload v := ⟨_, rfl⟩
    obtain ⟨faults, alert, locked⟩ := lockB_eq s
    have fault_v : ∀ k, v.fault (.endpoint e k) = s.fault (.endpoint e k) := fun k => hv ▸ lockB_fault e k s
    rw [← hv, ← hd] at run
    rw [← hv] at locked
    have endpoint_v : v.endpoint e = s.endpoint e := by rw [locked]; rfl
    have same_v : v.policy = s.policy ∧ v.zone = s.zone ∧ v.loopOf = s.loopOf := by rw [locked]; exact ⟨rfl, rfl, rfl⟩
    obtain ⟨policy_v, zone_v, loopOf_v⟩ := same_v
    obtain ⟨u, hu⟩ : ∃ u,
        u = { v with endpoints := v.endpoints.set e { v.endpoint e with current := telemetryCurrent r.payload } } := ⟨_, rfl⟩
    obtain ⟨reports, loops⟩ : (loopReport e z u).2 = (loopReport e z w).2 ∧ (loopReport e z u).1.loops = (loopReport e z w).1.loops := by
      rw [hu, hw, locked]
      exact loopReport_congr rfl rfl rfl rfl rfl rfl rfl rfl
    obtain ⟨thermal, supply, heavy, open_, other, record⟩ := telemetryFor_reports (z := z) (by rw [endpoint_v]; exact used)
      (by rw [endpoint_v]; exact present) (by rw [endpoint_v]; exact place) hu hd
    have over_v : v.fault (overcurrentRef e) = s.fault (overcurrentRef e) := fault_v 2
    have open_v : v.fault (openLoopRef e) = s.fault (openLoopRef e) := fault_v 3
    rw [policy_v] at thermal supply heavy open_
    rw [endpoint_v, over_v, reports] at heavy
    rw [endpoint_v, open_v, reports] at open_
    rw [endpoint_v, over_v, open_v] at other
    rw [endpoint_v, zone_v, loopOf_v, loops] at record
    refine ⟨_, run, thermal, supply, heavy, open_, fun role => ?_, record⟩
    obtain ⟨heavy_kept, open_kept⟩ := other role
    exact ⟨congrArg FaultRecord.lastPresent heavy_kept, congrArg FaultRecord.lastPresent open_kept⟩

end Sys2Proof.Machine
end

section
/-! The AGC step (Table 3-3, R54 to R56, R59) and the VOX step (Table 4-3, R72), and the steps that a downstream frame takes of them. -/

namespace Sys2Proof.Machine

/-! ### One AGC step (R55, R56, R59) -/

section
variable {s t u : State} {z x : ZoneId} {l r : LoopRecord} {claimed : Bool} {p : Nat}

theorem overLimit_iff : s.overLimit z l = true ↔ ∃ e i, (s.zone z).active = some e ∧ (s.endpoint e).presence = .present ∧
    (s.endpoint e).current = some i ∧ l.currentLimit < i := by
  unfold State.overLimit
  cases (s.zone z).active with
  | none => simp
  | some e => cases current : (s.endpoint e).current <;> simp [current]

theorem agcCase_hold (off : (s.zone z).protection = .muted ∨ (s.zone z).testMode ≠ .none) : s.agcCase z l claimed p = .hold := if_pos off

/-- The cases of Table 3-3 below the first, while the zone is neither MUTED nor in a test mode. -/
theorem agcCase_on (loud : (s.zone z).protection ≠ .muted) (mode : (s.zone z).testMode = .none) : s.agcCase z l claimed p =
    if s.overLimit z l then .limit else if claimed then .callHold else if l.target < p then .attack
    else if p < l.target - l.window then .release else .window :=
  if_neg fun off => off.elim loud fun other => other mode

theorem agcAfter_bounds (k : AgcCase) (lo : l.agcMin ≤ l.agc) (hi : l.agc ≤ l.agcMax) :
    l.agcMin ≤ l.agcAfter k ∧ l.agcAfter k ≤ l.agcMax := by
  cases k <;> simp only [LoopRecord.agcAfter] <;> omega

theorem afterStep_hold (l : LoopRecord) (p : Nat) : l.afterStep .hold p = { l with limited := false, saturated := false } := rfl

/-- What every case but the first does beside the gain. -/
theorem afterStep_on {k : AgcCase} (on : k ≠ .hold) : (l.afterStep k p).accumulator = max l.accumulator p ∧
    (l.afterStep k p).candidate = l.candidate ∧ ((l.afterStep k p).limited = true ↔ k = .limit) := by
  refine ⟨if_neg on, rfl, ?_⟩
  simp [LoopRecord.afterStep]

/-- A gain saturates at its minimum, and in the attack alone. -/
theorem afterStep_saturated {k : AgcCase} : (l.afterStep k p).saturated = true ↔ k = .attack ∧ l.agcAfter k = l.agcMin := by
  simp [LoopRecord.afterStep]

/-- Every case but the attack leaves the gain unsaturated. -/
theorem afterStep_calm {k : AgcCase} (calm : k ≠ .attack) : (l.afterStep k p).saturated = false :=
  Bool.eq_false_iff.mpr fun saturated => calm (afterStep_saturated.mp saturated).1

/-- Table 3-3 below its first case: each line's condition gives the case, and the case the gain and the flags. -/
theorem afterStep_table {k : AgcCase} (table : k = if s.overLimit z l then .limit else if claimed then .callHold
    else if l.target < p then .attack else if p < l.target - l.window then .release else .window) :
    (s.overLimit z l = true → (l.afterStep k p).agc = max l.agcMin (l.agc - l.limitStep) ∧ (l.afterStep k p).saturated = false) ∧
    (s.overLimit z l = false → claimed = true → (l.afterStep k p).agc = l.agc ∧ (l.afterStep k p).saturated = false) ∧
    (s.overLimit z l = false → claimed = false →
      (l.target < p → (l.afterStep k p).agc = max l.agcMin (l.agc - l.attack) ∧
        ((l.afterStep k p).saturated = true ↔ (l.afterStep k p).agc = l.agcMin)) ∧
      (p + l.window < l.target → (l.afterStep k p).agc = min l.agcMax (l.agc + l.release) ∧ (l.afterStep k p).saturated = false) ∧
      (p ≤ l.target → l.target ≤ p + l.window → (l.afterStep k p).agc = l.agc ∧ (l.afterStep k p).saturated = false)) := by
  refine ⟨fun above => ?limit, fun calm call => ?callHold, fun calm free => ⟨fun loud => ?attack, fun quiet => ?release,
    fun high low => ?window⟩⟩
  case limit =>
    rw [if_pos above] at table
    rw [table]
    exact ⟨rfl, afterStep_calm nofun⟩
  case callHold =>
    rw [calm, if_neg Bool.false_ne_true, if_pos call] at table
    rw [table]
    exact ⟨rfl, afterStep_calm nofun⟩
  all_goals rw [calm, free, if_neg Bool.false_ne_true, if_neg Bool.false_ne_true] at table
  case attack =>
    rw [if_pos loud] at table
    rw [table]
    exact ⟨rfl, afterStep_saturated.trans (and_iff_right rfl)⟩
  case release =>
    rw [if_neg (by omega), if_pos (by omega)] at table
    rw [table]
    exact ⟨rfl, afterStep_calm nofun⟩
  case window =>
    rw [if_neg (by omega), if_neg (by omega)] at table
    rw [table]
    exact ⟨rfl, afterStep_calm nofun⟩

/-- The current limit is the first case below the hold, and no other leads to it. -/
theorem agcCase_limit_iff (loud : (s.zone z).protection ≠ .muted) (mode : (s.zone z).testMode = .none) :
    s.agcCase z l claimed p ≠ .hold ∧ (s.agcCase z l claimed p = .limit ↔ s.overLimit z l = true) := by
  rw [agcCase_on loud mode]
  split
  · next above => simp [above]
  · next calm =>
    simp only [calm]
    split_ifs <;> simp

/-- What the case of an AGC step is read from. -/
theorem agcCase_congr (protection : (t.zone z).protection = (s.zone z).protection) (mode : (t.zone z).testMode = (s.zone z).testMode)
    (active : (t.zone z).active = (s.zone z).active) (endpoints : t.endpoints = s.endpoints) : t.agcCase z = s.agcCase z := by
  have limit : t.overLimit z = s.overLimit z := by
    funext r
    unfold State.overLimit State.endpoint
    rw [active, endpoints]
  funext r c q
  unfold State.agcCase
  rw [protection, mode, limit]

/-! ### One VOX step (R72) -/

theorem voxStep_opens {d : DescRecord} {v : Nat} (h : d.onThreshold ≤ v) :
    d.voxStep v = { d with voxActive := true, holdRemaining := d.holdTime } := if_pos h

theorem voxStep_rests {d : DescRecord} {v : Nat} (low : v < d.onThreshold) (h : d.voxActive = false ∨ d.offThreshold ≤ v) :
    d.voxStep v = d := by
  unfold DescRecord.voxStep
  rw [if_neg (Nat.not_le.mpr low), if_neg]
  rintro ⟨active, quiet⟩
  rcases h with off | loud
  · rw [off] at active; exact nomatch active
  · exact Nat.not_le.mpr quiet loud

theorem voxStep_holds {d : DescRecord} {v : Nat} (low : v < d.onThreshold) (active : d.voxActive = true) (quiet : v < d.offThreshold) :
    d.voxStep v = if 1 < d.holdRemaining then { d with holdRemaining := d.holdRemaining - 1 }
      else { d with voxActive := false, holdRemaining := 0 } := by
  unfold DescRecord.voxStep
  rw [if_neg (Nat.not_le.mpr low), if_pos ⟨active, quiet⟩]

end

/-! ### The steps of one zone (R54, R72) -/

/-- From `s` to `t` nothing changed that the steps after the mix event read of another zone than their own. -/
structure MixSteps (s t : State) : Prop where
  zones : t.zones = s.zones
  endpoints : t.endpoints = s.endpoints
  policy : t.policy = s.policy
  now : t.now = s.now
  peaks : t.ingressPeaks = s.ingressPeaks
  loopOf : t.loopOf = s.loopOf
  descOf : t.descOf = s.descOf

namespace MixSteps
variable {s t u : State}

theorem refl (s : State) : MixSteps s s := ⟨rfl, rfl, rfl, rfl, rfl, rfl, rfl⟩

theorem trans (h : MixSteps s t) (g : MixSteps t u) : MixSteps s u :=
  ⟨g.zones.trans h.zones, g.endpoints.trans h.endpoints, g.policy.trans h.policy, g.now.trans h.now, g.peaks.trans h.peaks,
    g.loopOf.trans h.loopOf, g.descOf.trans h.descOf⟩

theorem zone (h : MixSteps s t) : t.zone = s.zone := by
  funext z
  unfold State.zone
  rw [h.zones]

end MixSteps

section
variable {s t u : State} {z x : ZoneId} {l : ParamId} {d : ParamId} {f : FaultRef} {new : LoopRecord} {h : HandOff}
  {mixes : List (Option ZoneMix)}

theorem observed_congr (fault : t.fault f = s.fault f) (policy : t.policy = s.policy) (now : t.now = s.now) : t.observed f = s.observed f := by
  funext b
  unfold State.observed
  rw [fault, policy, now]

/-- A fault of a loop record acts on no zone. -/
theorem observe_loop_eq (l : ParamId) (k : Fin 2) (b : Bool) (s : State) :
    ∃ fs al es, observe (.loop l k) b s = { s with faults := fs, alert := al, events := es } := by
  refine observe_induction (P := fun v => ∃ fs al es, v = { s with faults := fs, alert := al, events := es }) (f := .loop l k)
    ⟨_, _, _, rfl⟩ (fun _ => ⟨_, _, _, rfl⟩) (fun v flags st a n hv => ?_) (fun v p st r y target => ?_) (fun v y concerned => ?_) b
  · obtain ⟨fs, al, es, rfl⟩ := hv
    unfold faultEvent
    rw [pushEvent_eq]
    exact ⟨_, _, _, rfl⟩
  · exact nomatch (show none = some y from target)
  · exact nomatch (show none = some y from concerned)

theorem agcStep_idle (idle : ∀ l, (s.zone z).kind = .loop → s.loopOf z ≠ some l) : agcStep h z s = s := by
  unfold agcStep
  split
  · next kind =>
    cases bound : s.loopOf z with
    | none => rfl
    | some l => exact absurd bound (idle l kind)
  · rfl

/-- The AGC step of a LOOP zone: its record, and the two observations, of the record's own faults alone. -/
theorem agcStep_own (kind : (s.zone z).kind = .loop) (bound : s.loopOf z = some l)
    (hnew : new = s.loops[l].afterStep (s.agcCase z s.loops[l] (h.claim z).isSome (s.zone z).peak) (s.zone z).peak) :
    (∃ fs al es, agcStep h z s = { s with loops := s.loops.set l new, faults := fs, alert := al, events := es }) ∧
    ∀ f, (agcStep h z s).fault f = if f = agcSaturatedRef l then s.observed f new.saturated
      else if f = currentLimitedRef l then s.observed f new.limited else s.fault f := by
  have run : agcStep h z s = observe (agcSaturatedRef l) new.saturated (observe (currentLimitedRef l) new.limited
      { s with loops := s.loops.set l new }) := by
    unfold agcStep
    rw [if_pos kind, bound, hnew]
    rfl
  obtain ⟨v, hv⟩ : ∃ v, v = observe (currentLimitedRef l) new.limited { s with loops := s.loops.set l new } := ⟨_, rfl⟩
  obtain ⟨fs, al, es, limited⟩ := observe_loop_eq l 1 new.limited { s with loops := s.loops.set l new }
  obtain ⟨fs', al', es', saturated⟩ := observe_loop_eq l 0 new.saturated v
  have eq : v = { s with loops := s.loops.set l new, faults := fs, alert := al, events := es } := hv.trans limited
  have apart : agcSaturatedRef l ≠ currentLimitedRef l := by simp [agcSaturatedRef, currentLimitedRef]
  have record : ∀ f, v.fault f = if f = currentLimitedRef l then s.observed f new.limited else s.fault f := fun f => by
    rw [hv, observe_fault]
    split
    · next same => rw [same]; rfl
    · rfl
  rw [run, ← hv]
  refine ⟨⟨fs', al', es', saturated.trans (by rw [eq])⟩, fun f => ?_⟩
  rw [observe_fault, record]
  split
  · next same =>
    rw [same, observed_congr (s := s) ((record _).trans (if_neg apart)) (by rw [eq]) (by rw [eq])]
  · rfl

theorem agcStep_cases (h : HandOff) (z : ZoneId) (s : State) : agcStep h z s = s ∨
    ∃ l new, (s.zone z).kind = .loop ∧ s.loopOf z = some l ∧
      new = s.loops[l].afterStep (s.agcCase z s.loops[l] (h.claim z).isSome (s.zone z).peak) (s.zone z).peak := by
  by_cases idle : ∀ l, (s.zone z).kind = .loop → s.loopOf z ≠ some l
  · exact .inl (agcStep_idle idle)
  · simp only [not_forall, not_not] at idle
    obtain ⟨l, kind, bound⟩ := idle
    exact .inr ⟨l, _, kind, bound, rfl⟩

theorem agcStep_mixSteps (h : HandOff) (z : ZoneId) (s : State) : MixSteps s (agcStep h z s) ∧ (agcStep h z s).descs = s.descs := by
  rcases agcStep_cases h z s with eq | ⟨l, new, kind, bound, hnew⟩
  · rw [eq]; exact ⟨.refl s, rfl⟩
  · obtain ⟨⟨fs, al, es, eq⟩, -⟩ := agcStep_own kind bound hnew
    have bindings : ({ s with loops := s.loops.set l new } : State).loopOf = s.loopOf := loopOf_congr fun i => by
      show (s.loops.set l new)[i].zone = _
      rw [vector_set_get]
      split
      · next same => rw [hnew, same]; rfl
      · rfl
    rw [eq]
    exact ⟨⟨rfl, rfl, rfl, rfl, rfl, bindings, rfl⟩, rfl⟩

theorem agcStep_loop_other (other : (s.zone z).kind = .loop → s.loopOf z ≠ some l) :
    (agcStep h z s).loops[l] = s.loops[l] ∧ ∀ k, (agcStep h z s).fault (.loop l k) = s.fault (.loop l k) := by
  rcases agcStep_cases h z s with eq | ⟨y, new, kind, bound, hnew⟩
  · rw [eq]; exact ⟨rfl, fun _ => rfl⟩
  · obtain ⟨⟨fs, al, es, eq⟩, record⟩ := agcStep_own kind bound hnew
    have ne : l ≠ y := fun same => other kind (same ▸ bound)
    have apart : ∀ j k, FaultRef.loop l k ≠ FaultRef.loop y j := fun j k same => by injection same with same _; exact ne same
    refine ⟨?_, fun k => ?_⟩
    · rw [eq]; exact (vector_set_get _ _ _ _).trans (if_neg ne)
    · rw [record]; exact (if_neg (apart 0 k)).trans (if_neg (apart 1 k))

theorem agcStep_fault_other (other : ∀ l k, f ≠ .loop l k) : (agcStep h z s).fault f = s.fault f := by
  rcases agcStep_cases h z s with eq | ⟨l, new, kind, bound, hnew⟩
  · rw [eq]
  · rw [(agcStep_own kind bound hnew).2]
    exact (if_neg (other l 0)).trans (if_neg (other l 1))

theorem voxTest_own (kind : (s.zone z).kind = .desc) (bound : s.descOf z = some d) :
    voxTest z s = { s with descs := s.descs.set d (s.descs[d].voxStep s.ingressPeaks[s.descs[d].voiceSlot]) } := by
  unfold voxTest
  rw [if_pos kind, bound]
  rfl

theorem voxTest_idle (idle : ∀ d, (s.zone z).kind = .desc → s.descOf z ≠ some d) : voxTest z s = s := by
  unfold voxTest
  split
  · next kind =>
    cases bound : s.descOf z with
    | none => rfl
    | some d => exact absurd bound (idle d kind)
  · rfl

theorem voxTest_mixSteps (z : ZoneId) (s : State) :
    MixSteps s (voxTest z s) ∧ (voxTest z s).loops = s.loops ∧ (voxTest z s).fault = s.fault := by
  by_cases idle : ∀ d, (s.zone z).kind = .desc → s.descOf z ≠ some d
  · rw [voxTest_idle idle]; exact ⟨.refl s, rfl, rfl⟩
  · simp only [not_forall, not_not] at idle
    obtain ⟨d, kind, bound⟩ := idle
    have bindings : ({ s with descs := s.descs.set d (s.descs[d].voxStep s.ingressPeaks[s.descs[d].voiceSlot]) } : State).descOf =
        s.descOf := descOf_congr fun i => by
      show (s.descs.set d _)[i].zone = _
      rw [vector_set_get]
      split
      · next same => rw [same]; exact (congrArg DescRecord.zone (voxStep_settings s.descs[d] _) :)
      · rfl
    rw [voxTest_own kind bound]
    exact ⟨⟨rfl, rfl, rfl, rfl, rfl, rfl, bindings⟩, rfl, rfl⟩

theorem voxTest_desc_other (other : (s.zone z).kind = .desc → s.descOf z ≠ some d) : (voxTest z s).descs[d] = s.descs[d] := by
  by_cases idle : ∀ d, (s.zone z).kind = .desc → s.descOf z ≠ some d
  · rw [voxTest_idle idle]
  · simp only [not_forall, not_not] at idle
    obtain ⟨y, kind, bound⟩ := idle
    rw [voxTest_own kind bound]
    exact (vector_set_get _ _ _ _).trans (if_neg fun same : d = y => other kind (same ▸ bound))

/-! ### The steps of all zones -/

/-- The steps of one zone, where it formed a block. -/
def afterMixStep (h : HandOff) (mixes : List (Option ZoneMix)) (z : ZoneId) (s : State) : State :=
  if (mixOf mixes z).isSome then voxTest z (agcStep h z s) else s

theorem afterMixStep_mixSteps (h : HandOff) (mixes : List (Option ZoneMix)) (z : ZoneId) (s : State) :
    MixSteps s (afterMixStep h mixes z s) := by
  unfold afterMixStep
  split
  · exact (agcStep_mixSteps h z s).1.trans (voxTest_mixSteps z _).1
  · exact .refl s

/-- A loop record and its two fault records as they stand. -/
def State.loopKept (s : State) (l : ParamId) (t : State) : Prop := t.loops[l] = s.loops[l] ∧ ∀ k, t.fault (.loop l k) = s.fault (.loop l k)

theorem afterMixStep_loop_other (other : (mixOf mixes z).isSome = true → (s.zone z).kind = .loop → s.loopOf z ≠ some l) :
    s.loopKept l (afterMixStep h mixes z s) := by
  unfold afterMixStep
  split
  · next formed =>
    obtain ⟨-, loops, fault⟩ := voxTest_mixSteps z (agcStep h z s)
    unfold State.loopKept
    rw [loops, fault]
    exact agcStep_loop_other (other formed)
  · exact ⟨rfl, fun _ => rfl⟩

theorem afterMixStep_desc_other (other : (mixOf mixes z).isSome = true → (s.zone z).kind = .desc → s.descOf z ≠ some d) :
    (afterMixStep h mixes z s).descs[d] = s.descs[d] := by
  unfold afterMixStep
  split
  · next formed =>
    obtain ⟨same, descs⟩ := agcStep_mixSteps h z s
    rw [voxTest_desc_other, descs]
    rw [same.zone, same.descOf]
    exact other formed
  · rfl

theorem afterMixStep_fault_other (other : ∀ l k, f ≠ .loop l k) : (afterMixStep h mixes z s).fault f = s.fault f := by
  unfold afterMixStep
  split
  · obtain ⟨-, -, fault⟩ := voxTest_mixSteps z (agcStep h z s)
    rw [fault]
    exact agcStep_fault_other other
  · rfl

theorem afterMixSteps_mixSteps (h : HandOff) (mixes : List (Option ZoneMix)) (s : State) : MixSteps s (afterMixSteps h mixes s) :=
  forEach_invariant (P := MixSteps s) s (fun z _ same => same.trans (afterMixStep_mixSteps h mixes z _)) allZones (.refl s)

theorem State.loopKept.trans (first : s.loopKept l t) (second : t.loopKept l u) : s.loopKept l u :=
  ⟨second.1.trans first.1, fun k => (second.2 k).trans (first.2 k)⟩

/-- The record of a loop that no zone which formed a block names. -/
theorem afterMixSteps_loop_idle (idle : ∀ z, (mixOf mixes z).isSome = true → (s.zone z).kind = .loop → s.loopOf z ≠ some l) :
    s.loopKept l (afterMixSteps h mixes s) := by
  refine (forEach_invariant (P := fun u => MixSteps s u ∧ s.loopKept l u) s (f := afterMixStep h mixes) (fun z u hu => ?_) allZones
    ⟨.refl s, rfl, fun _ => rfl⟩).2
  obtain ⟨same, kept⟩ := hu
  refine ⟨same.trans (afterMixStep_mixSteps h mixes z u), kept.trans (afterMixStep_loop_other ?_)⟩
  rw [same.zone, same.loopOf]
  exact idle z

/-- A loop record after its AGC step, and its two fault records after the observations of that step. -/
def State.loopStepped (s : State) (l : ParamId) (new : LoopRecord) (t : State) : Prop :=
  t.loops[l] = new ∧ t.fault (currentLimitedRef l) = s.observed (currentLimitedRef l) new.limited ∧
  t.fault (agcSaturatedRef l) = s.observed (agcSaturatedRef l) new.saturated

theorem State.loopStepped.keep (stepped : s.loopStepped l new t) (kept : t.loopKept l u) : s.loopStepped l new u := by
  obtain ⟨record, limited, saturated⟩ := stepped
  obtain ⟨loops, faults⟩ := kept
  exact ⟨loops.trans record, (faults 1).trans limited, (faults 0).trans saturated⟩

/-- The turn of a LOOP zone that formed a block, on a state that has its record yet. -/
theorem afterMixStep_loop_own (same : MixSteps s u) (kept : s.loopKept l u) (formed : (mixOf mixes z).isSome = true)
    (kind : (s.zone z).kind = .loop) (bound : s.loopOf z = some l)
    (hnew : new = s.loops[l].afterStep (s.agcCase z s.loops[l] (h.claim z).isSome (s.zone z).peak) (s.zone z).peak) :
    s.loopStepped l new (afterMixStep h mixes z u) := by
  obtain ⟨loops, faults⟩ := kept
  have zone : u.zone z = s.zone z := by rw [same.zone]
  have case_ : u.agcCase z = s.agcCase z := agcCase_congr (by rw [zone]) (by rw [zone]) (by rw [zone]) same.endpoints
  have own : new = u.loops[l].afterStep (u.agcCase z u.loops[l] (h.claim z).isSome (u.zone z).peak) (u.zone z).peak := by
    rw [loops, case_, zone, hnew]
  obtain ⟨⟨fs, al, es, eq⟩, record⟩ := agcStep_own (by rw [zone]; exact kind) (by rw [same.loopOf]; exact bound) own
  obtain ⟨-, loops_v, fault_v⟩ := voxTest_mixSteps z (agcStep h z u)
  have observed : ∀ k, u.observed (.loop l k) = s.observed (.loop l k) := fun k => observed_congr (faults k) same.policy same.now
  have apart : currentLimitedRef l ≠ agcSaturatedRef l := by simp [agcSaturatedRef, currentLimitedRef]
  unfold State.loopStepped afterMixStep
  rw [if_pos formed, loops_v, fault_v, record, record, if_neg apart, if_pos rfl, if_pos rfl]
  refine ⟨?_, congrFun (observed 1) _, congrFun (observed 0) _⟩
  rw [eq]
  exact (vector_set_get _ _ _ _).trans (if_pos rfl)

theorem loopOf_zone {y : ZoneId} (hz : s.loopOf z = some l) (hy : s.loopOf y = some l) : z = y :=
  Option.some.inj ((loopOf_some hz).symm.trans (loopOf_some hy))

theorem descOf_zone {y : ZoneId} (hz : s.descOf z = some d) (hy : s.descOf y = some d) : z = y :=
  Option.some.inj ((descOf_some hz).symm.trans (descOf_some hy))

/-- The record of a LOOP zone that formed a block takes one AGC step: the turns of the other zones leave it. -/
theorem afterMixSteps_loop (formed : (mixOf mixes z).isSome = true) (kind : (s.zone z).kind = .loop) (bound : s.loopOf z = some l)
    (hnew : new = s.loops[l].afterStep (s.agcCase z s.loops[l] (h.claim z).isSome (s.zone z).peak) (s.zone z).peak) :
    s.loopStepped l new (afterMixSteps h mixes s) := by
  have other : ∀ {u : State} {y : ZoneId}, MixSteps s u → y ≠ z → u.loopKept l (afterMixStep h mixes y u) := fun same ne =>
    afterMixStep_loop_other fun _ _ named => ne (loopOf_zone (by rw [← same.loopOf]; exact named) bound)
  refine (forEach_once (List.nodup_finRange 32) (List.mem_finRange z) (f := afterMixStep h mixes)
    (Pre := fun u => MixSteps s u ∧ s.loopKept l u) (Post := fun u => MixSteps s u ∧ s.loopStepped l new u)
    (fun y u ne hu => ?_) (fun u hu => ?_) (fun y u ne hu => ?_) ⟨.refl s, rfl, fun _ => rfl⟩).2
  · exact ⟨hu.1.trans (afterMixStep_mixSteps h mixes y u), hu.2.trans (other hu.1 ne)⟩
  · exact ⟨hu.1.trans (afterMixStep_mixSteps h mixes z u), afterMixStep_loop_own hu.1 hu.2 formed kind bound hnew⟩
  · exact ⟨hu.1.trans (afterMixStep_mixSteps h mixes y u), hu.2.keep (other hu.1 ne)⟩

theorem afterMixSteps_desc_idle (idle : ∀ z, (mixOf mixes z).isSome = true → (s.zone z).kind = .desc → s.descOf z ≠ some d) :
    (afterMixSteps h mixes s).descs[d] = s.descs[d] := by
  refine (forEach_invariant (P := fun u => MixSteps s u ∧ u.descs[d] = s.descs[d]) s (f := afterMixStep h mixes) (fun z u hu => ?_) allZones
    ⟨.refl s, rfl⟩).2
  obtain ⟨same, kept⟩ := hu
  refine ⟨same.trans (afterMixStep_mixSteps h mixes z u), (afterMixStep_desc_other ?_).trans kept⟩
  rw [same.zone, same.descOf]
  exact idle z

/-- The record of a DESC zone that formed a block takes one VOX step. -/
theorem afterMixSteps_desc (formed : (mixOf mixes z).isSome = true) (kind : (s.zone z).kind = .desc) (bound : s.descOf z = some d) :
    (afterMixSteps h mixes s).descs[d] = s.descs[d].voxStep s.ingressPeaks[s.descs[d].voiceSlot] := by
  have other : ∀ {u : State} {y : ZoneId}, MixSteps s u → y ≠ z → (afterMixStep h mixes y u).descs[d] = u.descs[d] := fun same ne =>
    afterMixStep_desc_other fun _ _ named => ne (descOf_zone (by rw [← same.descOf]; exact named) bound)
  refine (forEach_once (List.nodup_finRange 32) (List.mem_finRange z) (f := afterMixStep h mixes)
    (Pre := fun u => MixSteps s u ∧ u.descs[d] = s.descs[d])
    (Post := fun u => MixSteps s u ∧ u.descs[d] = s.descs[d].voxStep s.ingressPeaks[s.descs[d].voiceSlot])
    (fun y u ne hu => ?_) (fun u hu => ?_) (fun y u ne hu => ?_) ⟨.refl s, rfl⟩).2
  · exact ⟨hu.1.trans (afterMixStep_mixSteps h mixes y u), (other hu.1 ne).trans hu.2⟩
  · obtain ⟨same, kept⟩ := hu
    refine ⟨same.trans (afterMixStep_mixSteps h mixes z u), ?_⟩
    obtain ⟨stepped, descs⟩ := agcStep_mixSteps h z u
    have all := same.trans stepped
    unfold afterMixStep
    rw [if_pos formed, voxTest_own (by rw [all.zone]; exact kind) (by rw [all.descOf]; exact bound)]
    refine (vector_set_get _ _ _ _).trans ((if_pos rfl).trans ?_)
    simp only [descs, kept, all.peaks]
  · exact ⟨hu.1.trans (afterMixStep_mixSteps h mixes y u), (other hu.1 ne).trans hu.2⟩

theorem afterMixSteps_fault_other (other : ∀ l k, f ≠ .loop l k) : (afterMixSteps h mixes s).fault f = s.fault f :=
  forEach_keeps s (fun u => u.fault f) (f := afterMixStep h mixes) (fun _ _ => afterMixStep_fault_other other) allZones

end

/-! ### The steps of a downstream frame (R5, R54, R72, log 33) -/

section
variable {s s1 t v m : State} {order : List MsTask} {ing : List (List Int)} {z : ZoneId} {h : HandOff}

/-- The three events at which a frame is sent while no record for the part comes with it are one frame, begun at the locked port. -/
theorem frame_downstream (commands : s.cmdQueue = []) (cues : s.cueQueue = []) (open_ : s.softResetFlag = false)
    (begins : (∃ f, (∀ r ∈ f.records, recordFor s.node r = false) ∧ exec (.downstreamFrameArrival f order) s = .next t ∧
        ing = ((List.range 64).map fun i => slotSamples (f.slots.getD i [])) ∧
        s1 = if s.portA = .lost then observe consoleLinkLostRef false { s with portA := .locked } else { s with portA := .locked }) ∨
      ((s.portA = .locked ∧ exec (.badFrame order) s = .next t ∨ s.portA = .lost ∧ exec (.localTimingFrame order) s = .next t) ∧
        ing = List.replicate 64 (List.replicate 48 0) ∧ s1 = s)) :
    s1.service = s.service ∧ ∃ header arrived area, ing = ingressOf arrived ∧ t = downstream header arrived area order s1 := by
  have notDue : s.softResetDue = false := by unfold State.softResetDue; rw [open_]; rfl
  rcases begins with ⟨f, foreign, run, hing, locked⟩ | ⟨⟨held, run⟩ | ⟨lost, run⟩, hing, rfl⟩
  · obtain ⟨faults, alert, eq⟩ := lockA_eq s
    have lock : s1 = lockA s := locked
    have taken : intakeA f.records (lockA s) = lockA s := intakeA_none _ _ (by rw [eq]; exact foreign)
    refine ⟨by rw [lock, eq], f.header, some f.slots, freed s.node f.records, hing, (Host.Outcome.next.inj run).symm.trans ?_⟩
    rw [resetBeforeFrame, if_neg (by rw [notDue]; decide), frameFromA, taken, lock]
    exact serve_downstream _ _ _ _ (by rw [eq]; exact commands) (by rw [eq]; exact cues)
  · refine ⟨rfl, builtHeader s1 (s1.frameCounter + 1), none, emptyArea, hing, (Host.Outcome.next.inj run).symm.trans ?_⟩
    rw [if_pos held]
    exact serve_downstream _ _ _ _ commands cues
  · refine ⟨rfl, builtHeader s1 (s1.frameCounter + 1), none, emptyArea, hing, (Host.Outcome.next.inj run).symm.trans ?_⟩
    rw [if_pos lost]
    exact localTiming_eq notDue commands cues

theorem mixEvent_zone_kept (ing : List (List Int)) (mixes : List (Option ZoneMix)) (v : State) (z : ZoneId) :
    ((mixEvent ing mixes v).zone z).kind = (v.zone z).kind ∧ (mixEvent ing mixes v).agcCase z = v.agcCase z := by
  have kept : ((mixEvent ing mixes v).zone z).kind = (v.zone z).kind ∧
      ((mixEvent ing mixes v).zone z).protection = (v.zone z).protection ∧
      ((mixEvent ing mixes v).zone z).testMode = (v.zone z).testMode ∧ ((mixEvent ing mixes v).zone z).active = (v.zone z).active := by
    rw [mixEvent_zone]
    cases mixOf mixes z with
    | none => exact ⟨rfl, rfl, rfl, rfl⟩
    | some m => exact ⟨rfl, rfl, rfl, rfl⟩
  obtain ⟨kind, protection, mode, active⟩ := kept
  exact ⟨kind, agcCase_congr protection mode active rfl⟩

theorem zoneMixes_formed (v : State) (ing : List (List Int)) (h : HandOff) (z : ZoneId) :
    (mixOf (v.zoneMixes ing h) z).isSome = true ↔ v.service = .service ∧ (v.zone z).enabled = true := by
  rw [mixOf_zoneMixes]
  split
  · next forms => simp [forms]
  · next forms => simpa using forms

/-- The AGC and VOX steps of a frame, from the state and the hand-off that its millisecond event leaves. -/
theorem downstream_steps {header : Header} {arrived : Option (List (List WireSample))} {area : List Record}
    (event : (v, h) = millisecond header.number (ingressOf arrived) order s) (ht : t = downstream header arrived area order s) :
    (∀ z l, s.service = .service → (v.zone z).enabled = true → (v.zone z).kind = .loop → v.loopOf z = some l →
      v.loopStepped l (v.loops[l].afterStep (v.agcCase z v.loops[l] (h.claim z).isSome (t.zone z).peak) (t.zone z).peak) t) ∧
    (∀ l, (∀ z, s.service = .service → (v.zone z).enabled = true → (v.zone z).kind = .loop → v.loopOf z ≠ some l) →
      v.loopKept l t) ∧
    (∀ z d, s.service = .service → (v.zone z).enabled = true → (v.zone z).kind = .desc → v.descOf z = some d →
      t.descs[d] = v.descs[d].voxStep (blockPeak (slotOf (ingressOf arrived) v.descs[d].voiceSlot))) ∧
    (∀ d : ParamId, (∀ z, s.service = .service → (v.zone z).enabled = true → (v.zone z).kind = .desc → v.descOf z ≠ some d) →
      t.descs[d] = v.descs[d]) ∧
    ∀ f, (∀ l k, f ≠ .loop l k) → t.fault f = v.fault f := by
  obtain ⟨mixes, hmixes⟩ : ∃ mixes, mixes = v.zoneMixes (ingressOf arrived) h := ⟨_, rfl⟩
  obtain ⟨m, hm⟩ : ∃ m, m = mixEvent (ingressOf arrived) mixes v := ⟨_, rfl⟩
  obtain ⟨u, hu⟩ : ∃ u, u = afterMixSteps h mixes m := ⟨_, rfl⟩
  have sent : t = sendDown header (u.egress arrived mixes) area u := by
    unfold downstream at ht
    simp only at ht
    rw [← event] at ht
    simp only at ht
    rw [ht, hu, hm, hmixes]
  have service : v.service = s.service := by
    have settled := millisecond_settled s header.number (ingressOf arrived) order
    rw [← event] at settled
    exact (congrArg State.service settled :)
  have formed : ∀ z, (mixOf mixes z).isSome = true ↔ s.service = .service ∧ (v.zone z).enabled = true := fun z => by
    rw [hmixes, zoneMixes_formed, service]
  have kind : ∀ z, (m.zone z).kind = (v.zone z).kind := fun z => hm ▸ (mixEvent_zone_kept (ingressOf arrived) mixes v z).1
  have case_ : ∀ z, m.agcCase z = v.agcCase z := fun z => hm ▸ (mixEvent_zone_kept (ingressOf arrived) mixes v z).2
  have same_m : m.loopOf = v.loopOf ∧ m.descOf = v.descOf ∧ m.loops = v.loops ∧ m.descs = v.descs ∧ m.fault = v.fault ∧
      m.observed = v.observed := by rw [hm]; exact ⟨rfl, rfl, rfl, rfl, rfl, rfl⟩
  obtain ⟨loopOf, descOf, loops, descs, fault, observed⟩ := same_m
  have zone_t : t.zone = m.zone := by
    have steps : u.zone = m.zone := (hu ▸ afterMixSteps_mixSteps h mixes m : MixSteps m u).zone
    rw [sent, ← steps]
    rfl
  have same_t : t.loops = u.loops ∧ t.descs = u.descs ∧ t.fault = u.fault := by rw [sent]; exact ⟨rfl, rfl, rfl⟩
  obtain ⟨loops_t, descs_t, fault_t⟩ := same_t
  refine ⟨fun z l serving enabled isLoop bound => ?_, fun l idle => ?_, fun z d serving enabled isDesc bound => ?_, fun d idle => ?_,
    fun f other => ?_⟩
  · have stepped : m.loopStepped l _ u := hu ▸ afterMixSteps_loop ((formed z).mpr ⟨serving, enabled⟩) ((kind z).trans isLoop)
      (by rw [loopOf]; exact bound) rfl
    unfold State.loopStepped at stepped ⊢
    rw [loops, case_, observed] at stepped
    rw [loops_t, fault_t, zone_t]
    exact stepped
  · have kept : m.loopKept l u := hu ▸ afterMixSteps_loop_idle fun z forms isLoop => by
      obtain ⟨serving, enabled⟩ := (formed z).mp forms
      rw [loopOf]
      exact idle z serving enabled ((kind z).symm.trans isLoop)
    unfold State.loopKept at kept ⊢
    rw [loops, fault] at kept
    rw [loops_t, fault_t]
    exact kept
  · have stepped := afterMixSteps_desc (h := h) ((formed z).mpr ⟨serving, enabled⟩) ((kind z).trans isDesc) (by rw [descOf]; exact bound)
    have peak : ∀ i : Fin 64, m.ingressPeaks[i] = blockPeak (slotOf (ingressOf arrived) i) := fun i => by
      rw [hm]
      exact mixEvent_ingressPeak _ _ _ i
    rw [← hu, peak, descs] at stepped
    rw [descs_t]
    exact stepped
  · rw [descs_t, hu, afterMixSteps_desc_idle, descs]
    intro z forms isDesc
    obtain ⟨serving, enabled⟩ := (formed z).mp forms
    rw [descOf]
    exact idle z serving enabled ((kind z).symm.trans isDesc)
  · rw [fault_t, hu, afterMixSteps_fault_other other, fault]

end

/-- Settles O28: the first case of each table that holds, then the steps of a frame. -/
theorem agcAndVoxStep : Obligations.AgcAndVoxStep := by
  unfold Obligations.AgcAndVoxStep
  refine ⟨fun s z l => overLimit_iff, fun s z l claimed p t ht lo hi => ⟨?_, fun off => ?_, fun loud mode => ?_⟩, fun d v => ?_, ?_⟩
  · obtain ⟨least, most⟩ := agcAfter_bounds (s.agcCase z l claimed p) lo hi
    rw [ht]
    exact ⟨least, most, rfl⟩
  · rw [ht, agcCase_hold off, afterStep_hold]
  · obtain ⟨on, limit⟩ := agcCase_limit_iff (l := l) (claimed := claimed) (p := p) loud mode
    obtain ⟨accumulator, candidate, limited⟩ := afterStep_on (l := l) (p := p) on
    rw [ht]
    exact ⟨accumulator, candidate, limited.trans limit, afterStep_table (agcCase_on loud mode)⟩
  · exact ⟨voxStep_opens, voxStep_rests, voxStep_holds⟩
  · intro s s1 t v g order ing h commands cues open_ sent begins event
    obtain ⟨service, header, arrived, area, rfl, frame⟩ := frame_downstream commands cues open_ begins
    have number : g.header = header := by
      rw [frame] at sent
      exact (congrArg DownFrame.header (Option.some.inj sent)).symm
    rw [number] at event
    obtain ⟨loop, loopIdle, desc, descIdle, other⟩ := downstream_steps event frame
    rw [service] at loop loopIdle desc descIdle
    refine ⟨fun z l serving enabled kind bound => ?_, loopIdle, desc, descIdle, other⟩
    obtain ⟨record, limited, saturated⟩ := loop z l serving enabled kind bound
    refine ⟨record, ?_, ?_⟩
    · rw [observe_fault, if_pos rfl, record, limited]
    · rw [observe_fault, if_pos rfl, record, saturated]

end Sys2Proof.Machine
end

section
/-! DESC_WRITE (R64 to R67, R76): the record that a write for a zone goes to, the groups with their clamps, the CHANNEL directives, and the
release. -/

namespace Sys2Proof.Machine

section
variable {s t : State} {src : Node} {req : Byte} {w : TableWrite} {z : ZoneId} {d : ParamId} {r new : DescRecord} {data : List Byte}

/-! ### CHANNEL directives (R76, R142) -/

/-- Directives of which each endpoint is sent at most one are distinct in endpoint and code. -/
theorem keys_nodup_of_endpoint {issued : EndpointId → Option Directive} (own : ∀ e x, issued e = some x → x.endpoint = e) :
    ((allEndpoints.filterMap issued).map Directive.key).Nodup := by
  refine List.pairwise_map.mpr (List.pairwise_filterMap.mpr ((List.nodup_finRange 48).imp fun ne x hx y hy same => ne ?_))
  rw [← own _ x hx, ← own _ y hy]
  exact congrArg Prod.fst same

/-- Directives that joined the queue one after another are those issued. -/
theorem queueIssues_joinAll {ds : List Directive} {issued : Directive → Prop} (distinct : (ds.map Directive.key).Nodup)
    (members : ∀ x, issued x ↔ x ∈ ds) (queue : t.directives = joinAll ds s.directives) : QueueIssues s t issued := by
  simp only [QueueIssues, members, queue]
  exact ⟨joinAll_keys _ _, fun x h => mem_joinAll_self distinct h _, fun x h => mem_joinAll h, fun x h ne => mem_joinAll_of_ne ne h⟩

/-- The CHANNEL directives that a change of a zone's channel issues: to its PRESENT transmitters (R76). -/
def State.ChannelSent (s : State) (z : ZoneId) (ch : Nat) (x : Directive) : Prop :=
  ∃ e, (s.endpoint e).inUse = true ∧ (s.endpoint e).role = .descTx ∧ (s.endpoint e).place = z ∧ (s.endpoint e).presence = .present ∧
    x = { endpoint := e, code := .channel, dest := (s.endpoint e).node, value := BitVec.ofNat 8 ch }

/-- The CHANNEL directive of an endpoint, where it is sent one. -/
def State.channelIssued (z : ZoneId) (ch : Nat) (s : State) (e : EndpointId) : Option Directive :=
  if ((s.endpoint e).inUse = true ∧ (s.endpoint e).role = .descTx ∧ (s.endpoint e).place = z) ∧
      s.service = .service ∧ (s.endpoint e).presence = .present
  then some { endpoint := e, code := .channel, dest := (s.endpoint e).node, value := BitVec.ofNat 8 ch } else none

theorem channelIssued_some {ch : Nat} {e : EndpointId} {x : Directive} : s.channelIssued z ch e = some x ↔
    (((s.endpoint e).inUse = true ∧ (s.endpoint e).role = .descTx ∧ (s.endpoint e).place = z) ∧
      s.service = .service ∧ (s.endpoint e).presence = .present) ∧
    x = { endpoint := e, code := .channel, dest := (s.endpoint e).node, value := BitVec.ofNat 8 ch } := by
  simp only [State.channelIssued, Option.ite_none_right_eq_some, Option.some.injEq, eq_comm (a := x)]

theorem issueChannels_eq {ch : Nat} (channel : s.channelOf z = some ch) : issueChannels z s =
    { s with directives := joinAll (allEndpoints.filterMap (s.channelIssued z ch)) s.directives } := by
  unfold issueChannels
  rw [channel]
  refine forEach_joinAll s (issued := State.channelIssued z ch) (fun e u => ?_) (fun e u q => rfl) _
  unfold State.channelIssued
  by_cases transmits : (u.endpoint e).inUse = true ∧ (u.endpoint e).role = .descTx ∧ (u.endpoint e).place = z
  · rw [if_pos transmits]
    rcases issue_cases e .channel (BitVec.ofNat 8 ch) u with ⟨service, present, eq⟩ | ⟨no, eq⟩
    · rw [eq, if_pos ⟨transmits, service, present⟩]; rfl
    · rw [eq, if_neg (fun h => no h.2)]; rfl
  · rw [if_neg transmits, if_neg (fun h => transmits h.1)]; rfl

theorem issueChannels_configuration {ch : Nat} (channel : s.channelOf z = some ch) (h : s.service = .configuration) :
    (issueChannels z s).directives = s.directives := by
  have none_issued : allEndpoints.filterMap (s.channelIssued z ch) = [] := by
    rw [List.filterMap_eq_nil_iff]
    intro e _
    unfold State.channelIssued
    rw [if_neg fun sent => by rw [h] at sent; exact nomatch sent.2.1]
  rw [issueChannels_eq channel, none_issued]
  rfl

theorem issueChannels_issues {ch : Nat} (channel : s.channelOf z = some ch) (service : s.service = .service) :
    QueueIssues s (issueChannels z s) (s.ChannelSent z ch) := by
  refine queueIssues_joinAll (keys_nodup_of_endpoint fun e x h => by rw [(channelIssued_some.mp h).2]) (fun x => ?_)
    (congrArg State.directives (issueChannels_eq channel))
  simp only [List.mem_filterMap, channelIssued_some]
  exact ⟨fun ⟨e, used, role, place, present, eq⟩ => ⟨e, List.mem_finRange e, ⟨⟨used, role, place⟩, service, present⟩, eq⟩,
    fun ⟨e, _, ⟨⟨used, role, place⟩, _, present⟩, eq⟩ => ⟨e, used, role, place, present, eq⟩⟩

/-! ### The record of a zone (R64 to R66) -/

theorem freeDesc_none (full : ∀ d : ParamId, s.descs[d].zone.isSome = true) : s.freeDesc = none :=
  find_finRange_none.mpr fun d => by simpa using full d

theorem freeDesc_eq_some : s.freeDesc = some d ↔ s.descs[d].zone = none ∧ ∀ k, k < d → s.descs[k].zone.isSome = true := by
  unfold State.freeDesc
  rw [find_finRange]
  simp

/-- For a zone without a record, the channels held are those of all bound records. -/
theorem channelHeld_unbound (unbound : s.descOf z = none) (ch : Nat) :
    s.channelHeld z ch = true ↔ ∃ k : ParamId, s.descs[k].zone.isSome = true ∧ s.descs[k].channel = ch := by
  rw [channelHeld_iff]
  refine exists_congr fun k => ?_
  constructor
  · rintro ⟨y, hy, -, hc⟩
    exact ⟨by rw [hy]; rfl, hc⟩
  · rintro ⟨bound, hc⟩
    obtain ⟨y, hy⟩ := Option.isSome_iff_exists.mp bound
    exact ⟨y, hy, fun same => descOf_none unbound k (same ▸ hy), hc⟩

theorem lowestChannel_eq {ch : Nat} (least : 1 ≤ ch) (most : ch ≤ 16) (free : s.channelHeld z ch = false)
    (below : ∀ n, 1 ≤ n → n < ch → s.channelHeld z n = true) : s.lowestChannel z = ch := by
  have succ : ch - 1 + 1 = ch := Nat.sub_add_cancel least
  have first : (List.range 16).find? (fun i => !s.channelHeld z (i + 1)) = some (ch - 1) := by
    refine List.find?_range_eq_some.mpr ⟨by rw [succ, free]; rfl, List.mem_range.mpr (by omega), fun j lt => ?_⟩
    rw [below (j + 1) (by omega) (by omega)]
    rfl
  unfold State.lowestChannel
  rw [first]
  exact succ

/-- The record that a write for a zone finds: the zone's own, or the one it binds (R65, R66). -/
def State.DescTarget (s : State) (z : ZoneId) (d : ParamId) (r : DescRecord) : Prop :=
  (s.descOf z = some d ∧ r = s.descs[d]) ∨
    (s.descOf z = none ∧ s.freeDesc = some d ∧ r = { zone := some z, channel := s.lowestChannel z })

namespace State.DescTarget
variable (target : s.DescTarget z d r)
include target

theorem zone : r.zone = some z := by
  rcases target with ⟨bound, rfl⟩ | ⟨-, -, rfl⟩
  · exact descOf_some bound
  · rfl

theorem bindDesc : Machine.bindDesc z s = some (d, { s with descs := s.descs.set d r }) := by
  unfold Machine.bindDesc
  rcases target with ⟨bound, rfl⟩ | ⟨unbound, free, rfl⟩
  · have same : s.descs.set d s.descs[d] = s.descs := Vector.set_getElem_self d.isLt
    rw [bound, same]
  · rw [unbound, free]
    rfl

/-- The record written stays the zone's, or has become it. -/
theorem descOf_written (zone : new.zone = some z) : { s with descs := s.descs.set d new }.descOf z = some d := by
  refine find_finRange.mpr ⟨by simp [zone], fun j lt => ?_⟩
  have other : (s.descs.set d new)[j] = s.descs[j] := by rw [vector_set_get, if_neg (ne_of_lt lt)]
  rw [other]
  rcases target with ⟨bound, -⟩ | ⟨unbound, -, -⟩
  · exact (find_finRange.mp bound).2 j lt
  · exact find_finRange_none.mp unbound j

theorem channelOf_written (zone : new.zone = some z) :
    { s with descs := s.descs.set d new }.channelOf z = some new.channel := by
  unfold State.channelOf
  rw [target.descOf_written zone]
  simp

/-- A target is the same after the command left its queue. -/
theorem leave : (leaveCommand s).DescTarget z d r := by
  obtain ⟨hold, flag, eq⟩ := leaveCommand_eq s
  rw [eq]
  exact target

end State.DescTarget

/-- A write finds a record where the zone has one or some record is free. -/
theorem descTarget_exists (h : s.descOf z ≠ none ∨ ∃ d : ParamId, s.descs[d].zone = none) : ∃ d r, s.DescTarget z d r := by
  cases bound : s.descOf z with
  | some d => exact ⟨d, _, .inl ⟨bound, rfl⟩⟩
  | none =>
    obtain ⟨k, open_⟩ := h.resolve_left fun ne => ne bound
    cases free : s.freeDesc with
    | some d => exact ⟨d, _, .inr ⟨bound, free, rfl⟩⟩
    | none =>
      have taken := find_finRange_none.mp free k
      rw [open_] at taken
      exact nomatch taken

/-- The record that a zone without one gets: free, of the lowest index, at its reset values with the lowest channel (R65, R66). -/
theorem descTarget_lowest {ch : Nat} (unbound : s.descOf z = none) (free : s.descs[d].zone = none)
    (lowest : ∀ k, k < d → s.descs[k].zone.isSome = true) (hr : r = { State.reset.descs[d] with zone := some z, channel := ch })
    (least : 1 ≤ ch) (most : ch ≤ 16) (open_ : ∀ k : ParamId, s.descs[k].zone.isSome = true → s.descs[k].channel ≠ ch)
    (below : ∀ n, 1 ≤ n → n < ch → ∃ k : ParamId, s.descs[k].zone.isSome = true ∧ s.descs[k].channel = n) : s.DescTarget z d r := by
  have channel : s.lowestChannel z = ch := by
    refine lowestChannel_eq least most ?_ fun n one lt => (channelHeld_unbound unbound n).mpr (below n one lt)
    rw [← Bool.not_eq_true, channelHeld_unbound unbound]
    exact fun ⟨k, bound, held⟩ => open_ k bound held
  refine .inr ⟨unbound, freeDesc_eq_some.mpr ⟨free, lowest⟩, ?_⟩
  rw [hr, reset_desc, channel]

theorem bindDesc_full (unbound : s.descOf z = none) (full : ∀ d : ParamId, s.descs[d].zone.isSome = true) : bindDesc z s = none := by
  unfold bindDesc
  rw [unbound, freeDesc_none full]
  rfl

/-! ### The groups (R65, R67, R76) -/

/-- The fields of a group written, and what that makes of the directive queue. -/
theorem descFields_writes (target : s.DescTarget z d r) (c : Bool) {f : DescRecord → DescRecord} (fields : f r = new)
    (zone : new.zone = some z) : ∃ q,
    descFields z c f (d, { s with descs := s.descs.set d r }) s = written c z.val { s with descs := s.descs.set d new, directives := q } ∧
    (s.service = .configuration ∨ s.channelOf z = some new.channel → q = s.directives) ∧
    (s.service = .service → s.channelOf z ≠ some new.channel →
      QueueIssues s { s with directives := q } (s.ChannelSent z new.channel)) := by
  have put : modDesc d f { s with descs := s.descs.set d r } = { s with descs := s.descs.set d new } := by
    have at_d : (s.descs.set d r)[d] = r := by simp
    simp only [modDesc, at_d, fields, Vector.set_set]
  have channel := target.channelOf_written zone
  unfold descFields
  simp only [put, channel]
  by_cases same : some new.channel = s.channelOf z
  · rw [if_pos same]
    exact ⟨s.directives, rfl, fun _ => rfl, fun _ ne => absurd same.symm ne⟩
  · rw [if_neg same]
    refine ⟨(issueChannels z { s with descs := s.descs.set d new }).directives, ?_, fun h => ?_, fun service _ => ?_⟩
    · rw [issueChannels_eq channel]
    · exact issueChannels_configuration channel (h.resolve_right fun eq => same eq.symm)
    · exact issueChannels_issues channel service

theorem descVoice_fields (target : s.DescTarget z d r) {slot : Fin 64} (hslot : slot.val = (byteAt data 0).toNat) :
    descVoice z data s = descFields z false
      (fun r => { r with voiceSlot := slot, voiceGain := (word16 data 1).toNat, voxDepth := (word16 data 3).toNat })
      (d, { s with descs := s.descs.set d r }) s := by
  unfold descVoice
  rw [target.bindDesc, ← hslot, indexOf_val]

theorem descVoice_badValue (target : s.DescTarget z d r) (bad : 64 ≤ (byteAt data 0).toNat) :
    descVoice z data s = refuse .badValue s := by
  unfold descVoice
  rw [target.bindDesc, indexOf_none bad]

theorem descVox_fields (target : s.DescTarget z d r)
    (ordered : min 8388608 (word24 data 3).toNat ≤ min 8388608 (word24 data 0).toNat) :
    descVox z data s = descFields z
      (clamps 0 8388608 (word24 data 0).toNat || clamps 0 8388608 (word24 data 3).toNat || clamps 0 5000 (word16 data 6).toNat)
      (fun r => { r with
        onThreshold := min 8388608 (word24 data 0).toNat, offThreshold := min 8388608 (word24 data 3).toNat
        holdTime := min 5000 (word16 data 6).toNat, holdRemaining := min r.holdRemaining (min 5000 (word16 data 6).toNat) })
      (d, { s with descs := s.descs.set d r }) s := by
  unfold descVox
  simp only [target.bindDesc, clampTo_zero]
  exact if_neg (Nat.not_lt.mpr ordered)

theorem descVox_badValue (target : s.DescTarget z d r)
    (disordered : min 8388608 (word24 data 0).toNat < min 8388608 (word24 data 3).toNat) : descVox z data s = refuse .badValue s := by
  unfold descVox
  simp only [target.bindDesc, clampTo_zero]
  exact if_pos disordered

theorem descChannel_fields (target : s.DescTarget z d r) (least : 1 ≤ (byteAt data 0).toNat) (most : (byteAt data 0).toNat ≤ 16)
    (free : s.channelHeld z (byteAt data 0).toNat = false) : descChannel z data s =
      descFields z false (fun r => { r with channel := (byteAt data 0).toNat }) (d, { s with descs := s.descs.set d r }) s := by
  unfold descChannel
  simp only [target.bindDesc, free]
  exact if_neg (by omega)

theorem descChannel_badValue (target : s.DescTarget z d r) (bad : (byteAt data 0).toNat = 0 ∨ 16 < (byteAt data 0).toNat) :
    descChannel z data s = refuse .badValue s := by
  unfold descChannel
  simp only [target.bindDesc]
  exact if_pos (by omega)

theorem descChannel_duplicate (target : s.DescTarget z d r) (least : 1 ≤ (byteAt data 0).toNat) (most : (byteAt data 0).toNat ≤ 16)
    (held : s.channelHeld z (byteAt data 0).toNat = true) : descChannel z data s = refuse .duplicate s := by
  unfold descChannel
  simp only [target.bindDesc, held]
  exact if_neg (by omega)

/-- With all eight records bound to other zones, no group that holds fields is written (R65). -/
theorem descBody_full {g : BitVec 2} (fields : g ≠ 3) (unbound : s.descOf z = none)
    (full : ∀ d : ParamId, s.descs[d].zone.isSome = true) : descBody g data z s = refuse .full s := by
  have no_record := bindDesc_full unbound full
  have groups : g = 0 ∨ g = 1 ∨ g = 2 := by revert g; decide
  rcases groups with rfl | rfl | rfl
  · change descVoice z data s = _
    rw [descVoice, no_record]
  · change descVox z data s = _
    simp only [descVox, no_record]
  · change descChannel z data s = _
    simp only [descChannel, no_record]

/-! ### The command -/

theorem exec_descWrite (ready : s.commandReady (.descWrite src req w) src) (single : w.second = false) (hz : z.val = w.index.toNat) :
    exec (.descWrite src req w) s =
      .next (placeReply src (BitVec.ofNat 8 (0x90 + w.group.toNat)) req (descBody w.group w.data z (leaveCommand s))) := by
  have pass : preCheck .desc w = none := preCheck_none (by simp [tableIndexOk]; omega) w.group.isLt single
  refine congrArg Host.Outcome.next ((takeCommand_ready ready).trans ?_)
  rw [descWriteBody, checkedWrite_passes pass, ← hz, indexOf_val]
  rfl

/-- A write whose group's fields were written: its reply, the record, and the CHANNEL directives. -/
theorem exec_descWrite_fields {c : Bool} {f : DescRecord → DescRecord} {status : Status}
    (ready : s.commandReady (.descWrite src req w) src) (single : w.second = false) (hz : z.val = w.index.toNat)
    (target : s.DescTarget z d r)
    (body : descBody w.group w.data z (leaveCommand s) =
      descFields z c f (d, { leaveCommand s with descs := (leaveCommand s).descs.set d r }) (leaveCommand s))
    (fields : f r = new) (zone : new.zone = some z) (hstatus : (if c then Status.clamped else .ok) = status) :
    ∃ t, exec (.descWrite src req w) s = .next t ∧
      t = { s.answered (s.reply src (BitVec.ofNat 8 (0x90 + w.group.toNat)) req status [BitVec.ofNat 8 z.val]) with
        descs := s.descs.set d new, directives := t.directives } ∧
      (s.service = .configuration ∨ s.channelOf z = some new.channel → t.directives = s.directives) ∧
      (s.service = .service → s.channelOf z ≠ some new.channel → QueueIssues s t (s.ChannelSent z new.channel)) := by
  obtain ⟨q, writes, quiet, issues⟩ := descFields_writes target.leave c fields zone
  have answer : placeReply src (BitVec.ofNat 8 (0x90 + w.group.toNat)) req
      (written c z.val { leaveCommand s with descs := (leaveCommand s).descs.set d new, directives := q }) =
      { s.answered (s.reply src (BitVec.ofNat 8 (0x90 + w.group.toNat)) req status [BitVec.ofNat 8 z.val]) with
        descs := s.descs.set d new, directives := q } := by
    rw [placeReply_written (s := s) _ _ _ (by simp) (by simp), hstatus, leaveCommand_descs]
    rfl
  rw [exec_descWrite ready single hz, body, writes, answer]
  obtain ⟨hold, flag, eq⟩ := leaveCommand_eq s
  rw [eq] at quiet issues
  exact ⟨_, rfl, rfl, quiet, issues⟩

theorem exec_descWrite_refused {st : Status} (ready : s.commandReady (.descWrite src req w) src) (single : w.second = false)
    (hz : z.val = w.index.toNat) (body : descBody w.group w.data z (leaveCommand s) = refuse st (leaveCommand s)) :
    exec (.descWrite src req w) s =
      .next (s.answered (s.reply src (BitVec.ofNat 8 (0x90 + w.group.toNat)) req st [])) := by
  rw [exec_descWrite ready single hz, body, placeReply_refuse]

/-! ### The release (R65) -/

theorem descRelease_unbound (unbound : s.descOf z = none) : descRelease z s = written false z.val s := by
  unfold descRelease
  rw [unbound]

theorem descRelease_busy (bound : s.descOf z = some d) (busy : s.service = .service ∧ (s.zone z).enabled = true ∧ (s.zone z).kind = .desc) :
    descRelease z s = refuse .busy s := by
  unfold descRelease
  rw [bound]
  exact if_pos busy

theorem descRelease_frees (bound : s.descOf z = some d)
    (idle : ¬ (s.service = .service ∧ (s.zone z).enabled = true ∧ (s.zone z).kind = .desc)) :
    descRelease z s = written false z.val { s with descs := s.descs.set d {} } := by
  unfold descRelease
  rw [bound]
  exact if_neg idle

end

/-- Settles O51: the three groups that hold fields, what each refuses, FULL, and the release. -/
theorem descWrites : Obligations.DescWrites := by
  unfold Obligations.DescWrites
  intro src req w s z ready single hz
  obtain ⟨hold, flag, eq⟩ := leaveCommand_eq s
  have held_left : (leaveCommand s).channelHeld z = s.channelHeld z := by rw [eq]; rfl
  refine ⟨fun d r new before ch status found group => ?_, fun some_ => ?_, fun fields unbound full => ?_, fun release => ?_⟩
  · have ⟨target, was⟩ : s.DescTarget z d r ∧ before = s.channelOf z := by
      rcases found with ⟨bound, rfl, rfl⟩ | ⟨unbound, free, lowest, rfl, hr, least, most, open_, below⟩
      · exact ⟨.inl ⟨bound, rfl⟩, by rw [State.channelOf, bound]; rfl⟩
      · exact ⟨descTarget_lowest unbound free lowest hr least most open_ below, by rw [State.channelOf, unbound]; rfl⟩
    subst was
    rcases group with ⟨slot, group, hslot, rfl, rfl⟩ | ⟨on, off, hold, group, rfl, rfl, rfl, ordered, hstatus, rfl⟩ |
      ⟨c, group, rfl, least, most, free, rfl, rfl⟩
    · exact exec_descWrite_fields ready single hz target (by rw [group]; exact descVoice_fields target.leave hslot) rfl target.zone rfl
    · refine exec_descWrite_fields ready single hz target (by rw [group]; exact descVox_fields target.leave ordered) rfl target.zone ?_
      exact hstatus ▸ status_of_clamped (by simp (disch := decide) only [Bool.or_eq_true, clamps_iff]; omega)
    · have not_held : (leaveCommand s).channelHeld z (byteAt w.data 0).toNat = false := by
        rw [held_left, ← Bool.not_eq_true, channelHeld_iff]
        exact fun ⟨k, y, hy, ne, hc⟩ => free k y hy ne hc
      exact exec_descWrite_fields ready single hz target (by rw [group]; exact descChannel_fields target.leave least most not_held) rfl
        target.zone rfl
  · obtain ⟨d, r, target⟩ := descTarget_exists some_
    have refused : ∀ {st : Status} {g : BitVec 2}, w.group = g → descBody g w.data z (leaveCommand s) = refuse st (leaveCommand s) →
        exec (.descWrite src req w) s = .next (s.answered (s.reply src (BitVec.ofNat 8 (0x90 + g.toNat)) req st [])) := by
      rintro st g rfl body
      exact exec_descWrite_refused ready single hz body
    exact ⟨fun group bad => refused group (descVoice_badValue target.leave bad),
      fun group bad => refused group (descVox_badValue target.leave bad),
      fun group bad => refused group (descChannel_badValue target.leave bad),
      fun group least most held => refused group (descChannel_duplicate target.leave least most
        (by rw [held_left]; exact (channelHeld_iff z _).mpr held))⟩
  · exact exec_descWrite_refused ready single hz
      (descBody_full fields (by rw [eq]; exact unbound) (by rw [eq]; exact full))
  · have run : exec (.descWrite src req w) s = .next (placeReply src 0x93 req (descRelease z (leaveCommand s))) := by
      rw [exec_descWrite ready single hz, release]
      rfl
    refine ⟨fun unbound => ?_, fun d bound => ⟨fun busy => ?_, fun idle => ?_⟩⟩
    · rw [run, descRelease_unbound (by rw [eq]; exact unbound), placeReply_written (s := s) _ _ _ (by rw [eq]) (by rw [eq])]
      rfl
    · rw [run, descRelease_busy (d := d) (by rw [eq]; exact bound) (by rw [eq]; exact busy), placeReply_refuse]
    · rw [run, descRelease_frees (d := d) (by rw [eq]; exact bound) (by rw [eq]; exact idle), State.answered, eq]
      rfl

end Sys2Proof.Machine
end
